-- ==== Sys2Proof/Word.lean ====
section
/-! DEFINITION. The word types of the KX-7720 and their plainest arithmetic: bytes, 32-bit
parameter words, model time, exact fractions of natural numbers, and total reads and writes of
fixed tables. -/

namespace Sys2Proof

/-- A byte of a packet, a frame or a memory. -/
abbrev Byte := BitVec 8

/-- A parameter value (PARAM_READ returns 4 bytes for each, R503). -/
abbrev Word := BitVec 32

/-- Model time, in steps of 250 ps: the tap of the Tongs timebase (R330). -/
abbrev Time := Nat

/-- One microsecond in taps. -/
def us : Nat := 4000
/-- One millisecond in taps. -/
def ms : Nat := 4000000
/-- One second in taps. -/
def sec : Nat := 4000000000

/-- An exact fraction of natural numbers, kept unreduced unless made by `Frac.mk'`. A denominator of
zero reads as one. -/
structure Frac where
  num : Nat
  den : Nat
deriving DecidableEq, Repr

/-- The fraction in lowest terms. -/
def Frac.mk' (n d : Nat) : Frac :=
  if d = 0 then ⟨n, 1⟩ else ⟨n / Nat.gcd n d, d / Nat.gcd n d⟩

/-- A whole number as a fraction. -/
def Frac.ofNat (n : Nat) : Frac := ⟨n, 1⟩

def Frac.lt (a b : Frac) : Bool := a.num * b.den < b.num * a.den
def Frac.le (a b : Frac) : Bool := a.num * b.den ≤ b.num * a.den
def Frac.beq (a b : Frac) : Bool := a.num * b.den == b.num * a.den
def Frac.mul (a b : Frac) : Frac := Frac.mk' (a.num * b.num) (a.den * b.den)
def Frac.div (a b : Frac) : Frac := Frac.mk' (a.num * b.den) (a.den * b.num)
def Frac.add (a b : Frac) : Frac := Frac.mk' (a.num * b.den + b.num * a.den) (a.den * b.den)
def Frac.min (a b : Frac) : Frac := if a.le b then a else b
def Frac.max (a b : Frac) : Frac := if a.le b then b else a
def Frac.isZero (a : Frac) : Bool := a.num == 0

/-- Rounding down. -/
def Frac.floor (a : Frac) : Nat := a.num / a.den
/-- Rounding up. -/
def Frac.ceil (a : Frac) : Nat := (a.num + a.den - 1) / a.den
/-- Rounding to nearest, halves up (R194). -/
def Frac.round (a : Frac) : Nat := (2 * a.num + a.den) / (2 * a.den)

/-- A table of fixed length with entry `i` replaced. -/
def upd {α : Type} {n : Nat} (v : Vector α n) (i : Fin n) (x : α) : Vector α n :=
  v.set i.val x i.isLt

/-- A table of fixed length with entry `i` changed by `f`. -/
def updWith {α : Type} {n : Nat} (v : Vector α n) (i : Fin n) (f : α → α) : Vector α n :=
  v.set i.val (f v[i]) i.isLt

/-- The table whose entry `i` is `f i`. -/
def tab {α : Type} (n : Nat) (f : Fin n → α) : Vector α n := ⟨⟨List.ofFn f⟩, by simp⟩

/-- `f` applied to every entry. -/
def vmap {α β : Type} {n : Nat} (f : α → β) (v : Vector α n) : Vector β n :=
  tab n (fun i => f v[i])

/-- Saturating increment of a counter of `w` bits. -/
def satInc (w n : Nat) : Nat := if n + 1 < 2 ^ w then n + 1 else 2 ^ w - 1

/-- Saturating addition on a counter of `w` bits. -/
def satAdd (w n k : Nat) : Nat := if n + k < 2 ^ w then n + k else 2 ^ w - 1

end Sys2Proof
end

