-- ==== Sys2Proof/Config.lean ====
section
/-! DEFINITION. The free values of the model: constants without a body, so that no proof can know
what they are. Each is named in a row of notes/assumptions. -/

namespace Sys2Proof.Config

/-- Fresh values whose number the spec leaves open, indexed by State.free: the nonce of the on-die
random source (R131) and values a rule leaves unstated (log entries 10 and 11). -/
opaque freeValue : Nat → Nat

/-- The ECDSA P-256 signature (r, s) that the Hearth's signing engine makes over a SHA-256 digest
under the device key (R462): the key never leaves the die (log entry 12). -/
opaque deviceSign : List Byte → Nat → List Byte × List Byte

/-- Whether an ECDSA P-256 signature verifies over a message under Sarlor's life-cycle key, whose
digest the mask ROM holds (R467, log entry 12). -/
opaque sarlorToken : List Byte → List Byte → Bool

/-- The precision, in bits behind the point, of a linearised component: sRGB and gamma 2.2 give irrational values and
R103 states no rounding (log entry 13). -/
opaque linBits : Nat

/-- Gamma 2.2 of a negative component (a half-precision surface can hold one), which the curve does not reach (R103,
log entry 13). -/
opaque negativeGamma : Rat → Rat

/-- The scaler's filter coefficient: taps of the filter, ratio numerator and denominator, phase 0-63, tap (R104:
the scaler chooses the coefficients, the spec does not list them; log entry 13). -/
opaque scalerCoef : Nat → Nat → Nat → Nat → Nat → Rat

/-- The value of a half-precision component whose exponent is all ones, by its 16 bits: the spec states none
(R101, log entry 54). -/
opaque halfSpecial : Nat → Rat

/-- The full-weight, full-plane energy k_c of a channel in ADC counts: channel, OUTPUT of its estimate. The spec states
no scale (R139, log entry 54). -/
opaque fullEnergy : Nat → Nat → Nat

/-- A byte of the HBM after HBM_FULL has destroyed its content (chapter 16, self-test kinds): number of the
destruction, model time of the read, address (log entry 64). -/
opaque spoiltByte : Nat → Nat → Nat → Byte

/-- The CIE 1931 2 degree colour-matching functions at a whole nanometre: curve 0-2, wavelength
(R154 names the table, the spec does not list it; log entry 13). -/
opaque cie1931 : Nat → Nat → Rat

/-- The fixed 64 x 64 blue-noise permutation N of R177, which the spec does not list (log entry 13). -/
opaque blueNoise : Nat → Nat → Nat

/-- cos(pi j / n) of the smooth Bellows profile, in units of 2^-32, as the firmware computes it (R344
gives the cosine, the spec states no rounding; log entry 13). -/
opaque cosPi : Nat → Nat → Int

/-- The condition number of a 3 x 3 matrix as the firmware computes it, in units of 1/256 (R181 names
no norm; log entry 13). -/
opaque conditionNumber : List Rat → Nat

/-- Bytes that the manual does not lay out: the size in bytes of a start-up record as a function of the
number of warp entries and velocity-compensation entries it holds (R534 gives no layout; log entry 14). -/
opaque startupSize : Nat → Nat → Nat

end Sys2Proof.Config
end

