-- ==== Sys2Proof/Syntax.lean ====
section
/-! DEFINITION. The commands of the block: one constructor for each row of spec/opcode_table.json, in
the order of the table, with the operands the row's step takes. `t` is the time of the step (taps of
250 ps). Where a step takes in something physical (an edge, a sensor code, the outcome of a read-back),
that is an operand (log entry 3). -/

namespace Sys2Proof

/-- The transport a request arrived on, with its tag space (R71). A mailbox request names its slot. -/
inductive Port where
  | spi
  | mbx (slot : Fin 4)
  | canCmd
  | canSafety
  | brugo
deriving DecidableEq, Repr

/-- A request packet (R59) that was taken off its transport. `crc` is the CRC field as received; `at`
the time its last byte arrived. -/
structure Req where
  port : Port
  opcode : Nat
  tag : Byte
  flags : Byte
  payload : List Byte
  crc : Nat
  at' : Time
deriving DecidableEq, Repr

/-- The levels of the pins sampled at cold-start step 1 (R49). -/
structure Pins where
  ign : Bool
  wake : Bool
  estopN : Bool
  role : Bool
deriving DecidableEq, Repr

/-- What the verification of one firmware image found: its signature, SVN and version (R474). -/
structure Verify where
  sigOk : Bool
  svn : Nat
  version : Nat
deriving DecidableEq, Repr

/-- What a DP stream says of its pixels (R101, R103): bits per component, and from the MSA and the VSC SDP whether they
are YCbCr, and MATRIX, RANGE (full), TRANSFER and PRIMARIES in the codes of R98. -/
structure DpColour where
  bpc : Nat
  ycc : Bool
  matrix : Nat
  full : Bool
  transfer : Nat
  prims : Nat
deriving DecidableEq, Repr

/-- A whole frame of a DP input: the input, and the components of its pixels in raster order (R101). -/
structure DpFrame where
  input : Fin 2
  pix : List Nat
deriving DecidableEq, Repr

/-- How a reset comes about (R52): a PORST_N pulse of some width, or an internal reset. -/
inductive ResetKind where
  | porst (width : Time)
  | internal
deriving DecidableEq, Repr

/-- One function of an Anvil set (R127, function entry). -/
structure AnvFn where
  num : Nat
  glyph : Nat
  zone : Nat
  ofsX : Nat
  ofsY : Nat
  r : Nat
  g : Nat
  b : Nat
  lamp : Nat
  resetState : Nat
  /-- the reserved fields [115:112] and [23:2] of the entry (R4) -/
  reserved : Nat := 0
deriving DecidableEq, Repr

/-- One zone of an Anvil set (R127, zone entry). -/
structure AnvZone where
  num : Nat
  valid : Bool
  engine : Fin 4
  depth : Nat
  x : Nat
  y : Nat
  w : Nat
  h : Nat
  /-- the reserved fields [127:72] and [70:68] of the entry (R4) -/
  reserved : Nat := 0
deriving DecidableEq, Repr

/-- One glyph bitmap, 8-bit coverage, row by row (R127). -/
structure Glyph where
  num : Nat
  w : Nat
  h : Nat
  coverage : List Byte
deriving DecidableEq, Repr

/-- An Anvil set as the image spells it. The manual gives no image layout, so a set reaches the model
already taken apart (log entry 14). `signedUnder` is the owner key under which the image's CMAC is
correct (R127). -/
structure AnvSet where
  functions : List AnvFn
  zones : List AnvZone
  glyphs : List Glyph
  camMaps : List (List Int)
  verifyConfig : Option Word
  reqTimeout : Option Word
  camTimeout : Option Word
  energyFloor : Option Word
  signedUnder : List Byte
  bytes : List Byte
deriving DecidableEq, Repr

/-- What FRAME_START takes from outside: an Anvil store ECC error (glyph, uncorrectable) of this frame
(R128), whether the Anvil image could be drawn (R146), and for which engines firmware has completed the
matrix (R162). -/
structure FrameIn where
  ecc : Option (Nat × Bool)
  imageOk : Bool
  matrixReady : Vector Bool 4
deriving DecidableEq, Repr

/-- One photodiode result of a lit frame: slot (MAE) or zone (LSE), channel, energy with its dark
reference still in it, and that dark reference (R139, R140). -/
structure Meas where
  idx : Nat
  ch : Fin 24
  energy : Nat
  dark : Nat
deriving DecidableEq, Repr

/-- One function judged in a camera frame: correlation in 1/256, region mean and local background (R142). -/
structure CamTest where
  fn : Nat
  corr : Nat
  mean : Nat
  background : Nat
deriving DecidableEq, Repr

/-- What a servo tick reads: ADC codes, per channel the monitor energy E and the drive integral Q in
S7.24 (R301), and the demodulated scan amplitudes. -/
structure ServoIn where
  adc : List Nat
  energy : List (Int × Int)
  amp : List Nat
deriving DecidableEq, Repr

/-- The header of a received Brugo flit (R439): the port it came in on, source, destination, message
number, hops travelled, and the acknowledged SEQ. -/
structure Flit where
  port : Fin 2
  src : Nat
  dst : Nat
  msgno : Nat
  hops : Nat
  ack : Nat
deriving DecidableEq, Repr

/-- The values the manager shares (R451): the colour target when enabled, the global light factor when
enabled, in units of 1/256, and a forwarded light level (E_req, RAMP). -/
structure Shared where
  colour : Option Word
  dim : Option Nat
  light : Option (Nat × Nat)
deriving DecidableEq, Repr

/-- The body of a TIME_MARK (R443, R451): frame number, next frame period, CORRECTION, the values in
force and the values pending with their apply frame. -/
structure TimeMark where
  frame : Nat
  period : Nat
  correction : Nat
  shared : Shared
  pendingShared : List (Shared × Nat)
deriving DecidableEq, Repr

/-- The body of an ENUM message (R437, R439). -/
structure EnumMsg where
  uid : List Byte
  isManager : Bool
  number : Nat
  count : Nat
deriving DecidableEq, Repr

/-- The body of ANVIL_MIRROR (R453). -/
structure Mirror where
  frame : Nat
  states : List Nat
  blink : Nat
  ownerStale : Bool
deriving DecidableEq, Repr

/-- The body of a worker's STATUS (R439, R447, R452). -/
structure WorkerStatus where
  throttle : Nat
  cmpSeq : Nat
  alignerOk : Bool
deriving DecidableEq, Repr

/-- The two aligners of the Tongs. -/
inductive Aligner where
  | clock
  | frame
deriving DecidableEq, Repr

/-- An 8-byte event record (R540) taken apart. -/
structure EvRec where
  id : Nat
  sev : Nat
  device : Nat
  fwd : Bool
  detail : Nat
  count : Nat
  time : Nat
deriving DecidableEq, Repr

/-- The commands. -/
inductive Instr where
  | powerOn (t : Time) (pins : Pins) (patch : Verify)
  | reset (t : Time) (kind : ResetKind) (pins : Pins) (patch : Verify)
  | delayedReset (t : Time) (pins : Pins) (patch : Verify)
  | ignRise (t : Time)
  | ignFall (t : Time)
  | ignOffDelayExpiry (t : Time)
  | wakeRise (t : Time)
  | estopAssert (t : Time)
  | xtalStartTimeout (t : Time)
  | xtalReturn (t : Time)
  | rcTrim (t : Time) (temp : Int)
  | rcIdleStop (t : Time)
  | transitionComplete (t : Time) (retrain : List (Fin 64))
  | quenchRecovery (t : Time)
  | pcieLinkUp (t : Time) (gen width : Nat)
  | pwrGoodCheck (t : Time) (good : Bool) (badRail : Option (Fin 13)) (lbistFail : BitVec 4)
  | pwrSequenceRetry (t : Time)
  | pwrGoodLoss (t : Time)
  | railDischargeDone (t : Time)
  | hbmTrainingComplete (t : Time) (failed : List (Fin 64)) (taps : List (Nat × Int))
  | chaffWipeComplete (t : Time)
  | firmwareVerifyComplete (t : Time) (v : Verify)
  | mainFirmwareWatchdog (t : Time)
  | firmwareActivation (t : Time)
  | spiWritePacket (t : Time) (code : Nat) (bytes : List Byte)
  | spiReadReply (t : Time) (n : Nat)
  | spiReadStatus (t : Time)
  | mbxDoorbell (t : Time) (value : Word) (slotBytes : List Byte)
  | mbxStatusClear (t : Time) (value : Word)
  | canFrameReceive (t : Time) (ident : Word) (fd : Bool) (data : List Byte)
  | canReassemblyTimeout (t : Time) (safety : Bool)
  | canFrameSent (t : Time)
  | canBusOff (t : Time)
  | canBusOffRecovery (t : Time)
  | replyCacheExpiry (t : Time)
  | forwardTimeout (t : Time)
  | nop (t : Time) (rq : Req)
  | identify (t : Time) (rq : Req)
  | status (t : Time) (rq : Req)
  | stateRequest (t : Time) (rq : Req) (estopN : Bool)
  | eventRead (t : Time) (rq : Req)
  | eventClear (t : Time) (rq : Req)
  | eventRoute (t : Time) (rq : Req)
  | paramRead (t : Time) (rq : Req)
  | paramWrite (t : Time) (rq : Req)
  | layerDefine (t : Time) (rq : Req)
  | layerShadow (t : Time) (rq : Req)
  | commit (t : Time) (rq : Req)
  | commitStatus (t : Time) (rq : Req)
  | anvilClaim (t : Time) (rq : Req)
  | anvilRequest (t : Time) (rq : Req)
  | anvilVerifyRead (t : Time) (rq : Req)
  | sheafLoad (t : Time) (rq : Req)
  | warpLoad (t : Time) (rq : Req)
  | gamutLoad (t : Time) (rq : Req)
  | lightLevel (t : Time) (rq : Req)
  | lampFunctionSet (t : Time) (rq : Req)
  | loopConfigure (t : Time) (rq : Req)
  | loopBankWrite (t : Time) (rq : Req)
  | loopBankSwap (t : Time) (rq : Req)
  | loopMode (t : Time) (rq : Req)
  | traceArm (t : Time) (rq : Req)
  | traceRead (t : Time) (rq : Req)
  | timingProfile (t : Time) (rq : Req)
  | memTrain (t : Time) (rq : Req)
  | memStatus (t : Time) (rq : Req)
  | thermalPolicy (t : Time) (rq : Req)
  | calControl (t : Time) (rq : Req)
  | calRead (t : Time) (rq : Req)
  | bistRun (t : Time) (rq : Req)
  | bistResult (t : Time) (rq : Req)
  | linkTopology (t : Time) (rq : Req)
  | attestChallenge (t : Time) (rq : Req)
  | lifecycleAdvance (t : Time) (rq : Req)
  | limitedSettingWrite (t : Time) (rq : Req)
  | firmwareLoad (t : Time) (rq : Req)
  | cmpFenceWrite (t : Time) (layer : Fin 16) (value : Word)
  | swtRetry (t : Time) (e : Fin 4)
  | scnRestart (t : Time) (e : Fin 4)
  | emitReset (t : Time) (e : Fin 4)
  | tripReset (t : Time) (e : Fin 4)
  | srvLoopFlagClear (t : Time) (slot : Fin 64) (value : Word)
  | evtLatchedClear (t : Time) (group : Nat) (value : Word)
  | thrSheafDataHiRead (t : Time)
  | frgDerateDataWrite (t : Time) (value : Word)
  | counterClear (t : Time) (pid : Nat) (value : Word)
  | registerWrite (t : Time) (pid : Nat) (value : Word)
  | bar2Write (t : Time) (addr : Nat) (bytes : List Byte)
  | bar2Read (t : Time) (addr len : Nat)
  | frameStart (t : Time) (fi : FrameIn)
  | slotEpoch (t : Time) (e : Fin 4) (lead : Nat)
  | lightWindowOpen (t : Time) (e : Fin 4)
  | bandLoadDeadline (t : Time) (e : Fin 4) (band : Fin 16) (flits : Nat)
  | cornerTurnHalfComplete (t : Time) (e : Fin 4) (half : Nat)
  | sheafRecompileComplete (t : Time) (e : Fin 4)
  | servoTick (t : Time) (inp : ServoIn)
  | loopSampleDeadline (t : Time) (slot : Fin 64) (done : Bool)
  | referenceEdge (t : Time) (al : Aligner)
  | referenceLoss (t : Time) (al : Aligner)
  | holdoverLongExpiry (t : Time) (al : Aligner)
  | pllLossOfLock (t : Time) (pll : Fin 4)
  | pllRelockAttemptExpiry (t : Time) (pll : Fin 4)
  | pllRelock (t : Time) (pll : Fin 4) (dptxTrained : Bool)
  | safePllAttempt (t : Time) (locked : BitVec 4)
  | returnStatusFrame (t : Time) (e : Fin 4) (bytes : List Byte)
  | returnLaneBlockLockLoss (t : Time) (e : Fin 4)
  | statusFrameMissing (t : Time) (e : Fin 4)
  | linkBringupStepTimeout (t : Time) (e : Fin 4)
  | linkSoakComplete (t : Time) (e : Fin 4)
  | laneCorrSecond (t : Time)
  | pickoffEdge (t : Time) (e : Fin 4)
  | predictedEdgeMissed (t : Time) (e : Fin 4)
  | scanStartTimeout (t : Time) (e : Fin 4)
  | amplitudeSample (t : Time) (e : Fin 4) (code : Nat)
  | verticalDeviationTimeout (t : Time) (e : Fin 4)
  | rowStart (t : Time) (e : Fin 4) (fetched : Nat) (complete : Bool)
  | flyback (t : Time) (e : Fin 4)
  | emissionSample (t : Time) (e : Fin 4) (power : List Nat)
  | derateRecompute (t : Time)
  | pdFaultCount (t : Time) (ch : Fin 24)
  | matrixFrameStart (t : Time)
  | matrixRowSlot (t : Time) (row : Fin 12) (volts : List Nat) (rowSupply : Nat)
  | columnOvervoltageCount (t : Time) (row : Fin 12) (col : Fin 16)
  | nonceExpiry (t : Time)
  | claimLockoutExpiry (t : Time)
  | ownerTimeout (t : Time)
  | frameVerdict (t : Time) (meas : List Meas)
  | cameraFrame (t : Time) (cam : Fin 2) (crcErr covers quiet : Bool) (tests : List CamTest)
  | cameraTimeout (t : Time) (cam : Fin 2)
  | glyphReloadComplete (t : Time)
  | estimateHoldExpiry (t : Time) (ch : Fin 24)
  | gamutHoldTimeout (t : Time) (e : Fin 4)
  | colourSensorReading (t : Time) (e : Fin 4) (rgb : List Int) (pairEnergy : List Int)
  | colourSensorTimeout (t : Time) (e : Fin 4)
  | dpFrameComplete (t : Time) (f : DpFrame)
  | dpLinkLoss (t : Time) (i : Fin 2)
  | dpStaleTimeout (t : Time) (i : Fin 2)
  | refreshInterval (t : Time) (pc : Fin 64) (checkOk : Bool)
  | parityError (t : Time) (pc : Fin 64) (addr : Nat) (port : Nat) (write replaysFailed : Bool)
  | eccError (t : Time) (pc : Fin 64) (addr : Nat) (port : Nat) (uncorrectable : Bool) (syndrome : Byte)
  | retrainComplete (t : Time) (pc : Fin 64) (found checkOk : Bool) (taps : List (Nat × Int))
  | dieSensorSample (t : Time) (i : Fin 40) (value : Int)
  | dieSensorReading (t : Time) (values : Vector Int 40)
  | stackSensorReading (t : Time) (k : Fin 2) (value : Int)
  | stackSensorTimeout (t : Time) (k : Fin 2)
  | stackLevelDwellExpiry (t : Time) (k : Fin 2)
  | ntcReading (t : Time) (m : Fin 8) (value : Int)
  | sensorSuspectExpiry (t : Time) (i : Fin 40)
  | levelDwellExpiry (t : Time)
  | throttleHoldExpiry (t : Time)
  | throttleStep (t : Time)
  | quenchRampStep (t : Time)
  | supplyMonitorExcursion (t : Time) (rail : Fin 13) (beyond6 : Bool) (pins : Pins) (patch : Verify)
  | processMonitorMeasure (t : Time) (ratios : Vector Nat 8)
  | temperMeasurementWindow (t : Time) (q : Fin 7) (tap : Nat) (preOk : Bool) (target : Int)
  | temperMove (t : Time) (q : Fin 7) (tap : Nat)
  | journalWriteStart (t : Time)
  | journalWriteComplete (t : Time) (readBackOk : Bool)
  | journalRetry (t : Time)
  | marchSliceStart (t : Time) (inst : Nat) (idle : Nat) (free : Bool)
  | marchSliceComplete (t : Time) (inst : Nat) (predicted actual : Nat) (fail : Option (Nat × Nat × Nat × Nat))
  | marchSliceAbort (t : Time) (inst : Nat)
  | passLimitExpiry (t : Time) (inst : Nat)
  | repairRecordWrite (t : Time) (readBackOk : Bool)
  | timeMarkReceive (t : Time) (f : Flit) (tm : TimeMark)
  | refclkMismatchCount (t : Time)
  | delayReqReceive (t : Time) (port : Fin 2) (t1 : Time)
  | delayRespReceive (t : Time) (port : Fin 2) (t2 t3 : Time)
  | delayMeasureTimer (t : Time)
  | enumReceive (t : Time) (f : Flit) (en : EnumMsg)
  | brugoCmdReceive (t : Time) (f : Flit) (packet : List Byte)
  | brugoReplyReceive (t : Time) (f : Flit) (packet : List Byte)
  | brugoEventReceive (t : Time) (f : Flit) (records : List EvRec)
  | anvilMirrorSend (t : Time)
  | anvilMirrorReceive (t : Time) (f : Flit) (m : Mirror)
  | mirrorMissingCount (t : Time)
  | brugoStatusReceive (t : Time) (f : Flit) (ws : WorkerStatus)
  | barrierPrepare (t : Time) (f : Flit) (number apply : Nat) (packet : List Byte)
  | barrierVote (t : Time) (f : Flit) (number : Nat) (yes : Bool) (element reason : Nat)
  | barrierApply (t : Time) (f : Flit) (number : Nat)
  | barrierAck (t : Time) (f : Flit) (number : Nat)
  | barrierCancel (t : Time) (f : Flit) (number : Nat)
  | barrierDecisionDeadline (t : Time)
  | barrierAckDeadline (t : Time)
  | flitResendTimeout (t : Time) (port : Fin 2) (seq : Nat)
  | brugoPortSilence (t : Time) (port : Fin 2)
  | brugoPortUp (t : Time) (port : Fin 2)
  | memberStatusTimeout (t : Time) (dev : Fin 8)
  | managerLoss (t : Time)
  | eventGatherExpiry (t : Time)
  | starvationExpiry (t : Time) (activity : Nat)
  | powerLoss (t : Time)
  | supplyMonitorRecovery (t : Time) (rail : Fin 13) (within3 : Bool)
  | returnLaneBlockLock (t : Time) (e : Fin 4)
  | brugoCodewordLockLoss (t : Time) (port : Fin 2)
  | dpLinkLock (t : Time) (i : Fin 2) (rate : Nat) (dsc : Bool) (w h refreshMilliHz : Nat) (col : DpColour)
  | estimateValidTimeout (t : Time) (ch : Fin 24)
  | bistRunComplete (t : Time) (readBackOk : Bool) (fails rows : List (Nat × Nat × Nat × Nat))
  | otpWriteComplete (t : Time) (readBackOk : Bool)
  | bootFlashWriteComplete (t : Time) (readBackOk : Bool) (v : Verify) (anvil : Option AnvSet)
  | svnMinWriteRetry (t : Time) (readBackOk : Bool)
deriving DecidableEq, Repr

end Sys2Proof
end

