-- ==== Sys2Proof/WellFormed.lean ====
section
/-! DEFINITION. Which commands are well formed: operands inside the ranges that the manual's steps can
deliver. exec is total on every command; an ill-formed one names no step of the part. -/

namespace Sys2Proof

/-- A request packet of opcode `op`: 16-bit LENGTH and 32-bit CRC (R59). -/
def Req.wf (op : Nat) (r : Req) : Bool :=
  r.opcode == op && decide (r.payload.length < 65536) && decide (r.crc < 2 ^ 32)

/-- The header of a flit (R439): 4-bit addresses, 16-bit MSGNO, 3-bit HOPS. -/
def Flit.wf (f : Flit) : Bool :=
  decide (f.src < 16) && decide (f.dst < 16) && decide (f.msgno < 65536) && decide (f.hops < 8)
    && decide (f.ack < 256)

/-- An image header carries an SVN of 0-63 and a 32-bit version (R474, R497). -/
def Verify.wf (v : Verify) : Bool := decide (v.svn < 64) && decide (v.version < 2 ^ 32)

/-- A pseudo-channel tap correction names a bit of its 10 bytes (R525). -/
def tapsWf (l : List (Nat × Int)) : Bool :=
  l.all fun p => decide (p.1 < 640) && decide (-16384 ≤ p.2) && decide (p.2 < 16384)

/-- The opcode of each request row (Command reference, opcode summary). -/
def Instr.wf : Instr → Bool
  | .nop _ r => r.wf 0x00 | .identify _ r => r.wf 0x01 | .status _ r => r.wf 0x02
  | .stateRequest _ r _ => r.wf 0x03 | .eventRead _ r => r.wf 0x04 | .eventClear _ r => r.wf 0x05
  | .eventRoute _ r => r.wf 0x06 | .paramRead _ r => r.wf 0x08 | .paramWrite _ r => r.wf 0x09
  | .layerDefine _ r => r.wf 0x10 | .layerShadow _ r => r.wf 0x11 | .commit _ r => r.wf 0x12
  | .commitStatus _ r => r.wf 0x13 | .anvilClaim _ r => r.wf 0x18 | .anvilRequest _ r => r.wf 0x19
  | .anvilVerifyRead _ r => r.wf 0x1A | .sheafLoad _ r => r.wf 0x20 | .warpLoad _ r => r.wf 0x21
  | .gamutLoad _ r => r.wf 0x22 | .lightLevel _ r => r.wf 0x28 | .lampFunctionSet _ r => r.wf 0x29
  | .loopConfigure _ r => r.wf 0x30 | .loopBankWrite _ r => r.wf 0x31 | .loopBankSwap _ r => r.wf 0x32
  | .loopMode _ r => r.wf 0x33 | .traceArm _ r => r.wf 0x34 | .traceRead _ r => r.wf 0x35
  | .timingProfile _ r => r.wf 0x38 | .memTrain _ r => r.wf 0x40 | .memStatus _ r => r.wf 0x41
  | .thermalPolicy _ r => r.wf 0x48 | .calControl _ r => r.wf 0x50 | .calRead _ r => r.wf 0x51
  | .bistRun _ r => r.wf 0x58 | .bistResult _ r => r.wf 0x59 | .linkTopology _ r => r.wf 0x60
  | .attestChallenge _ r => r.wf 0x68 | .lifecycleAdvance _ r => r.wf 0x69
  | .limitedSettingWrite _ r => r.wf 0x6A | .firmwareLoad _ r => r.wf 0x70
  | .powerOn _ _ v => v.wf | .reset _ _ _ v => v.wf | .delayedReset _ _ v => v.wf
  | .firmwareVerifyComplete _ v => v.wf
  | .supplyMonitorExcursion _ _ _ _ v => v.wf
  | .bootFlashWriteComplete _ _ v _ => v.wf
  | .pcieLinkUp _ gen width => decide (gen < 16) && decide (width < 16)
  | .hbmTrainingComplete _ _ taps => tapsWf taps
  | .retrainComplete _ _ _ _ taps => tapsWf taps
  | .spiWritePacket _ code _ => decide (code < 256)
  | .mbxDoorbell _ _ b => decide (b.length ≤ 8192)
  | .canFrameReceive _ _ _ d => decide (d.length ≤ 64)
  | .evtLatchedClear _ g _ => decide (1 ≤ g) && decide (g ≤ 0x13)
  | .counterClear _ pid _ => decide (pid < 65536)
  | .registerWrite _ pid _ => decide (pid < 65536)
  | .bar2Write _ a b => decide (a + b.length ≤ 2 ^ 34)
  | .bar2Read _ a n => decide (a + n ≤ 2 ^ 34)
  | .cornerTurnHalfComplete _ _ h => decide (h < 2048)
  | .servoTick _ i => decide (i.adc.length = 16) && decide (i.energy.length = 24)
      && decide (i.amp.length = 4)
  | .emissionSample _ _ p => decide (p.length = 6)
  | .amplitudeSample _ _ c => decide (c < 65536)
  | .matrixRowSlot _ _ v _ => decide (v.length = 16)
  | .colourSensorReading _ _ rgb pe => decide (rgb.length = 3) && decide (pe.length = 3)
  | .parityError _ _ a p _ _ => decide (a < 2 ^ 38) && (decide (p < 16) || p == 255)
  | .eccError _ _ a p _ _ => decide (a < 2 ^ 34) && decide (p < 16)
  | .marchSliceStart _ i _ _ => decide (i < 64)
  | .marchSliceComplete _ i _ _ _ => decide (i < 64)
  | .marchSliceAbort _ i => decide (i < 64)
  | .passLimitExpiry _ i => decide (i < 64)
  | .timeMarkReceive _ f _ => f.wf | .enumReceive _ f en => f.wf && decide (en.uid.length = 16)
  | .brugoCmdReceive _ f p => f.wf && decide (p.length ≤ 4106)
  | .brugoReplyReceive _ f p => f.wf && decide (p.length ≤ 4106)
  | .brugoEventReceive _ f rs => f.wf && decide (rs.length ≤ 10)
  | .anvilMirrorReceive _ f m => f.wf && decide (m.states.length = 256)
  | .brugoStatusReceive _ f _ => f.wf
  | .barrierPrepare _ f _ _ _ => f.wf | .barrierVote _ f _ _ _ _ => f.wf
  | .barrierApply _ f _ => f.wf | .barrierAck _ f _ => f.wf | .barrierCancel _ f _ => f.wf
  | .dpLinkLock _ _ r _ w h _ c => decide (r < 3) && decide (w < 16384) && decide (h < 16384)
      && decide (1 ≤ c.bpc) && decide (c.bpc ≤ 16) && decide (c.matrix < 3) && decide (c.transfer < 3)
      && decide (c.prims < 3)
  | _ => true

end Sys2Proof
end

