-- ==== Sys2Proof/Decode.lean ====
section
/-! DEFINITION. The commands that a word spells: no row of the opcode table of this block gives bits,
so no word spells one. -/

namespace Sys2Proof

/-- The command a word of `nbits` bits spells by the table: none, as the table gives no row any bits. -/
def decodeTableWord (_nbits _w : Nat) : Option Instr := none

end Sys2Proof
end

