-- ==== Sys2Proof/Machine/Bits.lean ====
section
/-! DEFINITION. Bytes, bit fields and rounding: the little-endian layout of every multi-byte field
(R3), the [msb:lsb] fields of the manual's tables, sign extension, and division with the roundings the
rules name. -/

namespace Sys2Proof.Machine

/-- Byte `i` of a packet or payload, as a number. -/
def byteAt (l : List Byte) (i : Nat) : Nat := (l.getD i 0).toNat

/-- The 2 bytes at `i`, little-endian (R3). -/
def le16 (l : List Byte) (i : Nat) : Nat := byteAt l i + 256 * byteAt l (i + 1)

/-- The 4 bytes at `i`, little-endian (R3). -/
def le32 (l : List Byte) (i : Nat) : Nat := le16 l i + 65536 * le16 l (i + 2)

/-- A whole byte list as a little-endian number (R3). -/
def leNat : List Byte → Nat
  | [] => 0
  | b :: r => b.toNat + 256 * leNat r

/-- The lowest `k` bytes of a number, little-endian (R3). -/
def leBytes : Nat → Nat → List Byte
  | 0, _ => []
  | k + 1, n => BitVec.ofNat 8 n :: leBytes k (n / 256)

/-- A word of 4 bytes, little-endian. -/
def leWord (v : Word) : List Byte := leBytes 4 v.toNat

/-- The bytes `[i, i + n)` of a list, short at its end. -/
def slice (l : List Byte) (i n : Nat) : List Byte := (l.drop i).take n

/-- Whether the bytes `[i, i + n)` are all zero (reserved bytes, R4). -/
def zeroAt (l : List Byte) (i n : Nat) : Bool := (slice l i n).all (· == 0)

/-- Field [lo + w - 1 : lo] of a number. -/
def fld (n lo w : Nat) : Nat := n / 2 ^ lo % 2 ^ w

/-- Bit `i` of a number. -/
def bit (n i : Nat) : Bool := n / 2 ^ i % 2 == 1

/-- A number with field [lo + w - 1 : lo] replaced. -/
def setFld (n lo w v : Nat) : Nat := n - fld n lo w * 2 ^ lo + v % 2 ^ w * 2 ^ lo

/-- Field of a parameter value. -/
def wfl (v : Word) (lo w : Nat) : Nat := fld v.toNat lo w

/-- Bit of a parameter value. -/
def wb (v : Word) (i : Nat) : Bool := bit v.toNat i

/-- A number as a parameter value, its high bits lost. -/
def toW (n : Nat) : Word := BitVec.ofNat 32 n

/-- A flag as a number. -/
def b2n (b : Bool) : Nat := if b then 1 else 0

/-- The two's complement value of the low `w` bits of `n`. -/
def sext (w n : Nat) : Int :=
  if n % 2 ^ w < 2 ^ (w - 1) then (n % 2 ^ w : Nat) else (n % 2 ^ w : Nat) - (2 ^ w : Nat)

/-- The low `w` bits of the two's complement of `i`. -/
def unsext (w : Nat) (i : Int) : Nat := (i % (2 ^ w : Nat)).toNat

/-- `a` clamped to `[lo, hi]`. -/
def clampI (lo hi a : Int) : Int := if a < lo then lo else if hi < a then hi else a

/-- Integer division by a positive number rounded to nearest, halves up. -/
def rdivI (a : Int) (b : Nat) : Int := (2 * a + b) / (2 * b)

/-- Natural division rounded to nearest, halves up. -/
def rdiv (a b : Nat) : Nat := if b = 0 then 0 else (2 * a + b) / (2 * b)

/-- Natural division rounded up. -/
def cdiv (a b : Nat) : Nat := if b = 0 then 0 else (a + b - 1) / b

/-- Sum of a list. -/
def sumN (l : List Nat) : Nat := l.foldl (· + ·) 0

/-- Sum of a list of integers. -/
def sumI (l : List Int) : Int := l.foldl (· + ·) 0

/-- The largest of a list, 0 of an empty one. -/
def maxN (l : List Nat) : Nat := l.foldl max 0

/-- Exclusive-or of two byte lists of one length. -/
def xorBytes (a b : List Byte) : List Byte := List.zipWith (· ^^^ ·) a b

/-- A bit mask of the indices below `n` that satisfy `p`. -/
def maskOf (n : Nat) (p : Nat → Bool) : Nat :=
  (List.range n).foldl (fun a i => if p i then a + 2 ^ i else a) 0

/-- One half as the index of a two-entry table. -/
def other (b : Fin 2) : Fin 2 := if b = 0 then 1 else 0

/-- A number as an index below `n + 1`, wrapped. -/
def ix (n i : Nat) : Fin (n + 1) := Fin.ofNat (n + 1) i

/-- The value at `k` of an association list. -/
def look {α : Type} (l : List (Nat × α)) (k : Nat) : Option α :=
  match l.find? (fun p => p.1 == k) with
  | some p => some p.2
  | none => none

/-- The association list with the value at `k` replaced or added. -/
def put {α : Type} (l : List (Nat × α)) (k : Nat) (v : α) : List (Nat × α) :=
  l.filter (fun p => p.1 != k) ++ [(k, v)]

end Sys2Proof.Machine
end

