-- ==== Sys2Proof/Machine/Crypto.lean ====
section
/-! DEFINITION. The three standard functions the manual names: CRC-32C (R61), AES-128-CMAC (R131, R467,
R470) and SHA-256 (R463). -/

namespace Sys2Proof.Machine

/-- One bit of CRC-32C, bit-reflected (R61). -/
def crcBit (c : Nat) : Nat := if c % 2 = 1 then Nat.xor (c / 2) 0x82F63B78 else c / 2

/-- One byte of CRC-32C. -/
def crcByte (c : Nat) (b : Byte) : Nat :=
  crcBit (crcBit (crcBit (crcBit (crcBit (crcBit (crcBit (crcBit (Nat.xor c b.toNat))))))))

/-- CRC-32C of a byte string (R61). -/
def crc32c (l : List Byte) : Nat := Nat.xor (l.foldl crcByte 0xFFFFFFFF) 0xFFFFFFFF

/-- The AES substitution box, by high and low nibble. -/
def sboxRows : List (List Nat) :=
  [[0x63, 0x7C, 0x77, 0x7B, 0xF2, 0x6B, 0x6F, 0xC5, 0x30, 0x01, 0x67, 0x2B, 0xFE, 0xD7, 0xAB, 0x76],
   [0xCA, 0x82, 0xC9, 0x7D, 0xFA, 0x59, 0x47, 0xF0, 0xAD, 0xD4, 0xA2, 0xAF, 0x9C, 0xA4, 0x72, 0xC0],
   [0xB7, 0xFD, 0x93, 0x26, 0x36, 0x3F, 0xF7, 0xCC, 0x34, 0xA5, 0xE5, 0xF1, 0x71, 0xD8, 0x31, 0x15],
   [0x04, 0xC7, 0x23, 0xC3, 0x18, 0x96, 0x05, 0x9A, 0x07, 0x12, 0x80, 0xE2, 0xEB, 0x27, 0xB2, 0x75],
   [0x09, 0x83, 0x2C, 0x1A, 0x1B, 0x6E, 0x5A, 0xA0, 0x52, 0x3B, 0xD6, 0xB3, 0x29, 0xE3, 0x2F, 0x84],
   [0x53, 0xD1, 0x00, 0xED, 0x20, 0xFC, 0xB1, 0x5B, 0x6A, 0xCB, 0xBE, 0x39, 0x4A, 0x4C, 0x58, 0xCF],
   [0xD0, 0xEF, 0xAA, 0xFB, 0x43, 0x4D, 0x33, 0x85, 0x45, 0xF9, 0x02, 0x7F, 0x50, 0x3C, 0x9F, 0xA8],
   [0x51, 0xA3, 0x40, 0x8F, 0x92, 0x9D, 0x38, 0xF5, 0xBC, 0xB6, 0xDA, 0x21, 0x10, 0xFF, 0xF3, 0xD2],
   [0xCD, 0x0C, 0x13, 0xEC, 0x5F, 0x97, 0x44, 0x17, 0xC4, 0xA7, 0x7E, 0x3D, 0x64, 0x5D, 0x19, 0x73],
   [0x60, 0x81, 0x4F, 0xDC, 0x22, 0x2A, 0x90, 0x88, 0x46, 0xEE, 0xB8, 0x14, 0xDE, 0x5E, 0x0B, 0xDB],
   [0xE0, 0x32, 0x3A, 0x0A, 0x49, 0x06, 0x24, 0x5C, 0xC2, 0xD3, 0xAC, 0x62, 0x91, 0x95, 0xE4, 0x79],
   [0xE7, 0xC8, 0x37, 0x6D, 0x8D, 0xD5, 0x4E, 0xA9, 0x6C, 0x56, 0xF4, 0xEA, 0x65, 0x7A, 0xAE, 0x08],
   [0xBA, 0x78, 0x25, 0x2E, 0x1C, 0xA6, 0xB4, 0xC6, 0xE8, 0xDD, 0x74, 0x1F, 0x4B, 0xBD, 0x8B, 0x8A],
   [0x70, 0x3E, 0xB5, 0x66, 0x48, 0x03, 0xF6, 0x0E, 0x61, 0x35, 0x57, 0xB9, 0x86, 0xC1, 0x1D, 0x9E],
   [0xE1, 0xF8, 0x98, 0x11, 0x69, 0xD9, 0x8E, 0x94, 0x9B, 0x1E, 0x87, 0xE9, 0xCE, 0x55, 0x28, 0xDF],
   [0x8C, 0xA1, 0x89, 0x0D, 0xBF, 0xE6, 0x42, 0x68, 0x41, 0x99, 0x2D, 0x0F, 0xB0, 0x54, 0xBB, 0x16]]

def sbox (b : Byte) : Byte := BitVec.ofNat 8 ((sboxRows.getD (b.toNat / 16) []).getD (b.toNat % 16) 0)

/-- Multiplication by x in the AES field. -/
def xtime (b : Byte) : Byte := if b.toNat < 128 then b <<< 1 else (b <<< 1) ^^^ 0x1B

/-- MixColumns on one column. -/
def mixColumn : List Byte → List Byte
  | [a, b, c, d] =>
    let t := a ^^^ b ^^^ c ^^^ d
    [a ^^^ t ^^^ xtime (a ^^^ b), b ^^^ t ^^^ xtime (b ^^^ c),
      c ^^^ t ^^^ xtime (c ^^^ d), d ^^^ t ^^^ xtime (d ^^^ a)]
  | l => l

/-- A list in columns of 4. -/
def columns : Nat → List Byte → List (List Byte)
  | 0, _ => []
  | n + 1, l => l.take 4 :: columns n (l.drop 4)

/-- SubBytes and ShiftRows on a block held column by column. -/
def subShift (s : List Byte) : List Byte :=
  (List.range 16).map fun i => sbox (s.getD ((i + 4 * (i % 4)) % 16) 0)

/-- The next round key from a round key, with the round constant. -/
def nextKey (rc : Byte) (k : List Byte) : List Byte :=
  let c := columns 4 k
  let w (i : Nat) : List Byte := c.getD i []
  let t := match w 3 with
    | [a, b, d, e] => [sbox b ^^^ rc, sbox d, sbox e, sbox a]
    | l => l
  let w0 := xorBytes (w 0) t
  let w1 := xorBytes (w 1) w0
  let w2 := xorBytes (w 2) w1
  w0 ++ w1 ++ w2 ++ xorBytes (w 3) w2

/-- The rounds after the first key addition. -/
def aesRounds : Nat → Byte → List Byte → List Byte → List Byte
  | 0, _, _, s => s
  | n + 1, rc, k, s =>
    let k' := nextKey rc k
    let t := subShift s
    let u := if n = 0 then t else ((columns 4 t).map mixColumn).flatten
    aesRounds n (xtime rc) k' (xorBytes u k')

/-- AES-128 encryption of one block. -/
def aes128 (key block : List Byte) : List Byte := aesRounds 10 1 key (xorBytes block key)

/-- Doubling in the field of CMAC, on a block read most significant byte first. -/
def cmacDouble (b : List Byte) : List Byte :=
  let n := leNat b.reverse
  let d := n * 2 % 2 ^ 128
  (leBytes 16 (if n < 2 ^ 127 then d else Nat.xor d 0x87)).reverse

/-- The CBC chain of CMAC: whole blocks but the last are chained, the last is masked with a subkey. -/
def cmacChain (key k1 k2 : List Byte) : Nat → List Byte → List Byte → List Byte
  | 0, acc, _ => acc
  | n + 1, acc, m =>
    if m.length ≤ 16 then
      let b := if m.length = 16 then xorBytes m k1
        else xorBytes (m ++ [0x80] ++ List.replicate (15 - m.length) 0) k2
      aes128 key (xorBytes acc b)
    else cmacChain key k1 k2 n (aes128 key (xorBytes acc (m.take 16))) (m.drop 16)

/-- AES-128-CMAC. -/
def cmac (key msg : List Byte) : List Byte :=
  let k1 := cmacDouble (aes128 key (List.replicate 16 0))
  cmacChain key k1 (cmacDouble k1) (msg.length + 1) (List.replicate 16 0) msg

/-- The 8-byte MAC of the manual: the first 8 bytes of AES-128-CMAC (R131, R470). -/
def mac8 (key msg : List Byte) : List Byte := (cmac key msg).take 8

/-- The round constants of SHA-256. -/
def shaK : List Nat :=
  [0x428A2F98, 0x71374491, 0xB5C0FBCF, 0xE9B5DBA5, 0x3956C25B, 0x59F111F1, 0x923F82A4, 0xAB1C5ED5]
   ++ [0xD807AA98, 0x12835B01, 0x243185BE, 0x550C7DC3, 0x72BE5D74, 0x80DEB1FE, 0x9BDC06A7, 0xC19BF174]
   ++ [0xE49B69C1, 0xEFBE4786, 0x0FC19DC6, 0x240CA1CC, 0x2DE92C6F, 0x4A7484AA, 0x5CB0A9DC, 0x76F988DA]
   ++ [0x983E5152, 0xA831C66D, 0xB00327C8, 0xBF597FC7, 0xC6E00BF3, 0xD5A79147, 0x06CA6351, 0x14292967]
   ++ [0x27B70A85, 0x2E1B2138, 0x4D2C6DFC, 0x53380D13, 0x650A7354, 0x766A0ABB, 0x81C2C92E, 0x92722C85]
   ++ [0xA2BFE8A1, 0xA81A664B, 0xC24B8B70, 0xC76C51A3, 0xD192E819, 0xD6990624, 0xF40E3585, 0x106AA070]
   ++ [0x19A4C116, 0x1E376C08, 0x2748774C, 0x34B0BCB5, 0x391C0CB3, 0x4ED8AA4A, 0x5B9CCA4F, 0x682E6FF3]
   ++ [0x748F82EE, 0x78A5636F, 0x84C87814, 0x8CC70208, 0x90BEFFFA, 0xA4506CEB, 0xBEF9A3F7, 0xC67178F2]

/-- Rotation right of a 32-bit number. -/
def ror (n x : Nat) : Nat := x / 2 ^ n + x % 2 ^ n * 2 ^ (32 - n)

/-- The message schedule of SHA-256, newest word first, `n` more words. -/
def shaSchedule : Nat → List Nat → List Nat
  | 0, w => w
  | n + 1, w =>
    let a := w.getD 1 0
    let b := w.getD 14 0
    let s1 := Nat.xor (Nat.xor (ror 17 a) (ror 19 a)) (a / 1024)
    let s0 := Nat.xor (Nat.xor (ror 7 b) (ror 18 b)) (b / 8)
    shaSchedule n ((w.getD 15 0 + s0 + w.getD 6 0 + s1) % 2 ^ 32 :: w)

/-- One round of SHA-256 on the eight working words. -/
def shaRound (h : List Nat) (kw : Nat × Nat) : List Nat :=
  match h with
  | [a, b, c, d, e, f, g, i] =>
    let s1 := Nat.xor (Nat.xor (ror 6 e) (ror 11 e)) (ror 25 e)
    let ch := Nat.xor (Nat.land e f) (Nat.land (0xFFFFFFFF - e) g)
    let t1 := (i + s1 + ch + kw.1 + kw.2) % 2 ^ 32
    let s0 := Nat.xor (Nat.xor (ror 2 a) (ror 13 a)) (ror 22 a)
    let mj := Nat.xor (Nat.xor (Nat.land a b) (Nat.land a c)) (Nat.land b c)
    [(t1 + s0 + mj) % 2 ^ 32, a, b, c, (d + t1) % 2 ^ 32, e, f, g]
  | l => l

/-- A big-endian word of 4 bytes. -/
def be32 (l : List Byte) (i : Nat) : Nat :=
  byteAt l i * 16777216 + byteAt l (i + 1) * 65536 + byteAt l (i + 2) * 256 + byteAt l (i + 3)

/-- One block of SHA-256. -/
def shaBlock (h : List Nat) (b : List Byte) : List Nat :=
  let w0 := ((List.range 16).map fun i => be32 b (4 * i)).reverse
  let w := (shaSchedule 48 w0).reverse
  List.zipWith (fun x y => (x + y) % 2 ^ 32) h ((List.zip shaK w).foldl shaRound h)

/-- The blocks of a padded message. -/
def shaBlocks : Nat → List Nat → List Byte → List Nat
  | 0, h, _ => h
  | n + 1, h, m => shaBlocks n (shaBlock h (m.take 64)) (m.drop 64)

/-- SHA-256. -/
def sha256 (m : List Byte) : List Byte :=
  let z := (119 - m.length % 64) % 64
  let p := m ++ [0x80] ++ List.replicate z 0 ++ (leBytes 8 (8 * m.length)).reverse
  let h := shaBlocks (p.length / 64)
    [0x6A09E667, 0xBB67AE85, 0x3C6EF372, 0xA54FF53A, 0x510E527F, 0x9B05688C, 0x1F83D9AB, 0x5BE0CD19] p
  (h.map fun x => (leBytes 4 x).reverse).flatten

end Sys2Proof.Machine
end

