-- ==== Sys2Proof/Machine/State.lean ====
section
/-! DEFINITION. The state of the KX-7720: every register, queue, counter, mode and pin the spec gives
it, one structure for each subsystem, as plain data. The default of a field is its value at reset; each
docstring says what the field is, its width, the rule that names it and its reset value. "log n" is a
row of notes/assumptions. -/

namespace Sys2Proof.Machine

/-- The power states (R35), with the ranks of R566. -/
inductive PState where
  | off | sleep | standby | ready | lit | quench | safe
deriving DecidableEq, Repr

/-- The status codes of R63. -/
inductive Status where
  | ok | pending | badCrc | badOpcode | badLength | badParam | wrongState | busy | deniedLifecycle
  | deniedOwner | limitExhausted | thermalInhibit | commitRejected | resourceExceeded | hwFault | timeout
deriving DecidableEq, Repr

/-- The name of a PENDING command: its port and tag (R68, R71), its opcode, and whether it is pending on a worker
that it was forwarded to (R80). -/
structure PendKey where
  port : Port
  tag : Byte
  opcode : Nat
  fwd : Bool := false
deriving DecidableEq, Repr

/-! ## Non-volatile storage: OTP and boot flash -/

/-- One OTP slot of a limited setting (R469). -/
structure OtpSlot where
  value : List Byte
  crcOk : Bool
deriving DecidableEq, Repr

/-- The device key (R461, R468). -/
inductive KeyState where
  | absent | present | destroyed
deriving DecidableEq, Repr

/-- One soft or fused repair (R429, R431): instance, bank, kind (0 spare row, 1 spare column), failing
row or column, spare index. -/
structure RepairEntry where
  inst : Nat
  bank : Nat
  kind : Nat
  index : Nat
  spare : Nat
deriving DecidableEq, Repr

/-- One-time-programmable storage. Its content is what was programmed before the model's reset: log 5. -/
structure Otp where
  /-- UID, 128 bits (R460); DESIGN CHOICE 0 (log 5) -/
  uid : BitVec 128 := 0
  /-- fuse words of FACTORY, PROVISIONED, FIELD, RETURN, SCRAPPED, 5 x 32 bits (R464); DESIGN CHOICE PROVISIONED in force (log 5) -/
  lcWords : Vector Word 5 := ⟨#[0xFFFFFFFF, 0xFFFFFFFF, 0, 0, 0], rfl⟩
  /-- emission-limit slots used, per engine, at most 8 (R469); DESIGN CHOICE none written (log 5) -/
  emission : Vector (List OtpSlot) 4 := Vector.replicate 4 []
  /-- pairing-record slots used, at most 4 (R469, R471); DESIGN CHOICE none written (log 5) -/
  pairing : List OtpSlot := []
  /-- owner-key slots used, at most 4 (R469); DESIGN CHOICE none written (log 5) -/
  ownerKey : List OtpSlot := []
  /-- market-profile slots used, at most 2 (R469, R472); DESIGN CHOICE none written (log 5) -/
  market : List OtpSlot := []
  /-- SEC_SVN_MIN of the Hearth patch, 6 bits (R474, R477); DESIGN CHOICE 0 (log 5) -/
  svnMinPatch : Nat := 0
  /-- SEC_SVN_MIN of the main firmware, 6 bits (R474, R477); DESIGN CHOICE 0 (log 5) -/
  svnMinMain : Nat := 0
  /-- the device key field (R461); DESIGN CHOICE present (log 5) -/
  deviceKey : KeyState := .present
  /-- the device certificate, at most 1,024 bytes (R461); DESIGN CHOICE empty (log 5) -/
  certificate : List Byte := []
  /-- silicon stepping code, 8 bits (R497); DESIGN CHOICE 0 (log 5) -/
  stepping : Nat := 0
  /-- fused repairs (R432); DESIGN CHOICE none (log 5) -/
  fusedRepairs : List RepairEntry := []
  /-- factory default of every Temper tap, by quantity (R403, R410); DESIGN CHOICE 0 each (log 5) -/
  tapFactory : Vector (List Int) 7 :=
    ⟨#[List.replicate 96 0, List.replicate 32 0, List.replicate 640 0, List.replicate 24 0,
      List.replicate 24 0, List.replicate 4 0, List.replicate 40 0], rfl⟩
deriving DecidableEq, Repr

/-- A firmware image in a slot: its bytes, SVN and version (R474). -/
structure Image where
  bytes : List Byte
  svn : Nat
  version : Nat
deriving DecidableEq, Repr

/-- A backup-matrix lamp function (R289). -/
structure LampFn where
  /-- LEDs of the function, bit 16 r + c, 192 bits (R289); reset flash, else 0 -/
  mask : BitVec 192 := 0
  /-- sink code at full level, 8 bits (R289); reset flash, else 0 -/
  current : Byte := 0
  /-- part of the ignition set (R289, R39); reset flash, else 0 -/
  ignition : Bool := false
  /-- switched off whole on any LED fault (R289, R293); reset flash, else 0 -/
  allOrNothing : Bool := false
  /-- entry in use (R289); reset flash, else 0 -/
  valid : Bool := false
deriving DecidableEq, Repr

/-- The Hearth records: the stored values of group 0x01 and of the Brugo role (R534, R528). -/
structure HearthRec where
  wakeConfig : Word
  ignOffDelay : Word
  can : Vector Word 6
  mtxLevel : Word
  lamps : Vector LampFn 48
deriving DecidableEq, Repr

/-- One record of the Temper journal (R409). -/
structure JournalRec where
  seq : Nat
  arrayId : Vector (List Byte) 4
  taps : Vector (List Int) 7
deriving DecidableEq, Repr

/-- A self-test result record (R425). -/
structure ResultRec where
  inst : Nat
  result : Nat := 0
  repair : Nat := 0
  slicesDone : Nat := 0
  failAddr : Nat := 0
  failBit : Nat := 0
  fails : Nat := 0
  passes : Nat := 0
  aborts : Nat := 0
deriving DecidableEq, Repr

/-- A failing HBM row: stack, pseudo-channel index, bank, row (R431). -/
structure HbmRow where
  stack : Nat
  index : Nat
  bank : Nat
  row : Nat
deriving DecidableEq, Repr

/-- The repair record (R430, R431). -/
structure RepairRec where
  seq : Nat
  repairs : List RepairEntry
  results : List ResultRec
  kind : Nat
  rows : List HbmRow
deriving DecidableEq, Repr

/-- The kind of an engine (R14). -/
inductive EngKind where
  | unused | mae | lse
deriving DecidableEq, Repr

/-- The configuration of one engine (R14, R515). -/
structure EngCfg where
  kind : EngKind := .unused
  w : Nat := 0
  h : Nat := 0
deriving DecidableEq, Repr

/-- One entry of a velocity-compensation table (R250). -/
structure VctEntry where
  phase : Int
  gain : Nat
deriving DecidableEq, Repr

/-- A layer descriptor (R98), the 32 bytes as one number so that reserved bits and encodings survive. -/
abbrev Layer := BitVec 256

/-- A gamut bank (R163), the 64 bytes as received. -/
abbrev GamutBank := List Byte

/-- A Sheaf request (R191), the 32 bytes as received. -/
abbrev SheafReq := List Byte

/-- A slot of a mesh directory (R169); `cols` and `rows` are the mesh's node counts, `fresh` says it was
DEFINEd since the last BEGIN and `written` names the nodes DATA has written. -/
structure MeshSlot where
  valid : Bool := false
  spacing : Nat := 0
  base : Nat := 0
  cols : Nat := 0
  rows : Nat := 0
  fresh : Bool := false
  written : List Nat := []
deriving DecidableEq, Repr

/-- A warp mesh entry (R165). -/
structure MeshEntry where
  dx : Int := 0
  dy : Int := 0
  gain : Nat := 0x800
  mask : Bool := false
deriving DecidableEq, Repr

/-- A coefficient bank of a loop (R310, R321), the 112 bytes as received. -/
abbrev Bank := List Byte

/-- The start-up record (R534). -/
structure Startup where
  engines : Vector EngCfg 4
  rate : Nat
  vct : Vector (List VctEntry) 4
  canvas : Vector Word 4
  depths : Word
  dither : Word
  slotRate : Word
  bandTiming : Vector Word 4
  focus : Vector Word 4
  fRef : Vector Word 4
  winOrg : Word
  winSize : Word
  dptx : Vector Word 3
  layers : Vector Layer 16
  gamut : Vector (Option GamutBank) 4
  sheaf : Vector (Option SheafReq) 4
  warp : Vector (Vector MeshSlot 12) 4
  mesh : List (Nat × MeshEntry)
  loops : Vector (BitVec 64) 64
  banks : Vector (Option Bank) 64
  enables : Vector Word 20
  routes : List (Nat × Nat)
  /-- the derating curves (R281) -/
  derate : Vector (Vector (Nat × Nat) 8) 24
  params : List (Nat × Word)
deriving DecidableEq, Repr

/-- The boot flash (R473), by region. Its content at the model's reset: log 5. -/
structure Flash where
  /-- Hearth patch slots 0 and 1 (R473); DESIGN CHOICE a verified image in slot 0 (log 5) -/
  patch : Vector (Option Image) 2 := ⟨#[some ⟨[], 0, 1⟩, none], rfl⟩
  /-- main firmware slots 0 and 1 (R473); DESIGN CHOICE a verified image in slot 0 (log 5) -/
  main : Vector (Option Image) 2 := ⟨#[some ⟨[], 0, 1⟩, none], rfl⟩
  /-- Anvil set slots 0 and 1 (R473); DESIGN CHOICE none (log 5) -/
  anvil : Vector (Option AnvSet) 2 := Vector.replicate 2 none
  /-- directory: active patch slot (R473, SEC_FW_STATUS R477); 0 -/
  patchActive : Fin 2 := 0
  /-- directory: patch pending mark (R475); 0 -/
  patchPending : Bool := false
  /-- directory: active main slot (R473); 0 -/
  mainActive : Fin 2 := 0
  /-- directory: main pending mark (R475); 0 -/
  mainPending : Bool := false
  /-- directory: active Anvil slot (R473); 0 -/
  anvActive : Fin 2 := 0
  /-- directory: Anvil pending mark (R475); 0 -/
  anvPending : Bool := false
  /-- Hearth records (R473, R534); DESIGN CHOICE none stored (log 5) -/
  hearth : Option HearthRec := none
  /-- BRG_CONFIG as LINK_TOPOLOGY last stored it (R436, R528): reset value of BRG_CONFIG, 0x00000008 -/
  brgConfig : Word := 8
  /-- start-up record (R473, R534) with whether its CRC holds; DESIGN CHOICE none stored (log 5) -/
  startup : Option (Startup × Bool) := none
  /-- Temper journal slots A and B, none when invalid (R409, R410); DESIGN CHOICE none stored (log 5) -/
  journal : Vector (Option JournalRec) 2 := Vector.replicate 2 none
  /-- repair record slots A and B, none when invalid (R430); DESIGN CHOICE none stored (log 5) -/
  repair : Vector (Option RepairRec) 2 := Vector.replicate 2 none
  /-- boot-flash wipe that a life-cycle transition left to do at the next cold start (R468): 0 none, 4 RETURN, 5 SCRAPPED -/
  wipe : Nat := 0
deriving DecidableEq, Repr

/-! ## Hearth -/

/-- How far the fast domains have come up (R49, R57, R552-R555). -/
inductive Boot where
  /-- PORST_N low, or cold-start steps 1-3 not done (R545) -/
  | hold
  /-- fast domains off, rails discharged -/
  | off
  /-- fast domains off, rails discharging after SLEEP entry (R555) -/
  | discharge
  /-- the switched rails are being powered up (R552) -/
  | rails
  /-- the 100 ms wait after a failed power-up (R553) -/
  | retryWait
  /-- fast domains powered: firmware verification, HBM training and wipe run (R49 steps 5-8) -/
  | loading
  /-- fast domains up -/
  | on
deriving DecidableEq, Repr

/-- A held event (R41, R566). -/
inductive HeldEv where
  | ignRise | wakeRise | ignOff | quenchRecovered
deriving DecidableEq, Repr

/-- A running transition (R41-R43): where it began, where it goes, the step in progress, its cause and
the STATE_REQUEST that waits for it. -/
structure Trans where
  start : PState
  target : PState
  leaving : PState
  stepTo : PState
  cause : Nat
  cmd : Option PendKey
deriving DecidableEq, Repr

/-- The Hearth domain: power states, wake inputs, oscillators, rails, group 0x01 parameters. -/
structure Hth where
  /-- STATE of HTH_STATE, 4 bits (R35); reset SLEEP -/
  pwr : PState := .sleep
  /-- CAUSE of HTH_STATE, 8 bits (R35); reset 0x00 -/
  cause : Nat := 0
  /-- PREV of HTH_STATE, 4 bits (R35); reset 0x0 (OFF) -/
  prev : PState := .off
  /-- WAKE_SRC of HTH_STATE, bits IGN, WAKE, CAN FD, SPI (R35); reset 0 -/
  wakeSrc : BitVec 4 := 0
  /-- the running transition (R41); none. BUSY reads 1 at reset because the cold start runs (boot = hold) -/
  trans : Option Trans := none
  /-- the most recent held event (R41, R566); none -/
  held : Option HeldEv := none
  /-- how far the fast domains are up (R49, R552); hold, as FAULT_N is low until cold-start step 3 (R545) -/
  boot : Boot := .hold
  /-- the main firmware has verified since the fast domains powered on (R49 step 6); 0 -/
  fwDone : Bool := false
  /-- HBM training has completed since the fast domains powered on (R49 step 7); 0 -/
  trainDone : Bool := false
  /-- a wake waits for the rails to discharge (R555); 0 -/
  wakeWaiting : Bool := false
  /-- when the rails have discharged (R555); none -/
  dischargeDue : Option Time := none
  /-- the power-up sequence has been repeated once (R553); 0 -/
  railRetried : Bool := false
  /-- when the 100 ms wait of a failed power-up ends (R553); none -/
  railRetryDue : Option Time := none
  /-- PWR_EN_A, PWR_EN_B, PWR_EN_M, 3 bits (R552); off -/
  pwrEn : BitVec 3 := 0
  /-- level of IGN after debounce (R38); sampled at cold-start step 1, DESIGN CHOICE 0 before it (log 6) -/
  ign : Bool := false
  /-- level of WAKE after debounce (R38); as IGN -/
  wake : Bool := false
  /-- ESTOP_N is low (R46); sampled; DESIGN CHOICE not asserted (log 6) -/
  estopLow : Bool := false
  /-- HTH_WAKE_CONFIG, 0x0102 (R36); reset flash, else 0x26F -/
  wakeConfig : Word := 0x26F
  /-- HTH_IGN_OFF_DELAY, 0x0103, units of 100 ms (R37); reset flash, else 20 -/
  ignOffDelay : Word := 20
  /-- when the IGN-off delay expires (R37); none -/
  ignOffDue : Option Time := none
  /-- HTH_CAN_BITRATE and the five identifiers, 0x0110-0x0115, as in force on the bus (R89); reset flash, else as here -/
  can : Vector Word 6 := ⟨#[0x12, 0x010, 0x011, 0x120, 0x121, 0x130], rfl⟩
  /-- the same six as written, waiting for the reply of their write to be sent (R89) -/
  canNext : Vector Word 6 := ⟨#[0x12, 0x010, 0x011, 0x120, 0x121, 0x130], rfl⟩
  /-- the crystal runs (R30); DESIGN CHOICE running (log 6) -/
  xtalOk : Bool := true
  /-- the Hearth runs from the RC oscillator continuously (R30); 0 -/
  onRc : Bool := false
  /-- the RC oscillator runs (R29, R40); 1 after PORST_N (R49 step 1) -/
  rcRun : Bool := true
  /-- last activity of the Hearth controller, for the RC idle stop of R40 -/
  lastActivity : Time := 0
  /-- trims of the RC against the crystal since reset (R29); 0 -/
  rcTrims : Nat := 0
  /-- Hearth temperature sensor, signed, 1/16 degree C (R382); DESIGN CHOICE 25 degrees (log 6) -/
  temp : Int := 400
  /-- the Hearth patch verified and runs; otherwise mask ROM alone (R51); 1 -/
  patchRuns : Bool := true
  /-- main firmware runs (R51); 0 -/
  fwRuns : Bool := false
  /-- no main firmware has verified at the last start of it (R45, R51); 0 -/
  fwAbsent : Bool := false
  /-- version and SVN of the running patch and of the running main firmware (R497); 0 -/
  patchVer : Nat := 0
  patchSvn : Nat := 0
  mainVer : Nat := 0
  mainSvn : Nat := 0
  /-- the state held before QUENCH (R36 QUENCH_RESUME); standby -/
  beforeQuench : PState := .standby
  /-- when the delayed reset of R418 and R468 falls due; none -/
  resetDue : Option Time := none
  /-- when READY or LIT was last entered with the running image (R476); none -/
  runSince : Option Time := none
  /-- the lamp check is lit: ignition functions show ON until an ANVIL_REQUEST changes them (R39, R290); 0 -/
  lampCheck : Bool := false
  /-- lamp functions whose lamp check an ANVIL_REQUEST has ended (R290) -/
  lampCheckEnded : List Nat := []
  /-- role at cold-start step 1, 0 standalone, 1 manager, 2 worker (R436, BRG_STATUS.ROLE); strap -/
  role : Nat := 0
  /-- EVT_TIME counts from here (R547); 0 -/
  timeBase : Time := 0
  /-- device lock of RWL fields ANV_LOCK and FRG_LOCK, set at the end of a reset in FIELD (R151, R294) -/
  lock : Bool := false
  /-- frame starts seen on the way to LIT since READY (R49 steps 10-11): frames composed -/
  composed : Nat := 0
  /-- the first frame may be composed from here on: 200 us after the start-up commit (R49 step 10); 0 -/
  composeFrom : Time := 0
deriving DecidableEq, Repr

/-! ## Host interfaces -/

/-- A kept reply (R72): port, tag, opcode and CRC of its request, the reply's bytes, when it became ready. -/
structure Kept where
  port : Port
  tag : Byte
  opcode : Nat
  crc : Nat
  bytes : List Byte
  at' : Time
deriving DecidableEq, Repr

/-- An outstanding tag (R71) with the ports on which duplicates of it came, each to get one reply (R72). -/
structure Outst where
  port : Port
  tag : Byte
  opcode : Nat
  crc : Nat
  pend : Bool
  copies : List Port
deriving DecidableEq, Repr

/-- A CAN FD reply being sent (R92): its packet bytes, the frames already sent, and the CAN FD parameters that take
effect after its last frame (R89). -/
structure CanTx where
  bytes : List Byte
  sent : Nat
  applies : List (Fin 6 × Word)
deriving DecidableEq, Repr

/-- A received CAN FD frame (R28): identifier, whether it is an FD frame, data. -/
structure CanFrame where
  ident : Word
  fd : Bool
  data : List Byte
deriving DecidableEq, Repr

/-- A reassembly buffer (R91). -/
structure Reasm where
  opened : Bool := false
  bytes : List Byte := []
  index : Nat := 0
  last : Time := 0
deriving DecidableEq, Repr

/-- A frame on CAN FD in transmission (R481, R543). -/
inductive CanWire where
  | none | safety | event | command
deriving DecidableEq, Repr

/-- The host interfaces and the command interpreter's queues. -/
structure Hst where
  /-- requests that passed their arrival checks and wait for the interpreter, in arrival order (R73); empty -/
  requests : List Req := []
  /-- outstanding tags (R71); none -/
  outst : List Outst := []
  /-- replies kept for duplicate detection, 4 for each transport (R72); none -/
  kept : List Kept := []
  /-- rotation pointers of the interpreter arbiter, safety and foreground class, ports 0-3 (R480); 0 -/
  rotSafety : Nat := 0
  rotFore : Nat := 0
  /-- commands PENDING, at most 8 (R68); none -/
  pend : List PendKey := []
  /-- commands deferred in STANDBY (R493); none -/
  deferred : List Req := []
  /-- quad SPI reply queue, at most 8 (R85); empty -/
  spiReplies : List (List Byte) := []
  /-- bytes the device drove in the last SPI read (R83, R85); none -/
  spiOut : List Byte := []
  /-- RX_BUSY: until when the SPI front end holds a packet not yet taken (R83, R84); none -/
  spiBusyUntil : Option Time := none
  /-- MBX_STATUS DONE, W1C, 4 bits (R86); 0 -/
  mbxDone : BitVec 4 := 0
  /-- MBX_STATUS ERR, W1C, 4 bits (R86); 0 -/
  mbxErr : BitVec 4 := 0
  /-- when each DONE and each ERR bit was last set: a clear in the same cycle leaves it (R6); none -/
  mbxDoneAt : Vector (Option Time) 4 := Vector.replicate 4 none
  mbxErrAt : Vector (Option Time) 4 := Vector.replicate 4 none
  /-- MBX_STATUS BUSY, 4 bits (R86); 0 -/
  mbxBusy : BitVec 4 := 0
  /-- mailbox request slots 0-3, bytes (R86); empty -/
  mbxReq : Vector (List Byte) 4 := Vector.replicate 4 []
  /-- mailbox reply slots 0-3, bytes (R86); empty -/
  mbxReply : Vector (List Byte) 4 := Vector.replicate 4 []
  /-- MSI-X vectors sent, newest first (R88, R542): the model's record of an output -/
  msix : List Nat := []
  /-- reassembly buffers: safety and command RX identifier (R91); closed -/
  reSafety : Reasm := {}
  reCmd : Reasm := {}
  /-- CAN FD reply queues of the safety and command TX identifiers, 8 each (R92); empty -/
  canSafetyTx : List CanTx := []
  canCmdTx : List CanTx := []
  /-- rotation over CAN FD transmit (R480, R481) and what is on the wire now -/
  canWire : CanWire := .none
  rotCan : Nat := 0
  /-- CAN FD parameters written by the PARAM_WRITE whose reply is being formed (R89); none -/
  canWrites : List (Fin 6 × Word) := []
  /-- the receive buffer of 16 frames (R28); empty -/
  canRx : List CanFrame := []
  /-- frames sent, newest first: identifier and data bytes, segment byte and padding included (R90, R543): the model's
  record of an output -/
  canOut : List (Word × List Byte) := []
  /-- CAN FD bus-off (R93, HST_LINK); 0 -/
  busOff : Bool := false
  /-- CAN FD error-passive, HST_LINK [17] (R549); 0. The spec does not say when it changes: each
  CAN FD bus activity leaves a free value in it (log 24) -/
  errPassive : Bool := false
  /-- PCIe link up, generation, width (R549 HST_LINK, R34); 0 -/
  linkUp : Bool := false
  linkGen : Nat := 0
  linkWidth : Nat := 0
  /-- when the PCIe link becomes available (R34); none -/
  linkDue : Option Time := none
deriving DecidableEq, Repr

/-! ## Events -/

/-- A latched record (R540) with its place on the routes: the routes it took at latching (R502, R538)
and whether it is still to be piggybacked (R81). -/
structure Rec where
  id : Nat
  sev : Nat
  detail : Nat
  count : Nat := 1
  time : Nat
  device : Nat
  taken : Nat
  piggy : Bool
  /-- when it was last raised: a clear in the same cycle leaves it (R6, R539) -/
  last : Option Time := none
deriving DecidableEq, Repr

/-- Event collection and routing (R535-R547). -/
structure Evt where
  /-- latched records, oldest first (R536, R541); none. EVT_LATCHED_g is read off them -/
  recs : List Rec := []
  /-- enables by group, bit i item i (EVT_ENABLE_g, R547); reset start-up record, else every defined item: bits beyond the defined ones are ignored -/
  disabled : List Nat := []
  /-- route masks that differ from the default routes of R544; none -/
  routes : List (Nat × Nat) := []
  /-- EVT_ROUTE_SEL, 0x1305, 10 bits (R547); 0 -/
  routeSel : Nat := 0
  /-- EVT_CAN_GATHER, 0x1304, ms (R547); reset flash, else 1 -/
  gather : Nat := 1
  /-- records waiting for an event frame, at most 7 (R543); none -/
  canPend : List Rec := []
  /-- when the gather time expires (R543); none -/
  gatherDue : Option Time := none
  /-- event frames queued, at most 16 (R543); none -/
  canFrames : List (List Rec) := []
  /-- MSI-X event vectors sent, newest first (R542): the model's record of an output -/
  msix : List Nat := []
  /-- MSI-X mask and pending bits of vectors 0-19 (R88); 0, DESIGN CHOICE: no command writes them (log 18) -/
  msixMask : BitVec 20 := 0
  msixPend : BitVec 20 := 0
  /-- records a worker has still to send to the manager (R457, R455); none -/
  brugo : List Rec := []
  /-- the manager's forwarded-event queue, at most 64 (R457); none -/
  fwd : List Rec := []
deriving DecidableEq, Repr

/-! ## Ingest -/

/-- One DP receiver (R120, R549). -/
structure Dp where
  locked : Bool := false
  rate : Nat := 0
  dsc : Bool := false
  w : Nat := 0
  h : Nat := 0
  /-- bits per component and colour of the stream (R101, R103) -/
  col : DpColour := { bpc := 8, ycc := false, matrix := 0, full := false, transfer := 0, prims := 0 }
  /-- width and colour of the frame in each frame buffer, none before the first (R355) -/
  bufs : Vector (Option (Nat × DpColour)) 3 := Vector.replicate 3 none
  /-- the frame buffer of the newest complete frame (R120) -/
  newest : Fin 3 := 0
  tooFast : Bool := false
  /-- the time of the last complete frame, none before the first -/
  frameAt : Option Time := none
  /-- no complete frame within ING_DP_STALE (R120) -/
  stale : Bool := false
  /-- the input was ready when last judged, for ING_DP_LOST and ING_DP_RESTORED (R546) -/
  wasReady : Bool := false
  /-- a write of the frame being received returned an error: the frame is not complete (R366); 0 -/
  bad : Bool := false
deriving DecidableEq, Repr

/-- Ingest: DP receivers, CSI-2 receivers, the mirror transmitter. -/
structure Ing where
  /-- ING_DP_STATUS_0-1 and the stream state (R549, R120); 0 -/
  dp : Vector Dp 2 := Vector.replicate 2 {}
  /-- ING_CSI_STATUS_0-1, 32 bits each (R549); 0 -/
  csi : Vector Word 2 := Vector.replicate 2 0
  /-- ING_DP_STALE, 0x0330, ms (R125); 50 -/
  dpStale : Word := 50
  /-- ING_DPTX_CONFIG, 0x0340 (R125); 0 -/
  dptxConfig : Word := 0
  /-- ING_DPTX_H, 0x0341 (R125); 0 -/
  dptxH : Word := 0
  /-- ING_DPTX_V, 0x0342 (R125); 0 -/
  dptxV : Word := 0
  /-- ING_DPTX_WIN_ORG, 0x0343, live and shadow (R125); 0 -/
  winOrg : Word := 0
  winOrgSh : Word := 0
  /-- ING_DPTX_WIN_SIZE, 0x0344, live and shadow (R125); 0 -/
  winSize : Word := 0
  winSizeSh : Word := 0
  /-- the mirror's main link is trained (R124); 0 -/
  dptxTrained : Bool := false
  /-- mirror frames sent since the mirror was enabled (R123, R180); 0 -/
  mirrorFrames : Nat := 0
  /-- the mirror frame being sent, line by line, three components a pixel (R121, R180): the model's record of an output;
  none -/
  mirrorOut : List (List Nat) := []
deriving DecidableEq, Repr

/-! ## Compositor -/

/-- The commit phase (R114). -/
inductive Phase where
  | idle | armed | barrier
deriving DecidableEq, Repr

/-- The buffer a layer shows (R118, R119): the fence and address it was taken with and its format and size. -/
structure Shown where
  fence : Nat
  addr : Nat
  format : Nat
  srcW : Nat
  srcH : Nat
deriving DecidableEq, Repr

/-- The armed snapshot (R111): the shadow set as it stood, and the flagged banks. -/
structure Snapshot where
  layers : Vector Layer 16
  canvas : Vector Word 4
  depths : Word
  dither : Word
  slotRate : Word
  bandTiming : Vector Word 4
  focus : Vector Word 4
  fRef : Vector Word 4
  winOrg : Word
  winSize : Word
  /-- flagged banks (R507): warp, gamut, Sheaf by engine, loop swaps by slot -/
  warp : BitVec 4
  gamut : BitVec 4
  sheaf : BitVec 4
  loops : BitVec 64
  /-- when it was accepted (R112) -/
  accepted : Time
  /-- the frame start at which it will apply (R112) -/
  applyFrame : Nat
  /-- a barrier's snapshot applies only when APPLY is held (R448) -/
  inBarrier : Bool
deriving DecidableEq, Repr

/-- The Compositor: layers, commit, fences. -/
structure Cmp where
  /-- live layer descriptors 0-15, 32 bytes each (R98); 0 -/
  live : Vector Layer 16 := Vector.replicate 16 0
  /-- shadow layer descriptors 0-15 (R98, R100); 0 -/
  shadow : Vector Layer 16 := Vector.replicate 16 0
  /-- CMP_CANVAS_E0-E3, 0x0410-0x0413, live and shadow (R125); 0 -/
  canvas : Vector Word 4 := Vector.replicate 4 0
  canvasSh : Vector Word 4 := Vector.replicate 4 0
  /-- SEQ of CMP_COMMIT_STATE, 16 bits (R114); 0 -/
  seq : Nat := 0
  /-- RESULT of CMP_COMMIT_STATE, 4 bits (R114); 0 -/
  result : Nat := 0
  /-- PHASE of CMP_COMMIT_STATE (R114); IDLE -/
  phase : Phase := .idle
  /-- the armed snapshot (R111); none -/
  armed : Option Snapshot := none
  /-- the record of the last rejection, 4 bytes (R110, R508); 0 -/
  rejection : List Byte := [0, 0, 0, 0]
  /-- CMP_FRAME_COUNT, 0x0402, 32 bits, wrapping (R125); 0 -/
  frameCount : Nat := 0
  /-- CMP_APPLY_FRAME, 0x0403 (R125); 0 -/
  applyFrame : Nat := 0
  /-- CMP_NOT_READY_0-15, 16 bits, saturating (R118, R125); 0 -/
  notReady : Vector Nat 16 := Vector.replicate 16 0
  /-- CMP_FENCE_0-15, 32 bits (R116); 0 -/
  fence : Vector Word 16 := Vector.replicate 16 0
  /-- time of the last write of each fence: a write in the cycle of a frame start is seen at the next (R117) -/
  fenceAt : Vector Time 16 := Vector.replicate 16 0
  /-- the fence value as it stood before that write (R117); 0 -/
  fenceOld : Vector Word 16 := Vector.replicate 16 0
  /-- CMP_RELEASE_0-15, 32 bits (R119); 0 -/
  release : Vector Word 16 := Vector.replicate 16 0
  /-- the buffer each layer shows since it was last enabled (R118); none -/
  shown : Vector (Option Shown) 16 := Vector.replicate 16 none
  /-- layers transparent in the frame being composed (R118); none -/
  transparent : BitVec 16 := 0
deriving DecidableEq, Repr

/-! ## Anvil -/

/-- A claimed owner session (R131). -/
structure Session where
  nonce : List Byte
  port : Port
deriving DecidableEq, Repr

/-- A camera's part in verification (R142, R143). -/
structure Cam where
  part : Bool := true
  lost : Bool := false
  last : Time := 0
  rotate : Nat := 0
  /-- functions that failed the last judgement (R142) -/
  failed : List Nat := []
  /-- last passing on-level of a function (R142) -/
  levels : List (Nat × Nat) := []
deriving DecidableEq, Repr

/-- What a judged slot or zone of the lit frame should have delivered (R139, R140): slot or zone number,
engine, channel, the expected energy e_exp, what the Sheaf planned for the slot (none for a zone of a scan engine), whether
it was lit, whether it bears Anvil content. Nothing is expected of a planned slot that the Forge leaves unlit (R275). -/
structure Expect where
  engine : Fin 4
  idx : Nat
  ch : Fin 24
  e : Frac
  planned : Option Frac
  lit : Bool
  bearing : Bool
deriving DecidableEq, Repr

/-- The Anvil layer, owner session and Gleaner verification. -/
structure Anv where
  /-- the set in the Anvil store, when it passed its check (R127); none -/
  set : Option AnvSet := none
  /-- function states 0-255, 2 bits each (R134); RESET_STATE of the set, else OFF -/
  states : Vector (BitVec 2) 256 := Vector.replicate 256 0
  /-- the states the Anvil image of the frame being composed uses (R136) -/
  drawn : Vector (BitVec 2) 256 := Vector.replicate 256 0
  /-- blink phase sampled at the last frame start, in 32.768 kHz counts -/
  drawnBlink : Nat := 0
  /-- states and blink phase of the image lit in the current frame, and of the one lit in the frame before: what a camera
  saw in its exposure (R13, R142) -/
  litStates : Vector (BitVec 2) 256 := Vector.replicate 256 0
  litBlink : Nat := 0
  seenStates : Vector (BitVec 2) 256 := Vector.replicate 256 0
  seenBlink : Nat := 0
  /-- a function is on in the frame being composed, in the frame lit now, in the lit frame that has ended (R141); 0 -/
  onDrawn : Bool := false
  onLit : Bool := false
  onEnded : Bool := false
  /-- the owner session (R131, R133); none -/
  session : Option Session := none
  /-- the valid NONCE and when it expires (R132); none -/
  nonce : Option (List Byte × Time) := none
  /-- consecutive refused STEP = 1 requests (R132); 0 -/
  claimFails : Nat := 0
  /-- end of the 10 s claim lockout (R132); none -/
  lockout : Option Time := none
  /-- ANV_LAST_SEQ, 0x0506, 32 bits (R151); 0 -/
  lastSeq : Nat := 0
  /-- when the owner timer, which runs from the reset and from every accepted request, runs out (R138); none -/
  ownerDue : Option Time := none
  /-- the owner is stale (R138, R454); 0 -/
  ownerStale : Bool := false
  /-- ANV_VERIFY_CONFIG, 0x0502 (R151); reset flash, else 0x1F80B320 -/
  verifyConfig : Word := 0x1F80B320
  /-- ANV_REQ_TIMEOUT, 0x0503, ms (R151); reset flash, else 100 -/
  reqTimeout : Word := 100
  /-- ANV_CAM_TIMEOUT, 0x0504, ms (R151); reset flash, else 500 -/
  camTimeout : Word := 500
  /-- ANV_ENERGY_FLOOR, 0x0505 (R151); reset flash, else 1,311 -/
  energyFloor : Word := 1311
  /-- LAST_FAIL of ANV_STATUS, 8 bits (R151); 0 -/
  lastFail : Nat := 0
  /-- FAILS_IN_LIT of ANV_STATUS, 2 bits, saturating at 3 (R151); 0 -/
  failsInLit : Nat := 0
  /-- FAIL_RUN of ANV_STATUS, 4 bits (R151); 0 -/
  failRun : Nat := 0
  /-- verification has failed and was not restored: condition 2 of R145; 0 -/
  verifyFailed : Bool := false
  /-- HOLDER of ANV_STATUS: the matrix holds the telltales (R151); 1 -/
  holderMatrix : Bool := true
  /-- REASON of ANV_STATUS, 4 bits (R151); 5 -/
  reason : Nat := 5
  /-- PROBATION of ANV_STATUS (R151); 0 -/
  probation : Bool := false
  /-- verdicts not FAIL in probation (R148); 0 -/
  probCount : Nat := 0
  /-- probation waits for the return condition's event: the request, RESTORE or drawn image has come (R145); 0 -/
  zonesEmpty : Bool := true
  /-- frames since the Anvil image was last drawn (R146); 0 -/
  imageAge : Nat := 0
  /-- condition 4 of R145 holds; 0 -/
  imageStale : Bool := false
  /-- glyphs whose store copy is uncorrectable, being reloaded (R128); none -/
  badGlyphs : List Nat := []
  /-- cameras 0-1 (R142, R143) -/
  cams : Vector Cam 2 := Vector.replicate 2 {}
  /-- the last verdict: 0 NONE, 1 PASS, 2 FAIL, 3 none yet (R511); 3 -/
  verdict : Nat := 3
  /-- frame count of the last verdict (R511); 0 -/
  verdictFrame : Nat := 0
  /-- expected energies of the frame now lit, and of the lit frame that has ended (R139, R141); none -/
  expect : List Expect := []
  expectEnded : List Expect := []
deriving DecidableEq, Repr

/-! ## Colour and warp -/

/-- A channel estimate (R158, R159). -/
structure Est where
  valid : Bool := false
  sensor : Bool := false
  lambda : Nat := 0
  output : Nat := 0
  /-- last update; when the sensor last contributed; end of the 1 s hold; valid once since reset; nominal in use after a loss -/
  at' : Time := 0
  sensorAt : Time := 0
  holdDue : Option Time := none
  ever : Bool := false
  lost : Bool := false
deriving DecidableEq, Repr

/-- The warp of one engine: two mesh directories (R169). -/
structure Warp where
  dirs : Vector (Vector MeshSlot 12) 2 := Vector.replicate 2 (Vector.replicate 12 {})
  live : Fin 2 := 0
  /-- a commit has made the bank live and no BEGIN has been served since (R172) -/
  needBegin : Bool := false
  /-- live slots that fell back to the identity warp (R170) -/
  identity : List Nat := []
deriving DecidableEq, Repr

/-- Colour and warp. -/
structure Clw where
  /-- CLW_EST_0-23 (R158); 0 -/
  est : Vector Est 24 := Vector.replicate 24 {}
  /-- the snapshot of the last frame start: lambda and OUTPUT of each channel, none for nominal values (R159); none -/
  snap : Vector (Option (Nat × Nat)) 24 := Vector.replicate 24 none
  /-- CLW_CH_UNAVAIL, 24 bits (R160, R182); 0 -/
  unavail : BitVec 24 := 0
  /-- gamut banks 0 and 1 of each engine, none when never loaded (R163) -/
  gamut : Vector (Vector (Option GamutBank) 2) 4 := Vector.replicate 4 (Vector.replicate 2 none)
  /-- live gamut bank of each engine, CLW_BANKS (R182); 0 -/
  gamutLive : Vector (Fin 2) 4 := Vector.replicate 4 0
  /-- warp directories of each engine (R169) -/
  warp : Vector Warp 4 := Vector.replicate 4 {}
  /-- mesh store: entries that differ from the reset entry, by index 0-32,767 (R165, R171); none -/
  mesh : List (Nat × MeshEntry) := []
  /-- CLW_DEPTHS, 0x0610, live and shadow (R182); 0 -/
  depths : Word := 0
  depthsSh : Word := 0
  /-- CLW_DITHER, 0x0612, live and shadow (R182); 0xAA -/
  dither : Word := 0xAA
  ditherSh : Word := 0xAA
  /-- CLW_DPTX_DITHER, 0x0613 (R182); 0x01 -/
  dptxDither : Word := 1
  /-- the solve of each engine in this composition (R154): the 9 entries of y_white x inverse(Q) x K row by
  row, the 6 split coefficients, the luminance row of K; empty before the first -/
  matrix : Vector (List Rat) 4 := Vector.replicate 4 []
  /-- Y_max,nom of the live gamut bank, computed once at its validation (R156); 0 before the first commit of a bank -/
  yNom : Vector Rat 4 := Vector.replicate 4 0
  /-- the trial solve of the bank that the armed commit names: its matrix record and Y_max,nom (R162); none -/
  trial : Vector (Option (List Rat × Rat)) 4 := Vector.replicate 4 none
  /-- the live bank's matrix is still that of its trial solve (R162); 0 -/
  trialLive : BitVec 4 := 0
  /-- channels unavailable at the last frame start for a cause that is not the bank's: faulted, disabled or without a channel
  frame (R160) -/
  down : BitVec 24 := 0
  /-- pairs of each engine with both channels unavailable (R161); none -/
  pairLost : Vector (BitVec 3) 4 := Vector.replicate 4 0
  /-- matrix hold of each engine: since when (R162); none -/
  holdSince : Vector (Option Time) 4 := Vector.replicate 4 none
  /-- white luminance is reduced (R156); 0 -/
  headroom : BitVec 4 := 0
  /-- last valid colour-sensor reading of each engine (R183) and whether it is lost -/
  sensorAt : Vector Time 4 := Vector.replicate 4 0
  sensorLost : BitVec 4 := 0
deriving DecidableEq, Repr

/-! ## Thresher -/

/-- A Sheaf entry (R192) taken apart. -/
structure SheafEntry where
  weight : Nat := 0
  plane : Nat := 0
  bit : Nat := 0
  primary : Nat := 0
  depth : Nat := 0
  dark : Bool := false
  piece : Nat := 0
  pieces : Nat := 0
deriving DecidableEq, Repr

/-- A compiled Sheaf: its entries, the planes of each channel frame (24 counts, 6 j + k), the plane map,
the last stage used, unique planes and F (R192-R201). -/
structure Sheaf where
  entries : List SheafEntry := []
  bits : List Nat := List.replicate 24 0
  /-- plane index of (slice, primary, bit): R200, R202 -/
  planes : List (Nat × Nat × Nat × Nat) := []
  stage : Nat := 0
  unique : Nat := 0
  f : Frac := ⟨0, 1⟩
deriving DecidableEq, Repr

/-- A Sheaf bank: request and compiled result (R191). -/
structure SheafBank where
  /-- SHEAF_LOAD has written the bank (R212); 0 -/
  loaded : Bool := false
  /-- the request's 32 bytes: BITS 0, FLOOR 4, MAX_SPLIT 16, GAP 1 -/
  req : SheafReq := List.replicate 24 0 ++ [4, 16, 1, 0, 0, 0, 0, 0]
  sheaf : Sheaf := {}
deriving DecidableEq, Repr

/-- A change of budget on its way (R202, R203): from which frame starts the write side and the read side
use it, the new Sheaf and the new S, U and slot rate; whether a commit brings it. -/
structure BudgetStep where
  writeAt : Nat
  readAt : Nat
  sheaf : Sheaf
  s : Nat
  u : Nat
  rate : Nat
  fresh : Bool
deriving DecidableEq, Repr

/-- One engine of the Thresher. -/
structure ThrEng where
  /-- Sheaf banks 0 and 1 (R191); never loaded -/
  banks : Vector SheafBank 2 := Vector.replicate 2 {}
  /-- live bank, THR_BUDGET bit 31 (R213); 0 -/
  live : Fin 2 := 0
  /-- the working Sheaf on the write side: planes of the frame being composed (R193, R202) -/
  write : Sheaf := {}
  /-- the Sheaf lit now: read order and weights (R202) -/
  read : Sheaf := {}
  /-- the Sheaf that will light the frame being composed, fixed at this frame start (R274) -/
  next : Sheaf := {}
  /-- budget changes and commits on their way (R202, R203, R112) -/
  steps : List BudgetStep := []
  /-- a recompile is running for this budget: S, U, rate, whether it rose (R202) -/
  recompiling : Option (Nat × Nat × Nat × Bool) := none
  /-- S in force, 9 bits (R213 THR_BUDGET); 0 -/
  s : Nat := 0
  /-- U in force, 8 bits (R213 THR_BUDGET); 0 -/
  u : Nat := 0
  /-- the slot of the frame being lit, 0 to S (R205) -/
  slot : Nat := 0
  /-- THR_BITS_En_0-3 (R213); 0 -/
  bits : Vector Word 4 := Vector.replicate 4 0
  /-- THR_BAND_TIMING_En, live and shadow (R213); 0x2004 -/
  timing : Word := 0x2004
  timingSh : Word := 0x2004
  /-- THR_FOCUS_En, live and shadow (R213); 0x20 + n -/
  focus : Word
  focusSh : Word
  /-- THR_FOCUS_DARK_En, 16 bits, saturating (R213); 0 -/
  focusDark : Nat := 0
  /-- THR_BAND_DARK_En, 16 bits, saturating (R213); 0 -/
  bandDark : Nat := 0
  /-- the focus loop's target slice (R209); 0 -/
  target : Nat := 0
  /-- halves of the corner-turn buffer completed in this frame (R186); 0 -/
  halves : Nat := 0
  /-- (plane, band) with a granule of this frame that was not written after an error response (R366); none -/
  writeBad : List (Nat × Nat) := []
  /-- set bits and Anvil-bearing mark of each plane being written (R188): plane, bits, mark -/
  counts : List (Nat × Nat × Bool) := []
  countsLit : List (Nat × Nat × Bool) := []
  /-- (plane, band) not completely written at the frame start, dark in the lit frame (R187); none -/
  lateBands : List (Nat × Nat) := []
  /-- slot epochs of this frame so far, and the time of the last (R205); 0 -/
  epochs : Nat := 0
  epochAt : Time := 0
  /-- bands dark in the current slot, in the slot being loaded and in the one after it (R187, R207, R208, R219); none -/
  darkBands : List Nat := []
  nextDark : List Nat := []
  thenDark : List Nat := []
  /-- the plane reader's FIFO: bands of the slot being loaded that are fetched and not yet sent (R190); empty -/
  fifo : List (Nat × List Byte) := []
  /-- slots of the next frame with a band known to be dark: they deliver nothing (R141, R208); none -/
  errNext : List Nat := []
  /-- THR_FOCUS_DARK already latched in this frame (R210); 0 -/
  focusRaised : Bool := false
  /-- the slot's light window is open and lit (R210); 0 -/
  lit : Bool := false
deriving DecidableEq, Repr

/-- The Thresher. -/
structure Thr where
  /-- THR_SLOT_RATE, 0x0701, live and shadow (R213); 24,000 -/
  slotRate : Word := 24000
  slotRateSh : Word := 24000
  /-- slot rate in force, THR_RATE_EFF [14:0] (R213); 24,000 -/
  rate : Nat := 24000
  /-- CAP of THR_RATE_EFF (R23, R213); 0 -/
  cap : Bool := false
  /-- rate reduced by the grant, THR_RATE_EFF bit 30 (R24, R213); 0 -/
  grantLow : Bool := false
  /-- REF of THR_RATE_EFF (R343, R213); 0 -/
  refLow : Bool := false
  /-- THR_SHEAF_SEL, 0x0740 (R213); 0 -/
  sel : Word := 0
  /-- the four engines (R184) -/
  eng : Vector ThrEng 4 :=
    ⟨#[{ focus := 0x20, focusSh := 0x20 }, { focus := 0x21, focusSh := 0x21 },
      { focus := 0x22, focusSh := 0x22 }, { focus := 0x23, focusSh := 0x23 }], rfl⟩
deriving DecidableEq, Repr

/-! ## Swath -/

/-- Link states (R240). -/
inductive Link where
  | off | training | ready | active | down | failed
deriving DecidableEq, Repr

/-- What the lanes carry, in order, as the model records the output (R217-R221, R229, R232): the commands of R219, a band
with its bytes and the number of its flits that went out, rounds of ALIGN from a counter value on, rounds of ALIGN and
idle-blank flits in turn (bring-up), and IDLE flits. -/
inductive SwtCmd where
  | planeBegin (slot : Nat) (parity zero : Bool)
  | band (k : Nat) (data : List Byte) (flits : Nat)
  | bandBlank (slot band : Nat)
  | align (counter rounds : Nat)
  | train (counter rounds : Nat)
  | probe (number : Nat)
  | arrayCfg (w h lanes rate : Nat)
  | idle (blank : Bool) (flits : Nat)
deriving DecidableEq, Repr

/-- One engine's Swath link. -/
structure SwtEng where
  /-- STATE of SWT_LINK_STATE (R240); OFF -/
  link : Link := .off
  /-- TAPS_DEFAULT of SWT_LINK_STATE (R240); 0 -/
  tapsDefault : Bool := false
  /-- SWT_CONFIG_En (R240); reset 0xC0001002 -/
  config : Word := 0xC0001002
  /-- SWT_LATENCY_En, ns (R240); 0 -/
  latency : Nat := 0
  /-- SWT_ARRAY_TEMP_En (R240); 0 -/
  arrayTemp : Word := 0
  /-- SWT_BAND_ERR_En, 16 bits, saturating (R240); 0 -/
  bandErr : Nat := 0
  /-- SWT_UNCORR_En, 32 bits, saturating (R240); 0 -/
  uncorr : Nat := 0
  /-- SWT_LANE_CORR_n_m, and the sum of the running second (R238, R240); 0 -/
  laneCorr : Vector Nat 8 := Vector.replicate 8 0
  laneAcc : Vector Nat 8 := Vector.replicate 8 0
  /-- lanes whose SWT_FEC_DEGRADED was raised (R238); none -/
  fecRaised : BitVec 8 := 0
  /-- uncorrectable codewords of this frame (R234); 0 -/
  uncorrFrame : Nat := 0
  /-- return-lane block lock (R230); 0 -/
  blockLock : Bool := false
  /-- slot epochs without a valid status frame (R234); 0 -/
  missing : Nat := 0
  /-- bring-up step reached, 1-7 (R232); 0 -/
  step : Nat := 0
  /-- failed bring-up attempts (R233); 0 -/
  attempts : Nat := 0
  /-- times of the automatic restarts in the last 10 s (R235); none -/
  restarts : List Time := []
  /-- ARRAY_ID of the last status frame, 8 bytes (R230); none -/
  arrayId : List Byte := []
  /-- SWT_BAND_CRC, SWT_SLACK_LOW raised in this frame (R231, R238); 0 -/
  bandRaised : Bool := false
  slackRaised : Bool := false
  /-- SKEW of the last status frame (R230), lane UI values; the measure of Temper quantity 1 -/
  skew : List Int := []
  /-- CORR of the last 16 status frames, newest first (R230): the measure of Temper quantity 0; none -/
  corr : List (List Nat) := []
  /-- lanes with an uncorrectable codeword in the last status frame (R230, R405); none -/
  laneUnc : BitVec 8 := 0
  /-- lanes with codeword lock and deskew in the last status frame of the bring-up (R233); none -/
  laneOk : BitVec 8 := 0
  /-- corrected codewords of each lane since the soak began (R232); 0 -/
  soak : Vector Nat 8 := Vector.replicate 8 0
  /-- what the lanes carry in the current slot, and what they carried in the one before (R217-R223): the model's record
  of an output; none -/
  sent : List SwtCmd := []
  sentWas : List SwtCmd := []
  /-- flits sent before those of `sentWas` since the lanes started: lane and FSEQ follow from it (R217); 0 -/
  flits : Nat := 0
  /-- when the first flit of `sent` left: 0.5 us after the slot epoch less L_fwd (R221, R228); 0 -/
  sentAt : Time := 0
  /-- the align counter and the probe number (R219); 0 -/
  aligns : Nat := 0
  probes : Nat := 0
  /-- the last band-sync pulse: its rising edge and its length in taps (R226): the model's record of an output; none while
  the output is powered down (R14) -/
  sync : Option (Time × Nat) := none
deriving DecidableEq, Repr

/-! ## Scan -/

/-- Scanner states (R264). -/
inductive ScanSt where
  | off | excite | inWindow | active | stopped | failed
deriving DecidableEq, Repr

/-- One column of one channel of a row that is drawn (R247, R255, R277): the DAC update with its code, and the edges of
the gate, none where it stays inactive; times in taps. -/
structure Col where
  dacAt : Int
  code : Nat
  gate : Option (Int × Int)
deriving DecidableEq, Repr

/-- A row that is drawn (R247, R249): the accepted edge its times count from, how many periods `per` that edge lies
behind the row's own, still predicted one, whether the row stays dark (R256), and what each channel drives, in the order
of time. -/
structure Line where
  row : Nat
  edge : Time
  ahead : Nat
  per : Frac
  dark : Bool := false
  cols : Vector (List Col) 6 := Vector.replicate 6 []
deriving DecidableEq, Repr

/-- One engine's Scan block. -/
structure ScnEng where
  /-- STATE of SCN_STATE (R264); OFF -/
  st : ScanSt := .off
  /-- TABLE_BANK of SCN_STATE (R264); 0 -/
  bank : Fin 2 := 0
  /-- the two velocity-compensation banks (R250); empty -/
  vct : Vector (List VctEntry) 2 := Vector.replicate 2 []
  /-- entries of the table being written (R515); none -/
  part : Option (List VctEntry) := none
  /-- a completed table waits to become live: when it was completed (R251); none -/
  vctDone : Option Time := none
  /-- SCN_CONFIG_En (R264); reset 0xC0100006 -/
  config : Word := 0xC0100006
  /-- SCN_HRANGE_En (R264); reset flash, else 0 -/
  hrange : Word := 0
  /-- SCN_VERT_En (R264); reset flash, else 0x09C40064 -/
  vert : Word := 0x09C40064
  /-- SCN_CENTRE_En, as written and in effect from the last frame start (R254, R264); reset flash, else 0 -/
  centre : Word := 0
  centreLive : Word := 0
  /-- SCN_BIDIR_En, as written and in effect (R254, R264); reset flash, else 0 -/
  bidir : Word := 0
  bidirLive : Word := 0
  /-- SCN_CH_DELAY of the engine's six channels, as written and in effect (R254, R264); reset flash, else 0 -/
  chDelay : Vector Word 6 := Vector.replicate 6 0
  chDelayLive : Vector Word 6 := Vector.replicate 6 0
  /-- SCN_UNDERRUN_En, 16 bits, saturating (R264); 0 -/
  underrun : Nat := 0
  /-- SCN_STOPS_En, 16 bits, saturating (R264); 0 -/
  stops : Nat := 0
  /-- excitation runs, and since when (R244); 0 -/
  excited : Bool := false
  excitedAt : Time := 0
  /-- last accepted edge or its stand-in (R245); none -/
  edge : Option Time := none
  /-- the accepted edge, or its stand-in, before `edge` (R247); none -/
  edgeWas : Option Time := none
  /-- the last accepted edge, as R260 condition 2 counts from it -/
  accepted : Option Time := none
  /-- the last 16 accepted intervals, newest first (R245); none -/
  intervals : List Nat := []
  /-- T-hat, the mean of the last 16 accepted intervals, in taps (R245, R246); none before it is formed -/
  period : Option Frac := none
  /-- predicted edges missed in a row (R260); 0 -/
  missed : Nat := 0
  /-- spurious edges of this frame and whether SCN_EDGE_SPURIOUS was raised in it (R245); 0 -/
  spurious : Nat := 0
  spuriousRaised : Bool := false
  /-- periods in a row with the frequency outside [F_MIN, F_MAX] (R260 condition 4); 0 -/
  freqBad : Nat := 0
  /-- periods in a row that meet IN_WINDOW's conditions (R259); 0 -/
  winRun : Nat := 0
  /-- last amplitude code, and low samples in a row (R260 condition 1); 0 -/
  amp : Nat := 0
  ampLow : Nat := 0
  /-- times of the automatic relights in the last 60 s (R262); none -/
  relights : List Time := []
  /-- times of the stops in the last 60 s (R262, R265); none -/
  stopTimes : List Time := []
  /-- the engine stopped and has not relit since (R262); 0 -/
  stoppedOnce : Bool := false
  /-- a write of RESTART or a STATE_REQUEST into LIT started it again: the relight is not automatic (R262); 0 -/
  asked : Bool := false
  /-- row being drawn, and rows drawn of this frame (R249, R256) -/
  row : Nat := 0
  drawing : Bool := false
  /-- start of row 0's half-period (R252); 0 -/
  t0 : Time := 0
  /-- start of the last row's half-period (R249); 0 -/
  rowAt : Time := 0
  /-- the row that is drawn, with its pixel edges (R247, R248, R255): the model's record of an output; none outside a
  drawn row -/
  line : Option Line := none
  /-- the line FIFO: rows and their bytes in the order they are drawn (R256); empty -/
  fifo : List (Nat × List Byte) := []
  /-- the last flyback: when it began and the set-point it began from (R252); none -/
  fly : Option (Time × Int) := none
  /-- the vertical position has been more than 8 rows from its set-point since then (R260 condition 5); none -/
  devSince : Option Time := none
  /-- vertical set-point y_rows in 1/65,536 row (R252); -0.5 rows -/
  yRows : Int := -32768
  /-- SCN_UNDERRUN, SCN_START_SLOW raised (R256, R48); 0 -/
  underRaised : Bool := false
  slowRaised : Bool := false
  /-- the next interval spans a Temper threshold move and does not count (R261); 0 -/
  skip : Bool := false
  /-- edges ignored in this frame, the precondition of Temper quantity 5 (R405) -/
  ignored : Nat := 0
deriving DecidableEq, Repr

/-! ## Forge -/

/-- A light ramp (R270): start value, end value, length, frames done. -/
structure Ramp where
  e0 : Nat
  e1 : Nat
  n : Nat
  j : Nat
deriving DecidableEq, Repr

/-- A channel's drive now (R272, R255): DAC code, pulse length in taps, its start after the slot epoch. -/
structure Pulse where
  code : Nat := 0
  len : Nat := 0
  start : Int := 0
deriving DecidableEq, Repr

/-- One laser channel (R266-R281). -/
structure Chan where
  /-- FRG_CH_CFG_n (R294); reset flash, else 0 -/
  cfg : Word := 0
  /-- FULL_k, FRG_CH_STATUS [31:16] (R294); 0 -/
  full : Nat := 0
  /-- DERATE, FRG_CH_STATUS [15:8] (R294); 0xFF -/
  derate : Nat := 255
  /-- cap_k (R279); 0 until the first recomputation (CLAMP is 0) -/
  cap : Nat := 0
  /-- PD_FAULT (R287, R294); 0 -/
  pdFault : Bool := false
  /-- CAPPED (R294); 0 -/
  capped : Bool := false
  /-- LIT: lit in the last frame, and in the running one (R294); 0 -/
  lit : Bool := false
  litNow : Bool := false
  /-- the derating curve in force: (temperature + 55 degrees C, D) for 8 points (R279, R294) -/
  curve : Vector (Nat × Nat) 8 := tab 8 (fun p => (65 + 10 * p.val, 255))
  /-- the staging copy (R281) -/
  staged : Vector (Nat × Nat) 8 := tab 8 (fun p => (65 + 10 * p.val, 255))
  /-- the checked curve that waits for the next 10 ms recomputation (R281); none -/
  curveNext : Option (Vector (Nat × Nat) 8) := none
  /-- the drive (R272, R255); dark -/
  pulse : Pulse := {}
deriving DecidableEq, Repr

/-- One engine of the Forge. -/
structure FrgEng where
  /-- the engine is lit (R48); 0 -/
  lit : Bool := false
  /-- light fraction of the frame lit now, of the frame being composed, and of the frame before (R271, R283) -/
  x : Frac := ⟨0, 1⟩
  xNext : Frac := ⟨0, 1⟩
  xPrev : Frac := ⟨0, 1⟩
  /-- REGION, 0 A, 1 B, 2 C (R294); 0 -/
  region : Nat := 0
  /-- MERGE (R294), of the lit and of the composed frame; 0 -/
  merge : Bool := false
  mergeNext : Bool := false
  /-- planes dropped from each channel frame (R273), of the lit and of the composed frame; none -/
  drops : List Nat := List.replicate 24 0
  dropsNext : List Nat := List.replicate 24 0
  /-- planes of each channel frame of the Sheaf that the drops were fixed against (R274); none -/
  dropsOf : List Nat := List.replicate 24 0
  dropsOfNext : List Nat := List.replicate 24 0
  /-- HEADROOM (R271, R294); 0 -/
  headroom : Bool := false
  /-- the emission limit in force since the last frame start, as FRG_EMIT_LIMIT_En (R282, R470); 0 -/
  limit : Nat := 0
  /-- EMIT_LIMITING (R283, R294); 0 -/
  emitLimiting : Bool := false
  /-- CAUSE: active dark causes, 7 bits (R285, R294); 0 -/
  cause : BitVec 7 := 0
  /-- time of the emission trip (R284); none -/
  tripAt : Option Time := none
  /-- FRG_F_REF_En, live and shadow (R294); 0 -/
  fRef : Word := 0
  fRefSh : Word := 0
  /-- the last 1,000 sums of the engine's power samples, newest first (R282); none -/
  sums : List Nat := []
  /-- the largest 1 ms average (times 1,000) of this frame period (R283); 0 -/
  peakAvg : Nat := 0
deriving DecidableEq, Repr

/-- The Forge. -/
structure Frg where
  /-- the 24 channels (R15) -/
  ch : Vector Chan 24 := Vector.replicate 24 {}
  /-- the four engines -/
  eng : Vector FrgEng 4 := Vector.replicate 4 {}
  /-- FRG_LIGHT_LEVEL, 0x0A08, E_req (R270, R294); 16,777,216 -/
  level : Nat := 16777216
  /-- FRG_LIGHT_RAMP, 0x0A09, e_ramp of the current frame (R294); 0 -/
  eRamp : Nat := 0
  /-- the running ramp (R270); none. DESIGN CHOICE: at the first frame start e_ramp takes FRG_LIGHT_LEVEL (log 15) -/
  ramp : Option Ramp := none
  /-- a LIGHT_LEVEL that starts its ramp at the next frame start: target and length (R270) -/
  rampNext : Option (Nat × Nat) := some (16777216, 0)
  /-- FRG_ANALOG_FLOOR, 0x0A0A (R294); reset flash, else 0x40 -/
  floor : Word := 0x40
  /-- FRG_DERATE_SEL, 0x0A60 (R294); 0 -/
  derateSel : Word := 0
deriving DecidableEq, Repr

/-! ## Backup matrix -/

/-- The backup LED matrix (R288-R293). -/
structure Mtx where
  /-- HTH_MTX_LEVEL, 0x0120 (R295); reset flash, else 0xFFFF -/
  level : Word := 0xFFFF
  /-- lamp functions 0-47 (R290); reset flash, else empty -/
  lamps : Vector LampFn 48 := Vector.replicate 48 {}
  /-- lamp functions as stored in the boot flash, for the FIELD check of R517 -/
  stored : Vector LampFn 48 := Vector.replicate 48 {}
  /-- HTH_LAMP_OFF: functions switched off under R293, 48 bits (R295); 0 -/
  lampOff : BitVec 48 := 0
  /-- HTH_LED_FAULT_0-11: shorted and open columns of each row (R295); 0 -/
  shorted : Vector (BitVec 16) 12 := Vector.replicate 12 0
  opened : Vector (BitVec 16) 12 := Vector.replicate 12 0
  /-- first of two like diagnoses: LEDs 16 r + c seen short, seen open once (R291); none -/
  shortOnce : List Nat := []
  openOnce : List Nat := []
  /-- matrix frames since the Hearth powered the matrix (R292); 0 -/
  frame : Nat := 0
  /-- matrix frame in which each LED was last diagnosed (R292): (LED, frame) -/
  diagnosed : List (Nat × Nat) := []
  /-- function states fixed for this matrix frame (R288, R150): 0 dark, 1 lit -/
  on : BitVec 48 := 0
  /-- columns limited to 20 mA (R562); none -/
  limited : BitVec 16 := 0
  /-- LEDs lit in the current row slot: column, sink code, on-time in 125 ns steps (R289) -/
  row : List (Nat × Nat × Nat) := []
  /-- LEDs the diagnostic slot of this frame pulses, 16 r + c, with the sink code of the pulse (R292) -/
  diag : List (Nat × Nat) := []
deriving DecidableEq, Repr

/-! ## Servo Engine -/

/-- Loop modes (R314). -/
inductive LoopMode where
  | off | manual | auto | hold
deriving DecidableEq, Repr

/-- A sample as taken at its tick (R305): measurement, whether it has data (R304), r_cmd. -/
structure Sample where
  y : Int
  data : Bool
  rcmd : Int
  /-- the measurement or the commanded set-point saturated (R298, R299) -/
  sat : Bool := false
deriving DecidableEq, Repr

/-- One loop slot (R297-R326). Signals are S7.24, coefficients S3.28, both as raw integers. -/
structure Loop where
  /-- configuration of R308, 64 bits; reset flash, else the default table (R297) -/
  cfg : BitVec 64
  /-- coefficient banks 0 and 1, none when empty (R310) -/
  banks : Vector (Option Bank) 2 := Vector.replicate 2 none
  /-- BANK: the live bank (R328); 0 -/
  live : Fin 2 := 0
  /-- MODE (R314, R328); OFF -/
  mode : LoopMode := .off
  /-- the mode held while the engine is stopped or the loop is in HOLD by supervision (R317, R326) -/
  held : LoopMode := .off
  /-- SRV_SP_Sn (R328); reset flash, else 0 -/
  sp : Word := 0
  /-- r_cmd, r, y, y_prev, e, p, i, d, u, u_out, the model (R302, R325) -/
  rcmd : Int := 0
  r : Int := 0
  y : Int := 0
  yPrev : Int := 0
  e : Int := 0
  p : Int := 0
  i : Int := 0
  d : Int := 0
  u : Int := 0
  uOut : Int := 0
  model : Int := 0
  /-- MAN: the manual value (R314) -/
  man : Int := 0
  /-- samples taken at their ticks that wait for their deadlines, oldest first (R305); none -/
  samples : List Sample := []
  /-- AUTO or MANUAL was entered and the first sample with data is still to come (R315, R325) -/
  entering : Bool := false
  /-- a bank swap waits for the next sample boundary, from this frame on (R312, R112) -/
  swapAt : Option Nat := none
  /-- status flags of SRV_LOOP_Sn (R328); 0 -/
  inWindow : Bool := false
  nodata : Bool := false
  miss : Bool := false
  satArith : Bool := false
  satI : Bool := false
  satOut : Bool := false
  bump : Bool := false
  fe : Bool := false
  plaus : Bool := false
  gLimit : Bool := false
  /-- the flags of SRV_LOOP_Sn [7:0] that hardware set in its latest cycle that set one, and that cycle (R6); none -/
  flagAt : Option Time := none
  flagNow : BitVec 8 := 0
  /-- SRV_MISS_Sn, 16 bits, saturating (R328); 0 -/
  missed : Nat := 0
  /-- runs: missed samples, following error, plausibility violations, samples inside IN_WIN (R307, R324, R325, R320) -/
  missRun : Nat := 0
  feRun : Nat := 0
  plausRun : Nat := 0
  winRun : Nat := 0
deriving DecidableEq, Repr

/-- A trace buffer (R327). -/
structure Trace where
  /-- 0 idle, 1 armed, 2 triggered, 3 frozen (R328 SRV_TRACE_STATE); 0 -/
  st : Nat := 0
  slot : Fin 64 := 0
  node : Nat := 0
  dec : Nat := 1
  trigger : Nat := 0
  pre : Nat := 0
  event : Nat := 0
  level : Int := 0
  /-- samples, newest first; the tick of the first; the index of the trigger sample; samples since the last one kept -/
  samples : List Int := []
  tick : Nat := 0
  trigAt : Nat := 0
  skip : Nat := 0
  prevVal : Option Int := none
  /-- the trigger event was latched when last looked at -/
  wasLatched : Bool := false
deriving DecidableEq, Repr

/-- The type, engine, source, destination, divider of the default loop table (R297), as a configuration
of R308. -/
def defaultLoop (n : Nat) : BitVec 64 :=
  let mk (ty en sk si dk di dv : Nat) : BitVec 64 :=
    BitVec.ofNat 64 (ty * 2 ^ 60 + en * 2 ^ 58 + sk * 2 ^ 54 + si * 2 ^ 48 + dk * 2 ^ 44 + di * 2 ^ 38
      + (dv - 1) * 2 ^ 22)
  if n < 24 then mk 1 (n / 6) 2 n 2 n 100
  else if n < 28 then mk 2 (n - 24) 5 (n - 24) 4 (n - 24) 10
  else if n < 32 then mk 3 (n - 28) 1 (n - 24) 1 (n - 24) 1
  else if n < 36 then mk 4 (n - 32) 1 (n - 24) 1 (n - 24) 1
  else if n < 40 then mk 5 (n - 36) 1 (n - 24) 1 (n - 24) 1000
  else if n < 44 then mk 6 (n - 40) 0 0 0 0 10000
  else 0

/-- The Servo Engine. -/
structure Srv where
  /-- the 64 loop slots (R297) -/
  loops : Vector Loop 64 := tab 64 (fun n => { cfg := defaultLoop n.val })
  /-- the engine runs (R317); 0 -/
  running : Bool := false
  /-- ticks of the 1 MHz base tick since the fast domains powered on (R305); 0 -/
  tick : Nat := 0
  /-- TRIPPED of SRV_TRIP with the time of each engine's trip (R326); none -/
  trip : Vector (Option Time) 4 := Vector.replicate 4 none
  /-- eight trace buffers (R327); idle -/
  traces : Vector Trace 8 := Vector.replicate 8 {}
  /-- pick-off corrections g_0-g_2 of each engine, S3.28 (R322, R323); 1.0 -/
  g : Vector (Vector Int 3) 4 := Vector.replicate 4 (Vector.replicate 3 (2 ^ 28))
  /-- when a reading last updated each pair's g (R323); 0 -/
  gAt : Vector (Vector (Option Time) 3) 4 := Vector.replicate 4 (Vector.replicate 3 none)
  /-- the colour-sensor reading not yet used by a COLOUR sample: sensor R, G, B and pair energies (R322) -/
  reading : Vector (Option (List Int × List Int)) 4 := Vector.replicate 4 none
  /-- DAC outputs 0-15, codes (R300); 0 -/
  dac : Vector Nat 16 := Vector.replicate 16 0
  /-- excitation magnitude of each engine, S7.24 (R300); 0 -/
  excite : Vector Int 4 := Vector.replicate 4 0
deriving DecidableEq, Repr

/-! ## Tongs and Bellows -/

/-- Aligner states: INTERNAL only for the frame aligner (R350). -/
inductive AlSt where
  | internal | acquiring | locked | coasting | slewing | returning
deriving DecidableEq, Repr

/-- One aligner (R334-R341). -/
structure AlignerSt where
  st : AlSt := .acquiring
  /-- periods with an accepted edge in a row (R335, R339) -/
  run : Nat := 0
  /-- last accepted edge -/
  edge : Option Time := none
  /-- last edge of any kind and edges in a row that fit a return (R339) -/
  lastAny : Option Time := none
  fit : Nat := 0
  /-- when the reference was lost (R337) -/
  lostAt : Option Time := none
  /-- HOLDOVER_LONG (R338) -/
  long : Bool := false
  /-- phase still to slew, taps (R340) -/
  slew : Int := 0
  /-- a step waits for the next frame start: delta (R341) -/
  step : Option Int := none
  /-- TNG_REF_SPURIOUS raised in this frame (R334) -/
  spuriousRaised : Bool := false
deriving DecidableEq, Repr

/-- One multiplying PLL (R346-R348). -/
structure Pll where
  /-- LOCKED (R350); 0 -/
  locked : Bool := false
  /-- BYPASS (R350); 1 -/
  bypass : Bool := true
  /-- ATTEMPTS (R348, R350); 0 -/
  attempts : Nat := 0
  /-- when it last relocked (R348); none -/
  relockAt : Option Time := none
  /-- it lost lock and has not relocked since (R45, R347); 0 -/
  lost : Bool := false
  /-- it relocked and leaves bypass at the next frame start (R348); 0 -/
  leaving : Bool := false
  /-- switched off by a power state or a quench (R45, R392); 1 -/
  off : Bool := true
  /-- its partition failed the start-up logic BIST: no attempt before the next reset (R428); 0 -/
  lbist : Bool := false
deriving DecidableEq, Repr

/-- A Bellows ramp (R344): rates in mHz, profile, length, ramp frames begun, when accepted. -/
structure Bellows where
  f1 : Nat
  f2 : Nat
  profile : Nat
  n : Nat
  j : Nat
  accepted : Time
  /-- a barrier's ramp begins at this manager frame (R446) -/
  applyAt : Option Nat
deriving DecidableEq, Repr

/-- The Tongs and the Bellows. -/
structure Tng where
  /-- clock aligner, CLK_STATE (R350); ACQUIRING -/
  clk : AlignerSt := {}
  /-- frame aligner, FRAME_STATE (R350); INTERNAL -/
  frm : AlignerSt := { st := .internal }
  /-- TNG_CONFIG, 0x0C02 (R350); reset flash, else 0x04000000 -/
  config : Word := 0x04000000
  /-- TNG_PHASE_ERR, 0x0C03, taps (R350); 0 -/
  phaseErr : Int := 0
  /-- TNG_FRAME_PERIOD, 0x0C04, taps (R350); 0 -/
  framePeriod : Nat := 0
  /-- start of the current frame (R331); 0 -/
  frameAt : Time := 0
  /-- the last rise of FRAME_SYNC_OUT (R333); none -/
  syncOut : Option Time := none
  /-- CORE, MEM, SERDES, HOST (R346) -/
  pll : Vector Pll 4 := Vector.replicate 4 {}
  /-- the frame rate in force, mHz (R12, R515: 60 Hz after a reset without start-up record) -/
  rate : Nat := 60000
  /-- the Bellows ramp set or running (R344, TNG_BELLOWS); none -/
  bellows : Option Bellows := none
  /-- REFCLK present (R349); 1 -/
  refclk : Bool := true
deriving DecidableEq, Repr

/-! ## Granary -/

/-- Urgency of a real-time port (R359). -/
inductive Urg where
  | normal | urgent | panic
deriving DecidableEq, Repr

/-- An entry of the error log (R370). -/
structure LogEntry where
  frame : Nat
  addr : Nat
  ty : Nat
  port : Nat
  pc : Nat
  syndrome : Nat
deriving DecidableEq, Repr

/-- One pseudo-channel (R362-R377), number 32 s + i. -/
structure Pc where
  /-- failed (R376); 0 -/
  failed : Bool := false
  /-- refresh intervals owed, 0-8 (R363); 0 -/
  owed : Nat := 0
  /-- intervals since its last refresh window (R362); 0 -/
  interval : Nat := 0
  /-- times of corrected, uncorrectable errors and exhausted replays within 1 s (R369); none -/
  ce : List Time := []
  ue : List Time := []
  parity : List Time := []
  /-- suspect: data checks failed so far (R369); none -/
  suspect : Option Nat := none
  /-- being retrained (R374); 0 -/
  retraining : Bool := false
deriving DecidableEq, Repr

/-- The Granary. -/
structure Grn where
  /-- GRN_CONFIG, 0x0D02 (R380); reset flash, else 0x103C0003 -/
  config : Word := 0x103C0003
  /-- STACKS in use since the last reset (R353, R380); 0b11 -/
  stacksUsed : Nat := 3
  /-- the 64 pseudo-channels -/
  pc : Vector Pc 64 := Vector.replicate 64 {}
  /-- SOUND of GRN_STATUS (R380); 0 -/
  sound : Bool := false
  /-- REFRESH: multiplier in force 0 x1, 1 x2, 2 x4 (R361, R380); 0 -/
  refresh : Nat := 0
  /-- the multiplier a fall will set at the next frame start (R361); 0 -/
  refreshNext : Nat := 0
  /-- GRN_GRANT in 0.1 GB/s (R21, R380); 0 -/
  grant : Nat := 0
  /-- GRN_CE_COUNT, GRN_UE_COUNT, GRN_PARITY_COUNT, GRN_REFRESH_FORCED_COUNT, 32 bits, saturating (R380); 0 -/
  ceCount : Nat := 0
  ueCount : Nat := 0
  parityCount : Nat := 0
  forcedCount : Nat := 0
  /-- urgency of real-time ports 0-3 (R359, GRN_STATUS); NORMAL -/
  urg : Vector Urg 4 := Vector.replicate 4 .normal
  /-- GRN_PANIC, GRN_PARITY already raised in this frame (R360, R365) -/
  panicRaised : BitVec 4 := 0
  parityRaised : Bool := false
  /-- the error log, oldest first, at most 64 (R370); empty -/
  log : List LogEntry := []
  /-- an overwrite run is on (R370); 0 -/
  logOver : Bool := false
  /-- HBM by logical byte address: cells that do not read 0, rising (R352-R357, R377); none -/
  hbm : List Host.Cell := []
  /-- since HBM_FULL was accepted the content is destroyed, its bytes free values under this number (R418, log 64); none -/
  spoilt : Option Nat := none
  /-- HBM content is in self-refresh (R56) -/
  selfRefresh : Bool := false
  /-- a MEM_TRAIN waits for retrainings: its name, the pseudo-channels still retraining, and whether one failed (R521); none -/
  train : Option (PendKey × List Nat × Bool) := none
  /-- redirected granules whose written bit is set (R377); none -/
  written : List Nat := []
  /-- patrol scrub (R368): when this pass began, the bytes it has scrubbed, passes completed, and the 64-byte units that
  wait to be written back after a corrected demand read (R367); none, 0 -/
  scrubFrom : Option Time := none
  scrubAt : Nat := 0
  scrubPasses : Nat := 0
  scrubBack : List Nat := []
  /-- rotation pointer of the background class (R480); 12 -/
  rotBg : Nat := 12
  /-- 64-byte units whose compositor fetch returned an error in this frame (R366); none -/
  fetchErr : List Nat := []
  /-- bytes of the last BAR2 read, and its completion: 0 success, 1 Unsupported Request, 2 Completer Abort (R357, R366) -/
  barData : List Byte := []
  barStatus : Nat := 0
deriving DecidableEq, Repr

/-! ## Thermal and health -/

/-- Temperature, voltage and process health. Temperatures are in 1/16 degree C. -/
structure Thm where
  /-- THM_DIE_0-39 readings (R401); 0 -/
  die : Vector Int 40 := Vector.replicate 40 0
  /-- failed die sensors (R401); 0 -/
  dieFailed : BitVec 40 := 0
  /-- since when each die sensor is suspect (R384); none -/
  suspect : Vector (Option Time) 40 := Vector.replicate 40 none
  /-- the last 10 contributions of each die sensor, newest first (R393); none -/
  hist : Vector (List Int) 40 := Vector.replicate 40 []
  /-- samples in a row at or above 140 degrees C of each comparator (R388); 0 -/
  tripRun : Vector Nat 40 := Vector.replicate 40 0
  /-- Tj and the sensor that sets it, THM_JUNCTION (R385, R401); 0 -/
  tj : Int := 0
  tjSensor : Nat := 0
  /-- LEVEL: 0 NORMAL, 1 WARN, 2 THROTTLE, 3 QUENCH, 4 TRIP (R387, R401); 0 -/
  level : Nat := 0
  /-- since when Tj has been at or above the enter value of WARN, THROTTLE, QUENCH, and below the leave value of
  WARN, THROTTLE, QUENCH, TRIP (R387); none -/
  above : Vector (Option Time) 3 := Vector.replicate 3 none
  below : Vector (Option Time) 4 := Vector.replicate 4 none
  /-- since when Tj has been below 119 degrees C - OFFSET (R387, R395); none -/
  coolSince : Option Time := none
  /-- end of the throttle hold, THROTTLE_HOLD (R389, R401); none -/
  holdDue : Option Time := none
  /-- the sensor that set Tj when it became suspect at THROTTLE or higher (R389); none -/
  holdSensor : Option Nat := none
  /-- THM_STACK_TEMP of stacks 0 and 1 (R401); 0 -/
  stack : Vector Int 2 := Vector.replicate 2 0
  /-- STACK_FAILED (R401); 0 -/
  stackFailed : BitVec 2 := 0
  /-- last valid reading of each stack sensor (R383); 0 -/
  stackAt : Vector Time 2 := Vector.replicate 2 0
  /-- level of each stack: 0, 1 above 85, 2 above 105 degrees C (R390); 0 -/
  stackLevel : Vector Nat 2 := Vector.replicate 2 0
  /-- since when each stack has been below 82 degrees C and below 102 degrees C (R390); none -/
  stackBelow : Vector (Option Time × Option Time) 2 := Vector.replicate 2 (none, none)
  /-- last 10 samples of NTC 0-7, newest first, and the reading FRG_NTC_0-7 (R382, R294); 0 -/
  ntcHist : Vector (List Int) 8 := Vector.replicate 8 []
  ntc : Vector Int 8 := Vector.replicate 8 0
  /-- NTC_FAILED (R401); 0 -/
  ntcFailed : BitVec 8 := 0
  /-- THM_THROTTLE, units of 1/256 (R391, R401); 0x100 -/
  throttle : Nat := 256
  /-- THM_POLICY, 0x0E07 (R401); reset flash, else 0x80000000 -/
  policy : Word := 0x80000000
  /-- SLOPE_STOP (R393, R401); 0 -/
  slopeStop : Bool := false
  /-- quench factor q in 1/16 (R392); 16 -/
  q : Nat := 16
  /-- an ordered quench is running (R392); 0 -/
  quenching : Bool := false
  /-- a quench that arose in SAFE keeps the domains down (R395); 0 -/
  safeQuench : Bool := false
  /-- this quench is the third within 600 s: recovery stops in STANDBY (R396); 0 -/
  repeated : Bool := false
  /-- times of the entries to QUENCH within 600 s (R396); none -/
  quenches : List Time := []
  /-- rails outside +-3 % and outside +-6 % (R399); none -/
  supplyWarn : BitVec 13 := 0
  supplyFault : BitVec 13 := 0
  /-- THM_PROCESS_0-7 in 1/4,096 (R400, R401); 0, and THM_AGING already raised -/
  process : Vector Nat 8 := Vector.replicate 8 0
  aged : Bool := false
deriving DecidableEq, Repr

/-! ## Temper -/

/-- A journal write in progress (R412): the slot and the record. -/
structure JWrite where
  slot : Fin 2
  record : JournalRec
deriving DecidableEq, Repr

/-- Temper background calibration. -/
structure Tmp where
  /-- TMP_ENABLE, 0x0F02 (R416); reset flash, else 0x7F -/
  enable : Word := 0x7F
  /-- working values, by quantity (R403); the journal's, else factory defaults -/
  working : Vector (List Int) 7 :=
    ⟨#[List.replicate 96 0, List.replicate 32 0, List.replicate 640 0, List.replicate 24 0,
      List.replicate 24 0, List.replicate 4 0, List.replicate 40 0], rfl⟩
  /-- stored values, by quantity (R403); as working -/
  stored : Vector (List Int) 7 :=
    ⟨#[List.replicate 96 0, List.replicate 32 0, List.replicate 640 0, List.replicate 24 0,
      List.replicate 24 0, List.replicate 4 0, List.replicate 40 0], rfl⟩
  /-- frozen taps, by quantity (R407); none -/
  frozen : Vector (List Nat) 7 := Vector.replicate 7 []
  /-- runs of check failures: (tap, run), by quantity (R407); none -/
  runs : Vector (List (Nat × Nat)) 7 := Vector.replicate 7 []
  /-- steps in progress: (tap, target) waiting for their boundary, by quantity (R403, R404); none -/
  steps : Vector (List (Nat × Int)) 7 := Vector.replicate 7 []
  /-- TMP_COUNT_Q0-Q6: check and precondition failures, 16 bits each (R416); 0 -/
  checkFails : Vector Nat 7 := Vector.replicate 7 0
  preFails : Vector Nat 7 := Vector.replicate 7 0
  /-- TMP_JOURNAL_PERIOD, 0x0F04, s (R416); reset flash, else 3,600 -/
  period : Word := 3600
  /-- TMP_STATUS: slots A and B valid at the last check, newest slot, SEQ (R416); as the slots stand -/
  validA : Bool := false
  validB : Bool := false
  newest : Option (Fin 2) := none
  seq : Nat := 0
  /-- DUE of TMP_STATUS (R415); 0 -/
  due : Bool := false
  /-- WRITING of TMP_STATUS: the write in progress (R412); none -/
  writing : Option JWrite := none
  /-- WRITE_FAILS of TMP_STATUS, 0-3 (R412); 0 -/
  writeFails : Nat := 0
  /-- when the last write began (R415); none -/
  lastWrite : Option Time := none
  /-- when a refused write is attempted again (R414); none -/
  retryDue : Option Time := none
  /-- a SAVE that waits for its write (R524); none -/
  save : Option PendKey := none
  /-- rotation pointers over the quantities at a Temper boundary (R480, R487); 0 -/
  rot01 : Vector Nat 4 := Vector.replicate 4 0
  rot46 : Nat := 4
  /-- engines whose q0/q1 move was taken in this idle gap, and the q4/q6 move of this frame start (R487) -/
  took01 : BitVec 4 := 0
  took46 : Bool := false
deriving DecidableEq, Repr

/-! ## Self-test -/

/-- A running march pass of one instance (R424): slices completed, whether one failed, the address and bit of the
first failure, failing bits found, when it began. -/
structure March where
  inst : Nat
  done : Nat := 0
  failed : Bool := false
  firstFail : Nat × Nat := (0, 0)
  failBits : Nat := 0
  began : Time := 0
deriving DecidableEq, Repr

/-- Self-test and repair. -/
structure Bst where
  /-- BST_CONFIG, 0x1002 (R434); reset flash, else 0x000A0001 -/
  config : Word := 0x000A0001
  /-- result records that differ from NOT_RUN (R425); the stored ones (R431) -/
  results : List ResultRec := []
  /-- passes in progress (R424); none -/
  march : List March := []
  /-- the instance whose slice runs now (R420); none -/
  slice : Option Nat := none
  /-- instances a SRAM_PASS asked for (R526); none -/
  asked : List Nat := []
  /-- repair entries of the record in force, those applied at the last reset, and whether a write is due (R430) -/
  repairs : List RepairEntry := []
  applied : List RepairEntry := []
  repairDue : Option Time := none
  /-- BST_REPAIR_SEQ and the newest slot (R434, R430); 0 -/
  seq : Nat := 0
  newest : Option (Fin 2) := none
  /-- the results section, RESULT_KIND and HBM rows of the record (R431); none -/
  resultSec : List ResultRec := []
  kind : Nat := 0
  rows : List HbmRow := []
  /-- failed read-backs of the record in a row (R412, R430); 0 -/
  writeFails : Nat := 0
  /-- confirmed failing bits since reset: instance, bank, row, column (R429); none -/
  failures : List (Nat × Nat × Nat × Nat) := []
  /-- instances with a bank that has no spare left (R429); none -/
  spent : List Nat := []
  /-- the long self-test kind that runs (R418); none -/
  run : Option (Nat × PendKey) := none
  /-- results of the start-up logic BIST partitions: failed (R427, R527); 0 -/
  lbist : BitVec 4 := 0
  lbistRan : Bool := false
  /-- activities with a guaranteed slot due (R486): Granary ports 12-15, march instances 0x100 + i, Temper quantities
  0x200 + 64 q + owner (the engine, or of quantity 2 the pseudo-channel); none -/
  starved : List Nat := []
  /-- starvation time of each activity since its last grant (R484), and the time up to which it is counted; none -/
  starving : List (Nat × Nat) := []
  starveSeen : Option Time := none
deriving DecidableEq, Repr

/-! ## Brugo Link -/

/-- Port states (R458). -/
inductive PortSt where
  | off | training | up | down | disabled
deriving DecidableEq, Repr

/-- A message sent by this device (R439), as the model records the output: its kind and destination. -/
inductive BrgMsg where
  | timeMark (frame period corr : Nat) (shared : Shared) (pend : List (Shared × Nat))
  | delayReq (t1 : Time)
  | delayResp (t2 t3 : Time)
  | enum (number : Nat)
  | cmd (dst : Nat) (packet : List Byte)
  | reply (packet : List Byte)
  | event (recs : List Rec)
  | mirror (m : Mirror)
  | status (ws : WorkerStatus)
  | enumSelf
  | prepare (number apply : Nat) (packet : List Byte)
  | vote (number : Nat) (yes : Bool) (element reason : Nat)
  | apply (number : Nat)
  | ack (number : Nat)
  | cancel (number : Nat)
deriving DecidableEq, Repr

/-- One Brugo port (R439-R444). -/
structure BrgPort where
  /-- P0_STATE / P1_STATE (R458); OFF -/
  st : PortSt := .off
  /-- hops to the manager through this port, when it reaches it (R441) -/
  hops : Option Nat := none
  /-- the last 16 delay measurements, newest first, and the compensation in force, taps (R444) -/
  delays : List Nat := []
  comp : Nat := 0
  /-- time t1 of the DELAY_REQ that waits for its answer (R444) -/
  asked : Option Time := none
  /-- reliable flits whose acknowledgement is late: sequence number and times sent (R440); none -/
  unacked : List (Nat × Nat) := []
deriving DecidableEq, Repr

/-- A worker the manager knows (R437, R447). -/
structure Worker where
  uid : List Byte
  number : Nat
  port : Fin 2
  member : Bool
  /-- it has been a member before (R456) -/
  was : Bool
  lastStatus : Time
  throttle : Nat
  cmpSeq : Nat
deriving DecidableEq, Repr

/-- A forwarded request that waits for worker replies (R79, R80). -/
structure Fwd where
  rq : Req
  /-- devices that have not replied, statuses by device, failing items by device -/
  waiting : List Nat
  status : List (Nat × Nat)
  items : List (Nat × Nat)
  due : Time
  payload : List Byte
  /-- event records with their count byte that rode on the worker's reply (R81) -/
  riders : List Byte := []
deriving DecidableEq, Repr

/-- The barrier on a manager (R448). -/
structure Barrier where
  number : Nat
  key : PendKey
  /-- the manager itself is named -/
  self : Bool
  /-- A: the apply frame, and the time of its frame start as predicted -/
  apply : Nat
  applyTime : Time
  /-- named members, votes cast (device, yes, element, reason), decided (some true: APPLY), acknowledgements -/
  named : List Nat
  votes : List (Nat × Bool × Nat × Nat)
  decided : Option Bool
  acks : List Nat
  /-- the first cause of failure: device, reason, detail (R449) -/
  cause : Option (Nat × Nat × Nat)
  /-- the ramp of a TIMING_PROFILE RATE that runs as a barrier (R446) -/
  ramp : Option (Nat × Nat × Nat)
deriving DecidableEq, Repr

/-- A worker's part in a barrier (R448, R446): number, apply frame, whether APPLY and CANCEL were received, and the
profile, length and rate of a TIMING_PROFILE. -/
structure MyBarrier where
  number : Nat
  apply : Nat
  applied : Bool := false
  cancelled : Bool := false
  ramp : Option (Nat × Nat × Nat) := none
deriving DecidableEq, Repr

/-- Brugo Link. -/
structure Brg where
  /-- DEVNUM (R458); 0 -/
  devnum : Nat := 0
  /-- BRG_CONFIG, 0x1102 (R458); reset flash, else 0x00000008 -/
  config : Word := 8
  /-- BRG_COLOUR_TARGET, 0x1103 (R458); reset flash, else 0x500D5439 -/
  colourTarget : Word := 0x500D5439
  /-- BRG_MEMBERS, 0x1104 (R458); 0x01 -/
  members : BitVec 8 := 1
  /-- BRG_FRAME, 0x1107 (R458); 0 -/
  frame : Nat := 0
  /-- P0 and P1 -/
  ports : Vector BrgPort 2 := Vector.replicate 2 {}
  /-- ACTIVE: 0 none, 1 P0, 2 P1 (R458); 0 -/
  active : Nat := 0
  /-- TOPO: 0 none, 1 chain, 2 ring (R458); 0 -/
  topo : Nat := 0
  /-- MGR_LOST (R458); 0 -/
  mgrLost : Bool := false
  /-- the worker has a number (R437); 0 -/
  numbered : Bool := false
  /-- shared values in force, and pending with their apply frame (R451); none -/
  shared : Shared := ⟨none, none, none⟩
  sharedPend : List (Shared × Nat) := []
  /-- workers the manager has numbered (R437); none -/
  workers : List Worker := []
  /-- forwarded requests that wait for replies (R79, R80); none -/
  fwds : List Fwd := []
  /-- the manager's barrier (R448); none -/
  barrier : Option Barrier := none
  /-- barriers run since reset; per-device statuses of the last one, 0xFF each when none (R508) -/
  barrierNo : Nat := 0
  lastStatuses : List Nat := List.replicate 8 0xFF
  /-- a worker's part in a barrier (R448); none -/
  mine : Option MyBarrier := none
  /-- last TIME_MARK: reception, announced period, frame (R443); none -/
  mark : Option (Time × Nat × Nat) := none
  /-- frames in a row whose mark interval mismatched; marks refused (R442) -/
  mismatch : Nat := 0
  refuse : Bool := false
  /-- the last mirror received, and frame starts without one (R454) -/
  mirror : Option Mirror := none
  mirrorMiss : Nat := 0
  /-- the frame the mirror was last sent for (R453) -/
  mirrorSent : Nat := 0
  /-- messages acted on: (source, message number), for the duplicates of a ring (R441) -/
  seen : List (Nat × Nat) := []
  /-- the manager source this worker follows (R438) -/
  manager : Option (List Byte) := none
  /-- messages sent, newest first, and flits forwarded (R441): the model's record of an output -/
  sent : List BrgMsg := []
  forwarded : List (Fin 2 × Flit) := []
deriving DecidableEq, Repr

/-! ## Identity and life cycle -/

/-- A firmware load in progress (R533). -/
structure Load where
  image : Nat
  bytes : List Byte
  total : Nat
deriving DecidableEq, Repr

/-- The boot-flash write that is being programmed (R533, R534, R528). -/
inductive FlashJob where
  | segment (key : PendKey) (load : Load) (last : Bool)
  | capture (key : PendKey) (record : Startup) (hearth : HearthRec)
  | topology (key : PendKey) (config : Word)
deriving DecidableEq, Repr

/-- The OTP write that is being programmed (R468, R470). -/
inductive OtpJob where
  | setting (key : PendKey) (code index : Nat) (value : List Byte)
  | lifecycle (key : PendKey) (target : Nat)
deriving DecidableEq, Repr

/-- Identity, life cycle and limited settings. -/
structure Sec where
  /-- the firmware measurement, 32 bytes (R463); recorded in step 6, zero before -/
  measurement : List Byte := List.replicate 32 0
  /-- it has been recorded since the last reset (R463, R57); 0 -/
  measured : Bool := false
  /-- partial loads of the Hearth patch, the main firmware and the Anvil set (R533); none -/
  loads : Vector (Option Load) 3 := Vector.replicate 3 none
  /-- the boot-flash write in progress; none -/
  flashJob : Option FlashJob := none
  /-- the OTP write in progress; none -/
  otpJob : Option OtpJob := none
  /-- INCOMPLETE of SEC_LIFECYCLE (R464, R477) -/
  incomplete : Bool := false
  /-- SEC_SVN_MIN of the patch, of the main firmware, still has to rise, and when the refused write is tried again
  (R476); none -/
  svnPatch : Bool := false
  svnMain : Bool := false
  svnRetry : Option Time := none
  /-- the running patch / main image is a pending one (R476); 0 -/
  patchTrial : Bool := false
  mainTrial : Bool := false
deriving DecidableEq, Repr

/-- The state of the KX-7720. -/
structure State where
  /-- model time, taps of 250 ps (log 2); 0 -/
  now : Time := 0
  /-- commands that wait, first in first out (log 1); empty -/
  pending : List Instr := []
  /-- MODEL FIELD: index of the next free value of Config (log 10); DESIGN CHOICE 0 -/
  free : Nat := 0
  /-- MODEL FIELD: the status of the last register row (log 4); OK -/
  last : Status := .ok
  /-- MODEL FIELD: the value the last register read row returned (log 4); 0 -/
  readData : Word := 0
  /-- engine kinds and sizes (R14, R515); unused -/
  eng : Vector EngCfg 4 := Vector.replicate 4 {}
  otp : Otp := {}
  flash : Flash := {}
  hth : Hth := {}
  hst : Hst := {}
  evt : Evt := {}
  ing : Ing := {}
  cmp : Cmp := {}
  anv : Anv := {}
  clw : Clw := {}
  thr : Thr := {}
  swt : Vector SwtEng 4 := Vector.replicate 4 {}
  scn : Vector ScnEng 4 := Vector.replicate 4 {}
  frg : Frg := {}
  mtx : Mtx := {}
  srv : Srv := {}
  tng : Tng := {}
  grn : Grn := {}
  thm : Thm := {}
  tmp : Tmp := {}
  bst : Bst := {}
  brg : Brg := {}
  sec : Sec := {}
deriving DecidableEq, Repr

/-- The machine right after reset, in reset hold before the cold start runs (R8, R35, R545). -/
def State.reset : State := {}

/-- Why a step stops with a fault. -/
inductive Fault where
  /-- raised by BAR2_WRITE and BAR2_READ for an address beyond the 16 GiB window: no such address exists
  and no such access reaches the device (R357). Safe: the machine stops where the hardware has no access. -/
  | outsideBar2 (addr : Nat)
deriving DecidableEq, Repr

/-- Why a step is refused. -/
inductive Refusal where
  /-- raised by the arms of exec that have no meaning yet; none is left. Safe: nothing is claimed. -/
  | notModelled (mnemonic : String)
deriving DecidableEq, Repr

end Sys2Proof.Machine
end

