-- ==== Sys2Proof/Machine/Flags.lean ====
section
/-! DEFINITION. Events: the sources and their severities (R546), latching, repeats and routes (R536-R544),
clearing (R539), and what the two alarm pins and EVT_STATUS show (R545, R547). Nothing here touches any
part of State but `evt`. -/

namespace Sys2Proof.Machine

/-! ## The event list (R546) -/

def evHthXtalFail : Nat := 0x020
def evHthEventsLost : Nat := 0x021
def evHthLampLedFault : Nat := 0x022
def evHthLampFuncOff : Nat := 0x023
def evHthStartupInvalid : Nat := 0x024
def evHthStateChange : Nat := 0x025
def evHthPatchInvalid : Nat := 0x026
def evHstFramingErr : Nat := 0x040
def evHstCrcErr : Nat := 0x041
def evHstSpiOverrun : Nat := 0x042
def evHstMbxErr : Nat := 0x043
def evHstCanReasm : Nat := 0x044
def evHstCanBusoff : Nat := 0x045
def evHstReplyLost : Nat := 0x046
def evHstCmdDone : Nat := 0x047
def evIngDpLost : Nat := 0x060
def evIngDpRestored : Nat := 0x061
def evIngDptxLinkFail : Nat := 0x062
def evIngCsiErr : Nat := 0x063
def evCmpCommitApplied : Nat := 0x080
def evCmpCommitAborted : Nat := 0x081
def evCmpLayerNotReady : Nat := 0x082
def evAnvAuthFail : Nat := 0x0A0
def evAnvSeqReject : Nat := 0x0A1
def evAnvClaimLockout : Nat := 0x0A2
def evAnvSetInvalid : Nat := 0x0A3
def evAnvStoreEcc : Nat := 0x0A4
def evAnvOwnerStale : Nat := 0x0A5
def evAnvImageStale : Nat := 0x0A6
def evAnvVerifyFail : Nat := 0x0A7
def evAnvHandover : Nat := 0x0A8
def evAnvRestored : Nat := 0x0A9
def evAnvCamLost : Nat := 0x0AA
def evAnvColourSensorLost : Nat := 0x0AB
def evClwWhiteHeadroom : Nat := 0x0C0
def evClwEstLost : Nat := 0x0C1
def evClwChannelLost : Nat := 0x0C2
def evClwPairLost : Nat := 0x0C3
def evClwGamutHold : Nat := 0x0C4
def evClwGamutStuck : Nat := 0x0C5
def evClwWarpIdentity : Nat := 0x0C6
def evThrSlotCap : Nat := 0x0E0
def evThrRateChange : Nat := 0x0E1
def evThrSheafReduced : Nat := 0x0E2
def evThrWriteLate : Nat := 0x0E3
def evThrUnderrun : Nat := 0x0E4
def evThrBandErr : Nat := 0x0E5
def evThrFocusDark : Nat := 0x0E6
def evSwtLinkUp : Nat := 0x100
def evSwtLinkDown : Nat := 0x101
def evSwtLinkFail : Nat := 0x102
def evSwtRetrain : Nat := 0x103
def evSwtCfgMismatch : Nat := 0x104
def evSwtBandCrc : Nat := 0x105
def evSwtFecDegraded : Nat := 0x106
def evSwtSlackLow : Nat := 0x107
def evScnStartSlow : Nat := 0x120
def evScnStop : Nat := 0x121
def evScnRestart : Nat := 0x122
def evScnFailed : Nat := 0x123
def evScnUnderrun : Nat := 0x124
def evScnEdgeSpurious : Nat := 0x125
def evFrgHeadroom : Nat := 0x140
def evFrgEmitLimiting : Nat := 0x141
def evFrgEmissionTrip : Nat := 0x142
def evFrgChFault : Nat := 0x143
def evSrvSaturated : Nat := 0x160
def evSrvMiss : Nat := 0x161
def evSrvMissRun : Nat := 0x162
def evSrvBumpClamp : Nat := 0x163
def evSrvFollowErr : Nat := 0x164
def evSrvPlausTrip : Nat := 0x165
def evSrvColourGainLimit : Nat := 0x166
def evSrvTraceDone : Nat := 0x167
def evTngLocked : Nat := 0x180
def evTngRefLost : Nat := 0x181
def evTngHoldoverLong : Nat := 0x182
def evTngRefReturn : Nat := 0x183
def evTngPhaseStep : Nat := 0x184
def evTngRefRange : Nat := 0x185
def evTngRefSpurious : Nat := 0x186
def evTngRampDone : Nat := 0x187
def evTngPllUnlock : Nat := 0x188
def evTngPllRelock : Nat := 0x189
def evTngPllFail : Nat := 0x18A
def evGrnPanic : Nat := 0x1A0
def evGrnRefreshForced : Nat := 0x1A1
def evGrnParity : Nat := 0x1A2
def evGrnEccCeRate : Nat := 0x1A3
def evGrnEccUe : Nat := 0x1A4
def evGrnTrainKept : Nat := 0x1A5
def evGrnPcFailed : Nat := 0x1A6
def evGrnBarViolation : Nat := 0x1A7
def evGrnLogOverflow : Nat := 0x1A8
def evThmWarn : Nat := 0x1C0
def evThmThrottle : Nat := 0x1C1
def evThmQuench : Nat := 0x1C2
def evThmTrip : Nat := 0x1C3
def evThmQuenchRepeat : Nat := 0x1C4
def evThmSensorFailed : Nat := 0x1C5
def evThmSupplyWarn : Nat := 0x1C6
def evThmSupplyFault : Nat := 0x1C7
def evThmAging : Nat := 0x1C8
def evTmpTapFrozen : Nat := 0x1E0
def evTmpJournalWritten : Nat := 0x1E1
def evTmpJournalFail : Nat := 0x1E2
def evTmpJournalInvalid : Nat := 0x1E3
def evTmpJournalEmpty : Nat := 0x1E4
def evBstSramFail : Nat := 0x200
def evBstIncomplete : Nat := 0x201
def evBstRepairPending : Nat := 0x202
def evBstRepairExhausted : Nat := 0x203
def evBstLbistFail : Nat := 0x204
def evBrgPortDown : Nat := 0x220
def evBrgManagerLost : Nat := 0x221
def evBrgWorkerLost : Nat := 0x222
def evBrgWorkerJoined : Nat := 0x223
def evBrgTopologyMismatch : Nat := 0x224
def evBrgRoleConflict : Nat := 0x225
def evBrgRefclkMismatch : Nat := 0x226
def evBrgEventsLost : Nat := 0x227
def evBrgFwdOverflow : Nat := 0x228
def evSecLcAdvanced : Nat := 0x240
def evSecLcIncomplete : Nat := 0x241
def evSecOtpFail : Nat := 0x242
def evSecFwRejected : Nat := 0x243
def evSecFwFallback : Nat := 0x244
def evEvtQueueOverflow : Nat := 0x260
def evEvtCanDropped : Nat := 0x261

/-- Severities of the items of a group, from item 0: 0 INFO, 1 WARN, 2 FAULT, 3 SAFETY. ANV_STORE_ECC
stands with WARN and takes the severity of each occurrence (R538). -/
def groupSevs : Nat → List Nat
  | 0x01 => [2, 1, 2, 3, 1, 0, 2]
  | 0x02 => [1, 1, 1, 1, 1, 2, 1, 0]
  | 0x03 => [1, 0, 1, 1]
  | 0x04 => [0, 1, 1]
  | 0x05 => [1, 1, 2, 2, 1, 3, 3, 3, 3, 0, 1, 1]
  | 0x06 => [1, 1, 1, 2, 1, 2, 1]
  | 0x07 => [0, 0, 1, 1, 1, 1, 1]
  | 0x08 => [0, 3, 2, 1, 2, 1, 1, 1]
  | 0x09 => [1, 3, 0, 2, 1, 1]
  | 0x0A => [1, 1, 3, 2]
  | 0x0B => [1, 1, 2, 0, 2, 3, 1, 0]
  | 0x0C => [0, 1, 1, 0, 1, 1, 1, 0, 3, 0, 2]
  | 0x0D => [1, 1, 1, 1, 1, 1, 2, 1, 0]
  | 0x0E => [1, 1, 3, 3, 2, 2, 1, 2, 1]
  | 0x0F => [1, 0, 1, 1, 1]
  | 0x10 => [2, 1, 0, 2, 2]
  | 0x11 => [1, 2, 1, 0, 2, 2, 2, 1, 1]
  | 0x12 => [0, 2, 2, 1, 2]
  | 0x13 => [1, 1]
  | _ => []

/-- The sources whose DETAIL is a mask that repeats OR into (R537). -/
def maskEvents : List Nat :=
  [0x043, 0x060, 0x061, 0x063, 0x082, 0x0AA, 0x0AB, 0x0C0, 0x0C1, 0x0C2, 0x0C4, 0x0E3,
   0x140, 0x141, 0x167, 0x188, 0x189, 0x18A, 0x1A0, 0x204, 0x220, 0x222, 0x225]

/-- Severity of an event ID, none for an ID that the list does not define (R535, R546). -/
def evSev (id : Nat) : Option Nat := if id < 1024 then (groupSevs (id / 32))[id % 32]? else none

/-- Whether the event list defines an ID (R535). -/
def evDefined (id : Nat) : Bool := (evSev id).isSome

/-- The items of a group as a mask. -/
def groupMask (g : Nat) : Nat := 2 ^ (groupSevs g).length - 1

/-- The default routes by severity (R544): [0] INT_N, [1] MSI-X, [2] CAN FD, [3] piggyback, [4] Brugo. -/
def sevRoute (sev : Nat) : Nat := if sev = 3 then 0x1F else if sev = 2 then 0x1B else if sev = 1 then 0x18 else 0

/-- The default route mask of a source (R544). -/
def defaultRoute (id : Nat) : Nat :=
  if id = evHstCmdDone then 0x0B
  else if id = evCmpCommitApplied ∨ id = evAnvRestored then 0x08
  else sevRoute ((evSev id).getD 0)

/-- The route mask of a source (R536). -/
def Evt.route (e : Evt) (id : Nat) : Nat := (look e.routes id).getD (defaultRoute id)

/-- The enable of a source (R536). -/
def Evt.enabled (e : Evt) (id : Nat) : Bool := evDefined id && !e.disabled.contains id

/-- Whether the latched bit of a source is set (R536). -/
def Evt.latched (e : Evt) (id : Nat) : Bool := e.recs.any fun r => r.id == id

/-- What a raise takes from the rest of the device: the time and its base (EVT_TIME), the device number
and role, and whether the PCIe link is up. -/
structure EvCtx where
  now : Time
  base : Time
  dev : Nat
  role : Nat
  link : Bool

/-- EVT_TIME: the 32.768 kHz counter since cold-start step 1 (R547). -/
def evtTime (now base : Time) : Nat := 32768 * (now - base) / sec % 2 ^ 32

/-- A record of a first occurrence (R540). -/
def EvCtx.record (c : EvCtx) (id sev detail taken : Nat) : Rec :=
  { id := id, sev := sev, detail := detail % 2 ^ 24, time := fld (evtTime c.now c.base) 7 16,
    device := c.dev, taken := taken, piggy := bit taken 3, last := some c.now }

/-- Queues the pending records as an event frame; a full queue drops its oldest frame (R543). The flag
says whether a frame was dropped. -/
def Evt.pushFrame (e : Evt) : Evt × Bool :=
  if e.canPend.isEmpty then (e, false)
  else
    let q := e.canFrames ++ [e.canPend]
    ({ e with canFrames := if q.length > 16 then q.drop 1 else q, canPend := [], gatherDue := none },
      decide (q.length > 16))

/-- The CAN FD route: the record falls pending; a SAFETY record, a seventh record and a gather time of
zero queue the frame at once (R543). -/
def Evt.actCan (c : EvCtx) (e : Evt) (r : Rec) : Evt × Bool :=
  let e1 := { e with canPend := e.canPend ++ [r],
                     gatherDue := if e.canPend.isEmpty then some (c.now + e.gather * ms) else e.gatherDue }
  if r.sev = 3 ∨ e1.canPend.length ≥ 7 ∨ e.gather = 0 then e1.pushFrame else (e1, false)

/-- The Brugo route on a worker: the record waits to be sent to the manager (R457). -/
def Evt.actBrugo (c : EvCtx) (e : Evt) (r : Rec) : Evt :=
  if c.role = 2 then { e with brugo := e.brugo ++ [r] } else e

/-- MSI-X vector `g` is sent, or falls pending while it is masked (R88, R542). -/
def Evt.msixSend (g : Nat) (e : Evt) : Evt :=
  if e.msixMask.getLsbD g then { e with msixPend := e.msixPend ||| BitVec.ofNat 20 (2 ^ g) }
  else { e with msix := g :: e.msix }

/-- The routes of mask `m` act once on a record (R542): MSI-X, CAN FD and Brugo. INT_N and piggyback are
read off the record. -/
def Evt.act (c : EvCtx) (e : Evt) (r : Rec) (m : Nat) : Evt × Bool :=
  let e1 := if bit m 1 && c.link then e.msixSend (r.id / 32) else e
  let e2 := if bit m 4 then Evt.actBrugo c e1 r else e1
  if bit m 2 then Evt.actCan c e2 r else (e2, false)

/-- A repeat: COUNT saturates, a mask DETAIL accumulates, a FAULT occurrence raises the severity (R537, R538). -/
def Rec.repeated (r : Rec) (now : Time) (detail sev : Nat) : Rec :=
  { r with last := some now, count := satInc 8 r.count,
           detail := if maskEvents.contains r.id then Nat.lor r.detail (detail % 2 ^ 24) else r.detail,
           sev := max r.sev sev }

/-- A record removed from the list: the oldest with this ID. -/
def dropOldest (id : Nat) : List Rec → List Rec
  | [] => []
  | r :: l => if r.id = id then l else r :: dropOldest id l

/-- A raise (R536-R538). `n` bounds the events that a raise itself raises: EVT_CAN_DROPPED and
EVT_QUEUE_OVERFLOW, each of which, once latched, raises nothing more. -/
def Evt.raiseAux (c : EvCtx) : Nat → Evt → Nat → Nat → Nat → Evt
  | 0, e, _, _, _ => e
  | n + 1, e, id, detail, sev =>
    if e.enabled id then
      let after (p : Evt × Bool) : Evt :=
        if p.2 then Evt.raiseAux c n p.1 evEvtCanDropped 1 1 else p.1
      let wanted := if id = evAnvStoreEcc ∧ sev = 2 then Nat.lor (e.route id) (sevRoute 2) else e.route id
      if id = evHstCmdDone then
        let r := c.record id sev detail wanted
        let held := (e.recs.filter fun x => x.id == id).length
        let e1 := { e with recs := (if held ≥ 16 then dropOldest id e.recs else e.recs) ++ [r] }
        let e2 := after (Evt.act c e1 r wanted)
        if held ≥ 16 then Evt.raiseAux c n e2 evEvtQueueOverflow 0 1 else e2
      else
        match e.recs.find? fun x => x.id == id with
        | none =>
          let r := c.record id sev detail wanted
          after (Evt.act c { e with recs := e.recs ++ [r] } r wanted)
        | some old =>
          let more := if id = evAnvStoreEcc ∧ old.sev < sev
            then Nat.xor (Nat.lor wanted old.taken) old.taken else 0
          let r := old.repeated c.now detail sev
          let r := { r with taken := Nat.lor old.taken more, piggy := old.piggy || bit more 3 }
          let e1 := { e with recs := e.recs.map fun x => if x.id == id then r else x }
          after (Evt.act c e1 r more)
    else e

/-- What the rest of the device gives a raise. -/
def State.evCtx (s : State) : EvCtx :=
  { now := s.now, base := s.hth.timeBase, dev := s.brg.devnum, role := s.hth.role, link := s.hst.linkUp }

/-- An occurrence of a source with its own severity (R536). -/
def raise (id detail : Nat) (s : State) : State :=
  { s with evt := Evt.raiseAux s.evCtx 4 s.evt id detail ((evSev id).getD 0) }

/-- An occurrence of ANV_STORE_ECC, which takes the severity of each occurrence (R538). -/
def raiseEcc (glyph : Nat) (uncorrectable : Bool) (s : State) : State :=
  { s with evt := Evt.raiseAux s.evCtx 4 s.evt evAnvStoreEcc glyph (if uncorrectable then 2 else 1) }

/-- A raise under a condition. -/
def raiseIf (c : Bool) (id detail : Nat) (s : State) : State := if c then raise id detail s else s

/-- A clear at time `now` leaves a record that a raise of the same cycle set (R6, R539). -/
def Rec.stays (r : Rec) (now : Time) : Bool := r.last == some now

/-- The record of an ID removed; for HST_CMD_DONE its oldest (R538, R539). -/
def Evt.clear (e : Evt) (now : Time) (id : Nat) : Evt :=
  match e.recs.find? fun r => r.id == id with
  | some r => if r.stays now then e else { e with recs := dropOldest id e.recs }
  | none => e

/-- Every record of the items of a group in `mask` removed, all of HST_CMD_DONE included (R538, R547). -/
def Evt.clearMask (e : Evt) (now : Time) (g mask : Nat) : Evt :=
  { e with recs := e.recs.filter fun r => !(r.id / 32 == g && bit mask (r.id % 32)) || r.stays now }

/-- EVT_LATCHED_g (R547). -/
def Evt.latchedWord (e : Evt) (g : Nat) : Nat := maskOf 32 fun i => e.latched (32 * g + i)

/-- EVT_ENABLE_g (R547). -/
def Evt.enableWord (e : Evt) (g : Nat) : Nat := maskOf 32 fun i => e.enabled (32 * g + i)

/-- EVT_ENABLE_g written: the defined items whose bit is 0 are disabled (R547). -/
def Evt.setEnables (e : Evt) (g v : Nat) : Evt :=
  { e with disabled := e.disabled.filter (fun i => i / 32 != g)
      ++ ((List.range (groupSevs g).length).filter fun i => !bit v i).map fun i => 32 * g + i }

/-- Enabled latched sources of a severity (R498, R539, R547). -/
def Evt.countSev (e : Evt) (sev : Nat) : Nat :=
  ((e.recs.filter fun r => r.sev == sev && e.enabled r.id).map (·.id)).dedup.length

/-- INT_N is low: an enabled, latched source that took the INT_N route (R542, R502). -/
def Evt.intLow (e : Evt) : Bool := e.recs.any fun r => bit r.taken 0 && e.enabled r.id

/-- HST_CMD_DONE records held (R538, R547). -/
def Evt.cmdDones (e : Evt) : Nat := (e.recs.filter fun r => r.id == evHstCmdDone).length

/-- The event groups that hold an enabled, latched source whose route mask includes MSI-X (R567). -/
def Evt.msixGroups (e : Evt) : List Nat :=
  (List.range 20).filter fun g => e.recs.any fun r => r.id / 32 == g && e.enabled r.id && bit r.taken 1

/-- Bytes of a record (R540). -/
def recBytes (fwd : Bool) (r : Rec) : List Byte :=
  leBytes 2 (r.id + r.sev * 1024 + r.device % 8 * 4096 + b2n fwd * 32768) ++ leBytes 3 r.detail
    ++ leBytes 1 r.count ++ leBytes 2 r.time

end Sys2Proof.Machine
end

