-- ==== Sys2Proof/Machine/Ops.lean ====
section
/-! DEFINITION. The named operations that the meanings share: model time, free values, the memory of the
HBM window, life cycle and OTP settings, and the way of a reply and of a completion back to the host. -/

namespace Sys2Proof.Machine

/-- The outcome of a meaning that goes on. -/
abbrev Out := Host.Outcome State Fault Refusal

/-- Model time moves to the time of the step, never back (log 2). -/
def State.at (s : State) (t : Time) : State := { s with now := max s.now t }

/-- A free value and the state that has used it (log 10). -/
def State.fresh (s : State) : Nat × State := (Config.freeValue s.free, { s with free := s.free + 1 })

/-- `f` over the engines 0-3. -/
def forEng (f : Fin 4 → State → State) (s : State) : State := f 3 (f 2 (f 1 (f 0 s)))

/-- `f` over the numbers below `n`, in ascending order. -/
def forN (n : Nat) (f : Nat → State → State) (s : State) : State := (List.range n).foldl (fun a i => f i a) s

/-! ## Memory: the HBM logical address space (R353, R355), unlisted bytes read zero (R52, R377) -/

/-- The byte at an address. -/
def Mem.read : List Host.Cell → Nat → Byte
  | [], _ => 0
  | (b, v) :: r, a => if a = b then v else if a < b then 0 else Mem.read r a

/-- A byte written, in canonical form: addresses rise, no cell holds zero. -/
def Mem.write : List Host.Cell → Nat → Byte → List Host.Cell
  | [], a, v => if v = 0 then [] else [(a, v)]
  | (b, w) :: r, a, v =>
    if a < b then (if v = 0 then (b, w) :: r else (a, v) :: (b, w) :: r)
    else if a = b then (if v = 0 then r else (a, v) :: r)
    else (b, w) :: Mem.write r a v

/-- Bytes written from an address upwards. -/
def Mem.writes (m : List Host.Cell) (a : Nat) : List Byte → List Host.Cell
  | [] => m
  | v :: r => Mem.writes (Mem.write m a v) (a + 1) r

/-- `n` bytes read from an address upwards. -/
def Mem.reads (m : List Host.Cell) (a : Nat) : Nat → List Byte
  | 0 => []
  | n + 1 => Mem.read m a :: Mem.reads m (a + 1) n

/-- `n` bytes of the HBM as the device and BAR2 read them: those stored, or free bytes once HBM_FULL has destroyed the
content (log 64). -/
def State.hbmReads (s : State) (a n : Nat) : List Byte :=
  match s.grn.spoilt with
  | none => Mem.reads s.grn.hbm a n
  | some k => (List.range n).map fun i => Config.spoiltByte k s.now (a + i)

/-- Every cell whose address satisfies `p` set to zero. -/
def Mem.erase (m : List Host.Cell) (p : Nat → Bool) : List Host.Cell := m.filter fun c => !p c.1

/-- The Granary, or self-test, changed. -/
def setGrn (f : Grn → Grn) (s : State) : State := { s with grn := f s.grn }
def setBst (f : Bst → Bst) (s : State) : State := { s with bst := f s.bst }

/-- The pseudo-channel of a logical address under a setting of STACKS (R353). -/
def pcOf (stk addr : Nat) : Fin 64 :=
  let g := addr / 4096
  if stk = 3 then Fin.ofNat 64 (g % 2 * 32 + g / 2 % 32) else Fin.ofNat 64 (g % 32)

/-- The granules from byte `a` on, `n` bytes, that a map-out has redirected (R377). -/
def Grn.redirected (g : Grn) (a n : Nat) : List Nat :=
  ((List.range ((a + n + 4095) / 4096 - a / 4096)).map (a / 4096 + ·)).filter fun k =>
    g.pc[pcOf g.stacksUsed (4096 * k)].failed

/-- Bytes stored from a logical address on; the written bits of redirected granules are set (R377). -/
def Grn.store (g : Grn) (a : Nat) (l : List Byte) : Grn :=
  { g with hbm := Mem.writes g.hbm a l, written := (g.written ++ g.redirected a l.length).dedup }

/-- The canonical form: addresses strictly rising from `lo`, no zero cell. -/
def Mem.wfFrom : Nat → List Host.Cell → Bool
  | _, [] => true
  | lo, (a, v) :: r => decide (lo ≤ a) && v != 0 && Mem.wfFrom (a + 1) r

/-- The canonical form of the memory. -/
def Mem.wf (m : List Host.Cell) : Bool := Mem.wfFrom 0 m

/-! ## Codes -/

/-- STATE codes of HTH_STATE (R35). -/
def PState.code : PState → Nat
  | .off => 0 | .sleep => 1 | .standby => 2 | .ready => 3 | .lit => 4 | .quench => 5 | .safe => 6

/-- The rank of a state (R566): SLEEP, STANDBY, READY, LIT. -/
def PState.rank : PState → Nat
  | .sleep => 1 | .standby => 2 | .ready => 3 | .lit => 4 | _ => 0

/-- Status codes (R63). -/
def Status.code : Status → Nat
  | .ok => 0 | .pending => 1 | .badCrc => 0x10 | .badOpcode => 0x11 | .badLength => 0x12
  | .badParam => 0x13 | .wrongState => 0x20 | .busy => 0x21 | .deniedLifecycle => 0x22
  | .deniedOwner => 0x23 | .limitExhausted => 0x24 | .thermalInhibit => 0x25
  | .commitRejected => 0x30 | .resourceExceeded => 0x31 | .hwFault => 0x40 | .timeout => 0x41

/-- The status of a code, as a worker's reply spells it (R79). -/
def Status.ofCode (n : Nat) : Status :=
  ([Status.ok, .pending, .badCrc, .badOpcode, .badLength, .badParam, .wrongState, .busy, .deniedLifecycle,
    .deniedOwner, .limitExhausted, .thermalInhibit, .commitRejected, .resourceExceeded, .hwFault,
    .timeout].find? fun x => x.code == n).getD .hwFault

/-- The transport of a port, as R71 counts tags. On a worker the requests that the manager forwards share one tag space
and one cache of four replies, whichever host transport they came from: DESIGN CHOICE (log 70). -/
def portSame (p q : Port) : Bool :=
  match p, q with
  | .spi, .spi => true | .mbx _, .mbx _ => true | .canCmd, .canCmd => true
  | .canSafety, .canSafety => true | .brugo, .brugo => true | _, _ => false

/-- The transport codes of event DETAIL fields (R546); none for a forwarded request. -/
def portCode : Port → Option Nat
  | .spi => some 0 | .mbx _ => some 1 | .canCmd => some 2 | .canSafety => some 3 | .brugo => none

/-- The largest payload of a transport (R62); a forwarded packet is one of at most 4,106 bytes (R439). -/
def portLimit : Port → Nat
  | .mbx _ => 4096 | .brugo => 4096 | _ => 1024

/-! ## Life cycle and limited settings -/

/-- The life-cycle state code in force: the highest state whose word is wholly programmed (R464). -/
def Otp.lifecycle (o : Otp) : Nat :=
  maxN ((List.finRange 5).map fun i => if o.lcWords[i] = 0xFFFFFFFF then i.val + 1 else 0)

/-- The states whose words are partly programmed (R464). -/
def Otp.partialWords (o : Otp) : List Nat :=
  ((List.finRange 5).filter fun i => o.lcWords[i] != 0 && o.lcWords[i] != 0xFFFFFFFF).map fun i => i.val + 1

/-- The value in force of a limited setting: that of the highest slot whose CRC matches (R469). -/
def slotValue (l : List OtpSlot) : Option (List Byte) :=
  match l.reverse.find? fun o => o.crcOk with
  | some o => some o.value
  | none => none

/-- The Anvil owner key that the OTP slots hold (R469). -/
def Otp.owner (o : Otp) : Option (List Byte) := slotValue o.ownerKey

/-- The UID as 16 bytes (R460). -/
def Otp.uidBytes (o : Otp) : List Byte := leBytes 16 o.uid.toNat

/-! ## Replies -/

/-- A reply packet (R60). -/
def replyPacket (op : Nat) (tag : Byte) (status : Nat) (payload : List Byte) : List Byte :=
  let h : List Byte := [0x5A, BitVec.ofNat 8 op, tag, BitVec.ofNat 8 status] ++ leBytes 2 payload.length
    ++ payload
  h ++ leBytes 4 (crc32c h)

/-- How many records fit behind a payload with their count byte, of at most `n` (R81). -/
def piggyFit (limit len n : Nat) : Nat :=
  if n = 0 ∨ len + 9 > limit then 0 else min n ((limit - len - 1) / 8)

/-- The first `n` records still to be piggybacked, marked as sent (R81). -/
def takePiggy : Nat → List Rec → List Rec
  | 0, l => l
  | _, [] => []
  | n + 1, r :: l => if r.piggy then { r with piggy := false } :: takePiggy n l else r :: takePiggy (n + 1) l

/-- The bytes of a reply with its piggybacked records, and the events left (R60, R81). -/
def buildReply (p : Port) (op : Nat) (tag : Byte) (st : Status) (payload : List Byte) (e : Evt) :
    List Byte × Evt :=
  let wait := e.recs.filter fun r => r.piggy
  let n := piggyFit (portLimit p) payload.length (min 4 wait.length)
  if n = 0 then (replyPacket op tag st.code payload, e)
  else
    (replyPacket op tag (st.code + 128) (payload ++ ((wait.take n).map (recBytes false)).flatten ++ leBytes 1 n),
      { e with recs := takePiggy n e.recs })

/-- A CAN FD reply queue of 8: a ninth reply displaces the oldest whose transmission has not begun (R92).
`begun`: a frame of the first reply is on the wire. The displaced reply is answered beside the queue. -/
def canQueue (begun : Bool) (q : List CanTx) (x : CanTx) : List CanTx × Option CanTx :=
  if q.length < 8 then (q ++ [x], none)
  else match q with
    | [] => ([x], none)
    | h :: r => if h.sent = 0 ∧ !begun then (r ++ [x], some h) else (h :: r.drop 1 ++ [x], r.head?)

/-- CAN FD parameters of one write take effect on the bus; a later write of the same one goes before them (R75, R89). -/
def canApply (l : List (Fin 6 × Word)) (s : State) : State :=
  { s with hth := { s.hth with can := l.foldl (fun v p => if s.hth.canNext[p.1] = p.2 then upd v p.1 p.2 else v) s.hth.can } }

/-- A displaced CAN FD reply is lost (R92); a write that waited for its last frame takes effect (R89). -/
def canLost (transport : Nat) (x : Option CanTx) (s : State) : State :=
  match x with
  | none => s
  | some r => raise evHstReplyLost transport (canApply r.applies s)

/-- The bytes of a reply become ready on their transport (R67, R85, R87, R88, R92). -/
def deliver (p : Port) (b : List Byte) (s : State) : State :=
  match p with
  | .spi =>
    let q := s.hst.spiReplies ++ [b]
    if q.length > 8 then
      raise evHstReplyLost 0 { s with hst := { s.hst with spiReplies := q.drop 1 } }
    else { s with hst := { s.hst with spiReplies := q } }
  | .mbx k =>
    if s.hst.linkUp then
      let m : BitVec 4 := BitVec.ofNat 4 (2 ^ k.val)
      let rise : Bool := s.hst.mbxDone &&& m == 0
      let masked := s.evt.msixMask.getLsbD 0
      { s with
        hst := { s.hst with
          mbxReply := upd s.hst.mbxReply k b, mbxBusy := s.hst.mbxBusy &&& ~~~m,
          mbxDone := s.hst.mbxDone ||| m, mbxDoneAt := upd s.hst.mbxDoneAt k (some s.now),
          msix := if rise && !masked then 0 :: s.hst.msix else s.hst.msix },
        evt := if rise && masked then { s.evt with msixPend := s.evt.msixPend ||| 1 } else s.evt }
    else s
  | .canCmd =>
    let q := canQueue (s.hst.canWire == .command) s.hst.canCmdTx ⟨b, 0, s.hst.canWrites⟩
    canLost 2 q.2 { s with hst := { s.hst with canCmdTx := q.1, canWrites := [] } }
  | .canSafety =>
    let q := canQueue (s.hst.canWire == .safety) s.hst.canSafetyTx ⟨b, 0, s.hst.canWrites⟩
    canLost 3 q.2 { s with hst := { s.hst with canSafetyTx := q.1, canWrites := [] } }
  | .brugo => { s with brg := { s.brg with sent := .reply b :: s.brg.sent } }

/-- A reply delivered to every port on which a copy of its request came (R72): on the mailbox each copy has its slot. -/
def deliverAll (l : List Port) (b : List Byte) (s : State) : State := l.foldl (fun a p => deliver p b a) s

/-- The kept replies with a new one: the last 4 of each transport (R72). -/
def keepReply (l : List Kept) (k : Kept) : List Kept :=
  let mine := l.filter fun x => portSame x.port k.port
  let rest := l.filter fun x => !portSame x.port k.port
  rest ++ mine.drop (mine.length - 3) ++ [k]

/-- Whether a reply goes out at all: with REPLY = 0 none for OK and PENDING (R66). A worker answers the manager
whatever REPLY says, as the manager waits for it (R80, log 17). -/
def wantsReply (rq : Req) (st : Status) : Bool :=
  bit rq.flags.toNat 0 || rq.port == .brugo || !(st == .ok || st == .pending)

/-- The outstanding entry of a request, and whether one stands (R71). -/
def reqOutst (rq : Req) (h : Hst) : Option Outst :=
  h.outst.find? fun o => portSame o.port rq.port && o.tag == rq.tag && o.opcode == rq.opcode && o.crc == rq.crc

/-- The outstanding entries without those of a port and tag. -/
def dropOutst (p : Port) (tag : Byte) (l : List Outst) : List Outst :=
  l.filter fun o => !(portSame o.port p && o.tag == tag)

/-- The name of a command that runs PENDING. -/
def reqKey (rq : Req) : PendKey := { port := rq.port, tag := rq.tag, opcode := rq.opcode }

/-- A refusal found before the request was accepted: it is sent at once and not kept (R66, R72). -/
def replyEarly (rq : Req) (st : Status) (s : State) : State :=
  let b := buildReply rq.port rq.opcode rq.tag st [] s.evt
  deliver rq.port b.1 { s with evt := b.2 }

/-- The reply of a request that passed steps 1 to 6 becomes ready, its bytes and the events left given: one for each
copy, kept for duplicates; PENDING keeps the tag outstanding (R66-R72). -/
def endReply (rq : Req) (st : Status) (b : List Byte × Evt) (s : State) : State :=
  let copies := match reqOutst rq s.hst with
    | some o => o.copies
    | none => []
  let rest := dropOutst rq.port rq.tag s.hst.outst
  let h := { s.hst with
    outst := if st = .pending
      then rest ++ [{ port := rq.port, tag := rq.tag, opcode := rq.opcode, crc := rq.crc, pend := true,
                      copies := [] }]
      else rest,
    pend := if st = .pending then s.hst.pend ++ [reqKey rq] else s.hst.pend,
    kept := keepReply s.hst.kept { port := rq.port, tag := rq.tag, opcode := rq.opcode, crc := rq.crc,
                                   bytes := b.1, at' := s.now } }
  let s1 := { s with hst := h, evt := b.2 }
  if wantsReply rq st then deliverAll (rq.port :: copies) b.1 s1 else s1

/-- The reply of a command that has run, with its piggybacked records. On the mailbox a request that wants no reply and
ends OK or PENDING leaves BUSY of its slot set, as no reply comes to clear it: DESIGN CHOICE (R87, log 18). -/
def finishReply (rq : Req) (st : Status) (payload : List Byte) (s : State) : State :=
  endReply rq st (if wantsReply rq st then buildReply rq.port rq.opcode rq.tag st payload s.evt else ([], s.evt)) s

/-- A PENDING command completes, once: HST_CMD_DONE is raised and its tag is free again (R68, R71). The
transport bits of a command that was forwarded to this device are not stated: a free value (log 21). -/
def cmdDone (k : PendKey) (st : Status) (s : State) : State :=
  if !s.hst.pend.contains k then s else
  let s1 := { s with hst := { s.hst with
    pend := s.hst.pend.erase k, outst := dropOutst k.port k.tag s.hst.outst } }
  let low := k.tag.toNat * 2 ^ 14 + k.opcode % 128 * 2 ^ 7 + st.code % 128
  match portCode k.port with
  | some c => raise evHstCmdDone (c * 2 ^ 22 + low) s1
  | none => raise evHstCmdDone (s1.fresh.1 % 4 * 2 ^ 22 + low) s1.fresh.2

/-- Every PENDING command that satisfies `p` completes with a status. -/
def doneAll (p : PendKey → Bool) (st : Status) (s : State) : State :=
  (s.hst.pend.filter p).foldl (fun a k => cmdDone k st a) s

/-! ## Engines -/

/-- The engine is configured as MAE, as LSE (R14). -/
def State.isMae (s : State) (e : Fin 4) : Bool := s.eng[e].kind == .mae
def State.isLse (s : State) (e : Fin 4) : Bool := s.eng[e].kind == .lse
/-- The engine is configured (R14). -/
def State.used (s : State) (e : Fin 4) : Bool := s.eng[e].kind != .unused
/-- Some engine is configured. -/
def State.anyUsed (s : State) : Bool := (List.finRange 4).any s.used

/-- Laser channel 6 n + k (R15). -/
def chan (n : Fin 4) (k : Nat) : Fin 24 := Fin.ofNat 24 (6 * n.val + k % 6)
/-- The engine and primary of a channel (R15). -/
def chanEng (c : Fin 24) : Fin 4 := Fin.ofNat 4 (c.val / 6)

/-- The fast domains are powered and out of isolation (R49 step 4 onwards, R552). -/
def State.fastUp (s : State) : Bool := s.hth.boot == .loading || s.hth.boot == .on

/-- A transition is in progress: BUSY of HTH_STATE (R35). The cold start before its state is reached counts. -/
def State.busy (s : State) : Bool := s.hth.trans.isSome || s.hth.boot == .hold

end Sys2Proof.Machine
end

