-- ==== Sys2Proof/Machine/Operands.lean ====
section
/-! DEFINITION. The operand forms of requests: the fields of FLAGS (R59), the LENGTH each opcode admits
(R494 and its entries), and the power and life-cycle states that serve it (R492). -/

namespace Sys2Proof.Machine

/-! ## FLAGS (R59) -/

def rqTarget (r : Req) : Nat := fld r.flags.toNat 4 4
def rqForward (r : Req) : Bool := bit r.flags.toNat 2
def rqSafety (r : Req) : Bool := bit r.flags.toNat 1
def rqReply (r : Req) : Bool := bit r.flags.toNat 0

/-- The opcodes of the opcode summary (R492). -/
def opcodes : List Nat :=
  [0x00, 0x01, 0x02, 0x03, 0x04, 0x05, 0x06, 0x08, 0x09, 0x10, 0x11, 0x12, 0x13, 0x18, 0x19, 0x1A, 0x20,
   0x21, 0x22, 0x28, 0x29, 0x30, 0x31, 0x32, 0x33, 0x34, 0x35, 0x38, 0x40, 0x41, 0x48, 0x50, 0x51, 0x58,
   0x59, 0x60, 0x68, 0x69, 0x6A, 0x70]

/-- The opcodes that may be broadcast (R492); TIMING_PROFILE with RATE only. -/
def broadcastOk (r : Req) : Bool :=
  [0x00, 0x05, 0x06, 0x09, 0x12, 0x28].contains r.opcode || (r.opcode == 0x38 && byteAt r.payload 0 == 1)

/-- The opcodes that may carry SAFETY = 1 (R76). -/
def safetyOk (op : Nat) : Bool := [0x18, 0x19, 0x1A, 0x00, 0x02, 0x04].contains op

/-- Step 4 of the request checks: reserved bit and TARGET (R59), the match of SAFETY with its CAN FD
identifier (R77), SAFETY (R76), FORWARD (R78, R79, R454). A packet that came over Brugo Link was checked
for SAFETY and FORWARD on the manager. Which status a packet gets that fails several of them is the order here, R454
before R78 among them: DESIGN CHOICE (log 70). -/
def flagCheck (s : State) (r : Req) : Option Status :=
  let t := rqTarget r
  if bit r.flags.toNat 3 || (8 ≤ t && t ≤ 14) then some .badParam
  else if (r.port == .canSafety && !rqSafety r) || (r.port == .canCmd && rqSafety r) then some .badParam
  else if r.port == .brugo then none
  else if rqSafety r && (!(r.port == .spi || r.port == .canSafety) || !safetyOk r.opcode) then some .badParam
  else if !rqSafety r && (r.opcode == 0x18 || r.opcode == 0x19) then some .deniedOwner
  else if rqForward r then
    if r.opcode == 0x18 || r.opcode == 0x19 then some .badParam
    else if s.hth.role ≠ 1 then some .wrongState
    else if t == 15 && !broadcastOk r then some .badParam
    else none
  else if t ≠ s.brg.devnum && t ≠ 15 then some .badParam
  else none

/-- LENGTH is N items of `k` bytes, N from 1 to `n` (R494). -/
def itemsOk (len k n : Nat) : Bool := len % k == 0 && decide (k ≤ len) && decide (len ≤ k * n)

/-- Step 6: the LENGTH that an opcode admits, a count field agreeing with it included (R494). -/
def lenOk (r : Req) : Bool :=
  let n := r.payload.length
  let data : Nat := if portLimit r.port = 1024 then 1012 else 4084
  match r.opcode with
  | 0x00 => n == 0 | 0x01 => n == 1 | 0x02 => n == 0 | 0x03 => n == 1 | 0x04 => n == 2
  | 0x05 => itemsOk n 2 128 | 0x06 => itemsOk n 4 64 | 0x08 => itemsOk n 2 128 | 0x09 => itemsOk n 6 128
  | 0x10 => n == 36 | 0x11 => n == 20 | 0x12 => n == 12 | 0x13 => n == 0
  | 0x18 => n == 4 || n == 12
  | 0x19 => decide (14 ≤ n) && decide (n ≤ 142) && n == 14 + 2 * byteAt r.payload 4
  | 0x1A => n == 0 | 0x20 => n == 36
  | 0x21 => if byteAt r.payload 1 = 2 then decide (8 ≤ n) && n == 8 + 8 * le16 r.payload 6 else n == 8
  | 0x22 => n == 68 | 0x28 => n == 8 | 0x29 => n == 36 | 0x30 => n == 12 | 0x31 => n == 116
  | 0x32 => n == 4 | 0x33 => n == 8 | 0x34 => n == 16 | 0x35 => n == 8
  | 0x38 => if byteAt r.payload 0 = 2 then decide (8 ≤ n) && n == 8 + 4 * le16 r.payload 6 else n == 8
  | 0x40 => n == 8 | 0x41 => n == 4 | 0x48 => n == 4 | 0x50 => n == 8 | 0x51 => n == 8 | 0x58 => n == 12
  | 0x59 => n == 4 | 0x60 => n == 4 | 0x68 => n == 32 | 0x69 => n == 68 || n == 12
  | 0x6A => match byteAt r.payload 0 with
    | 1 => n == 16 | 2 => n == 44 | 3 => n == 28 | 4 => n == 20
    | _ => n == 16 || n == 44 || n == 28 || n == 20
  | 0x70 => decide (12 ≤ n) && decide (n ≤ 12 + data)
  | _ => false

/-- STANDBY, READY and LIT. -/
def inSRL (p : PState) : Bool := p == .standby || p == .ready || p == .lit

/-- The parameter IDs of a PARAM_READ or PARAM_WRITE all belong to group 0x01 (R32). -/
def onlyGroup1 (k : Nat) (l : List Byte) : Bool :=
  (List.range (l.length / k)).all fun i => byteAt l (k * i + 1) == 1

/-- Step 9: a power state serves a request (R32, R33, R492, and R418, R467, R515, R534 by kind). -/
def stateOk (r : Req) (p : PState) : Bool :=
  let b := byteAt r.payload 0
  match r.opcode with
  | 0x00 | 0x01 | 0x02 | 0x03 | 0x04 | 0x05 | 0x06 | 0x19 | 0x29 | 0x68 => p != .off
  | 0x08 => p != .off && (p != .sleep || onlyGroup1 2 r.payload)
  | 0x09 => inSRL p || (p != .off && onlyGroup1 6 r.payload)
  | 0x34 | 0x35 => p == .ready || p == .lit
  | 0x38 => if b = 0 then p == .standby || p == .ready else inSRL p
  | 0x40 => p == .standby || p == .ready || p == .safe
  | 0x41 | 0x59 => inSRL p || p == .quench || p == .safe
  | 0x58 => match b with
    | 1 => p == .ready || p == .lit || p == .safe
    | 2 | 4 => p == .ready
    | 3 | 5 | 6 => p == .ready || p == .safe
    | _ => p == .ready || p == .lit || p == .safe
  | 0x69 => p == .ready || p == .safe
  | 0x70 => if b = 0x10 then p == .ready || p == .lit else inSRL p || p == .quench || p == .safe
  | _ => inSRL p

/-- Step 10: a life-cycle state serves a request (R492, and R418, R462, R465, R534 by kind and image). -/
def lcOk (r : Req) (lc : Nat) : Bool :=
  let b := byteAt r.payload 0
  match r.opcode with
  | 0x00 | 0x01 | 0x02 | 0x03 | 0x04 | 0x05 | 0x06 | 0x08 | 0x59 | 0x69 => true
  | 0x18 | 0x19 | 0x6A => lc == 2 || lc == 3
  | 0x58 => if 2 ≤ b ∧ b ≤ 6 then lc == 1 || lc == 4 else 1 ≤ lc && lc ≤ 4
  | 0x70 => if b = 3 ∨ b = 0x10 then lc == 2 || lc == 3 else 1 ≤ lc && lc ≤ 4
  | _ => 1 ≤ lc && lc ≤ 4

/-- The request may run deferred (R493). -/
def isDeferrable (op : Nat) : Bool := op == 0x12 || op == 0x20 || op == 0x32 || op == 0x40

/-- The request replies PENDING when it is accepted: the opcodes marked long (R68, R492), and those marked
(D) in STANDBY (R493). -/
def isLong (s : State) (r : Req) : Bool :=
  let b := byteAt r.payload 0
  (isDeferrable r.opcode && s.hth.pwr == .standby) ||
  match r.opcode with
  | 0x03 | 0x40 | 0x60 | 0x69 | 0x6A | 0x70 => true
  | 0x12 | 0x38 => rqForward r
  | 0x50 => b == 3
  | 0x58 => decide (2 ≤ b)
  | _ => false

/-- The resource that a long command holds while it is PENDING, as a number: training, the journal, the self-test, the
boot flash, OTP (R68, R470, R533). -/
def resourceOf (r : Req) : Option Nat :=
  match r.opcode with
  | 0x40 => some 1
  | 0x50 => if byteAt r.payload 0 = 3 then some 2 else none
  | 0x58 => if 2 ≤ byteAt r.payload 0 then some 3 else none
  | 0x60 | 0x70 => some 4
  | 0x69 | 0x6A => some 5
  | _ => none

/-- The long commands that were accepted and wait for the interpreter: each counts as PENDING from its arrival, so that
R68's limit of 8 holds when they start (log 70). -/
def longQueued (s : State) : List Req := s.hst.requests.filter (isLong s)

/-- The resource of a long command is held by a PENDING command (R68, R470, R533). For a request that the manager
forwards these are the manager's own resources: DESIGN CHOICE (R63 step 8, log 17). -/
def resourceHeld (s : State) (r : Req) : Bool :=
  match r.opcode with
  | 0x40 => s.grn.train.isSome
  | 0x50 => byteAt r.payload 0 == 3 && s.tmp.save.isSome
  | 0x58 => decide (2 ≤ byteAt r.payload 0) && s.bst.run.isSome
  | 0x60 | 0x70 => s.sec.flashJob.isSome
  | 0x69 | 0x6A => s.sec.otpJob.isSome
  | _ => false

/-- Step 8 of a long command fails: 8 are PENDING, or a PENDING or waiting one holds its resource (R63, R68). -/
def longBlocked (s : State) (r : Req) : Bool :=
  isLong s r && (decide (8 ≤ s.hst.pend.length + (longQueued s).length) || resourceHeld s r
    || ((resourceOf r).isSome && (longQueued s).any fun q => resourceOf q == resourceOf r))

/-- The power state and the transition accept a request: while a transition runs, both the state being left and the
state being entered must, at each of its steps (R43, R70; DEDUCED, log 25). -/
def State.accepts (s : State) (r : Req) : Bool :=
  match s.hth.trans with
  | some t => stateOk r t.leaving && stateOk r t.stepTo
  | none => stateOk r s.hth.pwr

/-- Steps 9 and 10 (R63). -/
def admission (s : State) (r : Req) : Option Status :=
  if !s.accepts r then some .wrongState
  else if !lcOk r s.otp.lifecycle then some .deniedLifecycle
  else none

end Sys2Proof.Machine
end

