-- ==== Sys2Proof/Machine/Transport.lean ====
section
/-! DEFINITION. Command packets and transports: the checks of an arriving request (R63), duplicates and
tags (R71, R72), the interpreter's order (R73-R75, R480), forwarding (R78-R80), and the rows of quad SPI,
the PCIe mailbox and CAN FD (R82-R93). -/

namespace Sys2Proof.Machine

/-! ## Arrival -/

/-- The packet a request was received as (R59). -/
def rqPacket (r : Req) : List Byte :=
  [0xA5, BitVec.ofNat 8 r.opcode, r.tag, r.flags] ++ leBytes 2 r.payload.length ++ r.payload ++ leBytes 4 r.crc

/-- A refusal at steps 8 to 10: the reply is kept for duplicates, the tag is not touched (R71, R72). -/
def refuseAt (rq : Req) (st : Status) (s : State) : State :=
  let b := buildReply rq.port rq.opcode rq.tag st [] s.evt
  deliver rq.port b.1 { s with
    evt := b.2,
    hst := { s.hst with kept := (keepReply s.hst.kept
      { port := rq.port, tag := rq.tag, opcode := rq.opcode, crc := rq.crc, bytes := b.1, at' := s.now }) } }

/-- A kept reply that makes the request a duplicate (R72): kept for 1 s. -/
def keptReply (rq : Req) (s : State) : Option Kept :=
  s.hst.kept.find? fun k => portSame k.port rq.port && k.tag == rq.tag && k.opcode == rq.opcode
    && k.crc == rq.crc && decide (s.now < k.at' + sec)

/-- A duplicate of a request whose reply is not yet ready is counted: it gets one reply more (R72). -/
def countCopy (rq : Req) (s : State) : State :=
  let bump (o : Outst) : Outst :=
    if portSame o.port rq.port && o.tag == rq.tag then { o with copies := o.copies ++ [rq.port] } else o
  { s with hst := { s.hst with outst := s.hst.outst.map bump } }

/-- The request joins the interpreter's queue, its tag outstanding (R71, R73). -/
def enqueue (rq : Req) (s : State) : State :=
  { s with hst := { s.hst with
      requests := s.hst.requests ++ [rq],
      outst := s.hst.outst ++ [{ port := rq.port, tag := rq.tag, opcode := rq.opcode, crc := rq.crc,
                                 pend := false, copies := [] }] } }

/-- Steps 8 to 10 of a request that is no duplicate, and its way into the queue. -/
def takeUp (rq : Req) (s : State) : State :=
  if s.hst.outst.any (fun o => portSame o.port rq.port && o.tag == rq.tag) then refuseAt rq .busy s
  else if longBlocked s rq then refuseAt rq .busy s
  else match admission s rq with
    | some st => refuseAt rq st s
    | none => enqueue rq s

/-- Steps 4 to 10 of the request checks (R63). -/
def arrive (rq : Req) (s : State) : State :=
  match flagCheck s rq with
  | some st => replyEarly rq st s
  | none =>
    if !opcodes.contains rq.opcode then replyEarly rq .badOpcode s
    else if !lenOk rq then replyEarly rq .badLength s
    else if rqSafety rq then takeUp rq s
    else match keptReply rq s with
      | some k => if k.bytes.isEmpty then s else deliver rq.port k.bytes s
      | none => match reqOutst rq s.hst with
        | some o => if o.pend then refuseAt rq .busy s else countCopy rq s
        | none => takeUp rq s

/-- A packet as it came off a transport: steps 1 to 3 of the request checks, then the others (R63-R65). DESIGN CHOICE
(log 70): bytes that a packet is too short to hold read 0 in its BAD_LENGTH reply, an empty packet gets neither reply
nor event, and a packet that came over Brugo Link has transport code 0 in HST_FRAMING_ERR and HST_CRC_ERR. -/
def packetIn (p : Port) (b : List Byte) (s : State) : State :=
  let tr := (portCode p).getD 0
  let n := le16 b 4
  let rq : Req := { port := p, opcode := byteAt b 1, tag := b.getD 2 0, flags := b.getD 3 0,
                    payload := slice b 6 n, crc := leNat (slice b (6 + n) 4), at' := s.now }
  if b.isEmpty then s
  else if byteAt b 0 ≠ 0xA5 then raise evHstFramingErr tr s
  else if b.length ≠ 10 + n ∨ b.length < 10 ∨ portLimit p < n then replyEarly rq .badLength s
  else if crc32c (b.take (6 + n)) ≠ rq.crc then
    raise evHstCrcErr tr (deliver p (replyPacket rq.opcode rq.tag Status.badCrc.code []) s)
  else arrive rq s

/-! ## The interpreter (R73-R75, R479-R481) -/

/-- Port numbers of the interpreter's arbiter (R74). -/
def portNo : Port → Nat
  | .spi => 0 | .mbx _ => 1 | .canCmd => 2 | .canSafety => 2 | .brugo => 3

/-- The first of a class: the earliest arrival, ties going to the first port at or above the pointer (R74,
R480). -/
def firstOf (ptr : Nat) (l : List Req) : Option Req :=
  let key (r : Req) : Nat := r.at' * 4 + (portNo r.port + 4 - ptr % 4) % 4
  l.foldl (fun a r => match a with
    | none => some r
    | some x => if key r < key x then some r else a) none

/-- The request that the interpreter grants next: safety-channel packets before all others (R75). -/
def granted (h : Hst) : Option Req :=
  match firstOf h.rotSafety (h.requests.filter rqSafety) with
  | some r => some r
  | none => firstOf h.rotFore (h.requests.filter fun r => !rqSafety r)

/-- A request waits for a forwarded one of its transport whose reply is not ready (R73); a forwarded TIMING_PROFILE has
replied PENDING. -/
def transportWaits (s : State) (r : Req) : Bool :=
  s.brg.fwds.any fun f => portSame f.rq.port r.port && f.rq.opcode != 0x38

/-- The request that the interpreter grants now (R73-R75). -/
def grantedNow (s : State) : Option Req :=
  granted { s.hst with requests := s.hst.requests.filter fun r => !transportWaits s r }

/-- The granted request leaves the queue and the pointer of its class moves on (R480). -/
def takeReq (rq : Req) (s : State) : State :=
  let nxt := (portNo rq.port + 1) % 4
  { s with hst := { s.hst with
      requests := s.hst.requests.erase rq,
      rotSafety := if rqSafety rq then nxt else s.hst.rotSafety,
      rotFore := if rqSafety rq then s.hst.rotFore else nxt } }

/-- The answer of a command's execution: the state, the status and the reply payload. -/
abbrev Ans := State × Status × List Byte

/-- A refusal: nothing changes. -/
def deny (st : Status) (s : State) : Ans := (s, st, [])

/-- A refusal that names its failing item (R495). -/
def denyItem (st : Status) (i : Nat) (s : State) : Ans := (s, st, leBytes 1 i)

/-! ## Forwarding (R78-R80) -/

/-- Device numbers that are present: the manager and the workers it has numbered (R79, R437). -/
def present (s : State) : List Nat := s.brg.devnum :: s.brg.workers.map (·.number)

/-- The opcodes whose payload names several items (R495). -/
def manyItems (op : Nat) : Bool := op == 0x05 || op == 0x06 || op == 0x09

/-- The broadcast reply payload (R79): a status per device, and the failing items where items are named. -/
def statusBytes (op : Nat) (st items : List (Nat × Nat)) : List Byte :=
  ((List.range 8).map fun n => BitVec.ofNat 8 ((look st n).getD 0xFF))
    ++ if manyItems op then (List.range 8).map fun n => BitVec.ofNat 8 ((look items n).getD 0xFF) else []

/-- The reply status of a broadcast: OK, or that of the lowest-numbered device that did not return OK. -/
def worstStatus (st : List (Nat × Nat)) : Status :=
  match (List.range 8).find? fun n => (look st n).getD 0 != 0 with
  | some n => Status.ofCode ((look st n).getD 0)
  | none => .ok

/-- A command relayed as PENDING stays pending on the worker (R68, R80). -/
def markFwd (k : PendKey) (s : State) : State :=
  let mark (x : PendKey) : PendKey := if x = k then { x with fwd := true } else x
  { s with hst := { s.hst with pend := s.hst.pend.map mark } }

/-- The manager returns a worker's reply on the request's transport (R80): with the records that rode on it where they
fit, else with its own (R81, log 22). One whose payload exceeds the transport's limit of R62 is answered BAD_LENGTH:
DESIGN CHOICE (log 70). -/
def relayReply (f : Fwd) (st : Status) (s : State) : State :=
  if portLimit f.rq.port < f.payload.length then finishReply f.rq .badLength [] s
  else if f.riders.isEmpty ∨ portLimit f.rq.port < f.payload.length + f.riders.length then
    finishReply f.rq st f.payload s
  else
    endReply f.rq st (if wantsReply f.rq st
      then (replyPacket f.rq.opcode f.rq.tag (st.code + 128) (f.payload ++ f.riders), s.evt) else ([], s.evt)) s

/-- A forwarded request all of whose devices have answered is answered on its transport (R79, R80); a forwarded
TIMING_PROFILE has replied PENDING and completes (R492). -/
def finishFwd (f : Fwd) (s : State) : State :=
  let s1 := { s with brg := { s.brg with fwds := s.brg.fwds.erase f } }
  let st := worstStatus f.status
  if f.rq.opcode = 0x38 then cmdDone (reqKey f.rq) st s1
  else if rqTarget f.rq = 15 then finishReply f.rq st (statusBytes f.rq.opcode f.status f.items) s1
  else
    let s2 := relayReply f st s1
    if st = .pending then markFwd (reqKey f.rq) s2 else s2

/-- A forwarded request waits for its devices, or is answered when none is left (R79, R80). -/
def holdFwd (f : Fwd) (s : State) : State :=
  let s1 := { s with brg := { s.brg with fwds := s.brg.fwds ++ [f] } }
  if f.waiting.isEmpty then finishFwd f s1 else s1

/-- A CMD message to a worker (R439). -/
def sendCmd (n : Nat) (rq : Req) (s : State) : State :=
  { s with brg := { s.brg with sent := .cmd n (rqPacket rq) :: s.brg.sent } }

/-- The requests that do not travel as CMD messages: COMMIT and a frame-rate change run as a barrier (R446, R448),
a broadcast LIGHT_LEVEL becomes a shared value (R451). -/
def ownForward (r : Req) : Bool :=
  r.opcode == 0x12 || (r.opcode == 0x38 && byteAt r.payload 0 == 1) || (r.opcode == 0x28 && rqTarget r == 15)

/-- A request runs: locally, on another device, or on all of them. -/
def execute (rq : Req) (body : Req → State → Ans) (s : State) : State :=
  match admission s rq with
  | some st => finishReply rq st [] s
  | none =>
    if rqForward rq && rq.port != .brugo && !ownForward rq && rqTarget rq != s.brg.devnum then
      if rqTarget rq = 15 then
        let a := body rq s
        let own := s.brg.devnum
        let others := s.brg.workers.map (·.number)
        let item := if a.2.1 != .ok && a.2.2.length = 1 then [(own, byteAt a.2.2 0)] else []
        holdFwd { rq := rq, waiting := others, status := [(own, a.2.1.code)], items := item,
                  due := s.now + 2 * ms, payload := [] }
          (others.foldl (fun x n => sendCmd n rq x) a.1)
      else
        let s1 := holdFwd { rq := rq, waiting := [rqTarget rq], status := [], items := [], due := s.now + 2 * ms,
                            payload := [] } (sendCmd (rqTarget rq) rq s)
        if rq.opcode = 0x38 then finishReply rq .pending [] s1 else s1
    else
      let a := body rq s
      finishReply rq a.2.1 a.2.2 a.1

/-- One step of the interpreter for an opcode row: a request that has not arrived yet arrives; it runs when
the interpreter grants it (R73-R75). A row whose request bears another opcode, or a device in reset hold,
does nothing. -/
def serve (op : Nat) (body : Req → State → Ans) (rq : Req) (s : State) : State :=
  if rq.opcode ≠ op ∨ s.hth.boot = .hold then s
  else
    let s1 := if s.hst.requests.contains rq then s else arrive rq s
    if grantedNow s1 = some rq then execute rq body (takeReq rq s1) else s1

/-- A command marked (D) (R493): in STANDBY the checks that do not need the clocks are made and it replies
PENDING, to run when READY is reached. -/
def deferrable (pre : Req → State → Option (Status × List Byte)) (body : Req → State → Ans)
    (rq : Req) (s : State) : Ans :=
  if s.hth.pwr = .standby then
    match pre rq s with
    | some r => (s, r.1, r.2)
    | none => ({ s with hst := { s.hst with deferred := s.hst.deferred ++ [rq] } }, .pending, [])
  else body rq s

/-! ## Activity of the Hearth controller (R28, R29, R40) -/

/-- The RC oscillator runs and the Hearth controller is active (R29, R40). -/
def wakeHearth (s : State) : State :=
  { s with hth := { s.hth with rcRun := true, lastActivity := s.now } }

/-- A packet reaches the Hearth: always outside SLEEP, in SLEEP where the wake source is enabled (R36). -/
def hearthHears (bitNo : Nat) (s : State) : Bool :=
  s.hth.boot != .hold && (s.hth.pwr != .sleep || wb s.hth.wakeConfig bitNo)

/-! ## Quad SPI (R82-R85) -/

/-- RX_BUSY (R83). -/
def rxBusy (s : State) : Bool :=
  match s.hst.spiBusyUntil with
  | some t => decide (s.now < t)
  | none => false

/-- SPI_WRITE_PACKET: RX_BUSY holds for a time within 200 us that the manual leaves open (R84, log 23). -/
def execSpiWritePacket (t : Time) (code : Nat) (bytes : List Byte) (s : State) : Out :=
  let s := s.at t
  if !hearthHears 3 s then .next s
  else
    let s := wakeHearth s
    if code = 0x02 then
      if rxBusy s then .next (raise evHstSpiOverrun 0 s)
      else
        let p := s.fresh
        .next (packetIn .spi bytes
          { p.2 with hst := { p.2.hst with spiBusyUntil := some (s.now + p.1 % (200 * us + 1)) } })
    else if code = 0x0B ∨ code = 0x05 then .next s
    else .next (raise evHstFramingErr 0 s)

/-- SPI_READ_REPLY: `n` bytes are clocked; a reply read to its end leaves the queue (R85). -/
def execSpiReadReply (t : Time) (n : Nat) (s : State) : Out :=
  let s := s.at t
  if !hearthHears 3 s then .next s
  else
    let s := wakeHearth s
    match s.hst.spiReplies with
    | [] => .next { s with hst := { s.hst with spiOut := List.replicate n 0 } }
    | b :: q => .next { s with hst := { s.hst with
        spiOut := b.take n ++ List.replicate (n - b.length) 0,
        spiReplies := if b.length ≤ n then q else b :: q } }

/-- The SPI status byte (R83). -/
def spiStatus (s : State) : Nat :=
  s.hst.spiReplies.length * 16 + b2n s.evt.intLow * 8 + b2n (s.evt.latched evHstSpiOverrun) * 4
    + b2n (rxBusy s) * 2 + b2n (!s.hst.spiReplies.isEmpty)

/-- SPI_READ_STATUS. -/
def execSpiReadStatus (t : Time) (s : State) : Out :=
  let s := s.at t
  if !hearthHears 3 s then .next s
  else
    let s := wakeHearth s
    .next { s with hst := { s.hst with spiOut := [BitVec.ofNat 8 (spiStatus s)] } }

/-! ## PCIe mailbox (R86-R88) -/

/-- BAR0 offsets of request and reply slot `n`, 8 KiB each (R86). -/
def mbxReqAddr (n : Fin 4) : Nat := 0x2000 + 0x2000 * n.val
def mbxReplyAddr (n : Fin 4) : Nat := 0xA000 + 0x2000 * n.val

/-- MBX_STATUS as a host reads it (R86). -/
def mbxStatus (s : State) : Nat :=
  s.hst.mbxErr.toNat * 2 ^ 24 + s.hst.mbxDone.toNat * 2 ^ 16 + s.hst.mbxBusy.toNat * 2 ^ 8

/-- The byte that a host reads at an offset of BAR0: MBX_STATUS, the slots, zero elsewhere (R86). -/
def bar0Byte (s : State) (a : Nat) : Byte :=
  if 4 ≤ a ∧ a < 8 then (leBytes 4 (mbxStatus s)).getD (a - 4) 0
  else if 0x2000 ≤ a ∧ a < 0xA000 then (s.hst.mbxReq[Fin.ofNat 4 ((a - 0x2000) / 0x2000)]).getD (a % 0x2000) 0
  else if 0xA000 ≤ a ∧ a < 0x12000 then (s.hst.mbxReply[Fin.ofNat 4 ((a - 0xA000) / 0x2000)]).getD (a % 0x2000) 0
  else 0

/-- MBX_DOORBELL with the bytes that the host has written into the slot it names: those of a busy slot have had no
effect (R87). -/
def execMbxDoorbell (t : Time) (value : Word) (slotBytes : List Byte) (s : State) : Out :=
  let s := s.at t
  let k : Fin 4 := Fin.ofNat 4 (value.toNat % 4)
  let m : BitVec 4 := BitVec.ofNat 4 (2 ^ k.val)
  if !s.hst.linkUp ∨ 4 ≤ value.toNat then .next s
  else if (s.hst.mbxBusy ||| s.hst.mbxDone) &&& m ≠ 0 then
    .next (raise evHstMbxErr m.toNat { s with hst := { s.hst with
      mbxErr := s.hst.mbxErr ||| m, mbxErrAt := upd s.hst.mbxErrAt k (some s.now),
      mbxReq := if s.hst.mbxBusy &&& m = 0 then upd s.hst.mbxReq k slotBytes else s.hst.mbxReq } })
  else
    let b := slotBytes ++ List.replicate (4106 - slotBytes.length) 0
    .next (packetIn (.mbx k) (b.take (10 + le16 b 4))
      { s with hst := { s.hst with mbxBusy := s.hst.mbxBusy ||| m, mbxReq := upd s.hst.mbxReq k slotBytes } })

/-- The bits of a W1C field that hardware set in this cycle: they stay set (R6). -/
def setNow (at' : Vector (Option Time) 4) (now : Time) : BitVec 4 :=
  BitVec.ofNat 4 (maskOf 4 fun i => at'[ix 3 i] == some now)

/-- MBX_STATUS_CLEAR: DONE and ERR bits are W1C (R6, R86). -/
def execMbxStatusClear (t : Time) (value : Word) (s : State) : Out :=
  let s := s.at t
  if !s.hst.linkUp then .next s
  else .next { s with hst := { s.hst with
    mbxDone := s.hst.mbxDone &&& (~~~(BitVec.ofNat 4 (wfl value 16 4)) ||| setNow s.hst.mbxDoneAt s.now),
    mbxErr := s.hst.mbxErr &&& (~~~(BitVec.ofNat 4 (wfl value 24 4)) ||| setNow s.hst.mbxErrAt s.now) } }

/-! ## CAN FD (R89-R93) -/

/-- The reassembly buffer of an RX identifier, and its replacement. -/
def reasm (safety : Bool) (s : State) : Reasm := if safety then s.hst.reSafety else s.hst.reCmd
def setReasm (safety : Bool) (r : Reasm) (s : State) : State :=
  if safety then { s with hst := { s.hst with reSafety := r } } else { s with hst := { s.hst with reCmd := r } }

/-- A reassembly is abandoned: HST_CAN_REASM, and a BAD_LENGTH reply when its header was received (R91). -/
def abandon (safety : Bool) (s : State) : State :=
  let r := reasm safety s
  let s1 := raise evHstCanReasm (b2n safety) (setReasm safety {} s)
  if r.bytes.length < 6 then s1
  else replyEarly { port := if safety then .canSafety else .canCmd, opcode := byteAt r.bytes 1,
                    tag := r.bytes.getD 2 0, flags := r.bytes.getD 3 0, payload := [], crc := 0, at' := s.now }
    .badLength s1

/-- A packet whose LAST frame has come: padding behind its last byte, inside the last frame, is ignored
(R90, R91). -/
def canPacket (safety : Bool) (bytes : List Byte) (last : Nat) (s : State) : State :=
  let n := 10 + le16 bytes 4
  let p : Port := if safety then .canSafety else .canCmd
  if 6 ≤ bytes.length ∧ n ≤ bytes.length ∧ bytes.length < n + last then packetIn p (bytes.take n) s
  else packetIn p bytes s

/-- A well-formed frame joins its reassembly; a packet that does not begin with SYNC is discarded (R64). -/
def canJoin (safety first last : Bool) (idx : Nat) (body : List Byte) (s : State) : State :=
  let r := reasm safety s
  let bytes := if first then body else r.bytes ++ body
  if first ∧ body ≠ [] ∧ byteAt body 0 ≠ 0xA5 then
    raise evHstFramingErr (2 + b2n safety) (setReasm safety {} s)
  else if last then canPacket safety bytes body.length (setReasm safety {} s)
  else setReasm safety { opened := true, bytes := bytes, index := idx, last := s.now } s

/-- CAN FD error-passive after bus activity: a free value, as the spec does not say when it changes (log 24). -/
def canErrors (s : State) : State :=
  { s.fresh.2 with hst := { s.hst with errPassive := s.fresh.1 % 2 == 1 } }

/-- The Hearth controller takes a frame out of the receive buffer (R90, R91). -/
def canTake (f : CanFrame) (s : State) : State :=
  let safety := f.ident == s.hth.can[1]
  let seg := byteAt f.data 0
  let first := bit seg 7
  let idx := seg % 32
  let s := if (reasm safety s).opened ∧ (reasm safety s).last + 10 * ms < s.now then abandon safety s else s
  let r := reasm safety s
  if bit seg 5 ∨ (first ∧ idx ≠ 0) then
    if r.opened then abandon safety s else raise evHstCanReasm (b2n safety) s
  else if first then
    canJoin safety first (bit seg 6) idx (f.data.drop 1) (if r.opened then abandon safety s else s)
  else if !r.opened then s
  else if idx ≠ r.index + 1 then abandon safety s
  else canJoin safety first (bit seg 6) idx (f.data.drop 1) s

/-- The front end buffers a frame: 16 fit, one more is lost (R28, R91). -/
def canBuffer (f : CanFrame) (s : State) : State :=
  { s with hst := { s.hst with canRx := if s.hst.canRx.length < 16 then s.hst.canRx ++ [f] else s.hst.canRx } }

/-- The Hearth controller empties the receive buffer, in order of arrival. Once the RC runs it does so within the same
command (log 18). -/
def canDrain (s : State) : State :=
  s.hst.canRx.foldl (fun a f => canTake f a) { s with hst := { s.hst with canRx := [] } }

/-- CAN_FRAME_RECEIVE: the acceptance filter passes FD frames on the two RX identifiers (R89). -/
def execCanFrameReceive (t : Time) (ident : Word) (fd : Bool) (data : List Byte) (s : State) : Out :=
  let s := canErrors (s.at t)
  if !hearthHears 2 s ∨ !fd ∨ s.hst.busOff ∨ data = [] ∨ !(ident == s.hth.can[1] || ident == s.hth.can[3]) then .next s
  else .next (canDrain (canBuffer ⟨ident, fd, data⟩ (wakeHearth s)))

/-- CAN_REASSEMBLY_TIMEOUT: more than 10 ms since the last frame of an open packet (R91). -/
def execCanReassemblyTimeout (t : Time) (safety : Bool) (s : State) : Out :=
  let s := s.at t
  let r := reasm safety s
  if r.opened ∧ r.last + 10 * ms < s.now then .next (abandon safety s) else .next s

/-- The next frame for the bus by class and rotation (R481): safety replies and event frames with a SAFETY
record, then other event frames, then other replies. -/
def canChoose (s : State) : CanWire :=
  let ev := match s.evt.canFrames with
    | [] => 0
    | f :: _ => if f.any fun r => r.sev == 3 then 2 else 1
  let saf := !s.hst.canSafetyTx.isEmpty
  if saf ∧ ev = 2 then (if s.hst.rotCan = 0 then .safety else .event)
  else if saf then .safety
  else if 1 ≤ ev then .event
  else if !s.hst.canCmdTx.isEmpty then .command
  else .none

/-- Bytes in the shortest CAN FD data length that holds them, padded with 0x00 (R90, R543). -/
def canPad (l : List Byte) : List Byte :=
  let n := (([0, 1, 2, 3, 4, 5, 6, 7, 8, 12, 16, 20, 24, 32, 48, 64] : List Nat).find? fun n => decide (l.length ≤ n)).getD
    l.length
  l ++ List.replicate (n - l.length) 0

/-- The next frame of a reply: its segment byte and up to 63 bytes of the packet (R90). -/
def canSegment (x : CanTx) : List Byte :=
  let first := b2n (x.sent == 0)
  let last := b2n (decide (x.bytes.length ≤ 63 * (x.sent + 1)))
  canPad (BitVec.ofNat 8 (first * 128 + last * 64 + x.sent % 32) :: slice x.bytes (63 * x.sent) 63)

/-- An event frame: a count byte and the records (R543). -/
def eventFrame (l : List Rec) : List Byte := canPad (leBytes 1 l.length ++ (l.map (recBytes false)).flatten)

/-- One frame of the reply at the head of a TX queue has been sent; 63 packet bytes travel in each (R90). -/
def canSentOne (q : List CanTx) : List CanTx × List (Fin 6 × Word) :=
  match q with
  | [] => ([], [])
  | x :: r => if x.bytes.length ≤ 63 * (x.sent + 1) then (r, x.applies)
              else ({ x with sent := x.sent + 1 } :: r, [])

/-- The frame that is on the wire: identifier and bytes (R89, R90, R543). -/
def canFrameOf (w : CanWire) (s : State) : List (Word × List Byte) :=
  match w with
  | .none => []
  | .safety => (s.hst.canSafetyTx.take 1).map fun x => (s.hth.can[(2 : Fin 6)], canSegment x)
  | .event => (s.evt.canFrames.take 1).map fun l => (s.hth.can[(5 : Fin 6)], eventFrame l)
  | .command => (s.hst.canCmdTx.take 1).map fun x => (s.hth.can[(4 : Fin 6)], canSegment x)

/-- CAN_FRAME_SENT: the frame on the wire, or else the next one, is complete. -/
def execCanFrameSent (t : Time) (s : State) : Out :=
  let s := canErrors (s.at t)
  if s.hst.busOff then .next s
  else
    let w := if s.hst.canWire = .none then canChoose s else s.hst.canWire
    let s : State := { s with hst := { s.hst with canOut := canFrameOf w s ++ s.hst.canOut } }
    let s1 := match w with
      | .none => s
      | .safety =>
        let q := canSentOne s.hst.canSafetyTx
        canApply q.2 { s with hst := { s.hst with canSafetyTx := q.1, rotCan := 1 } }
      | .event =>
        { s with evt := { s.evt with canFrames := s.evt.canFrames.drop 1 },
                 hst := { s.hst with rotCan := 0 } }
      | .command =>
        let q := canSentOne s.hst.canCmdTx
        canApply q.2 { s with hst := { s.hst with canCmdTx := q.1 } }
    .next { s1 with hst := { s1.hst with canWire := canChoose s1 } }

/-- CAN_BUS_OFF: queued replies are kept (R93). -/
def execCanBusOff (t : Time) (s : State) : Out :=
  let s := canErrors (s.at t)
  if s.hth.boot = .hold then .next s
  else .next (raise evHstCanBusoff 0 { s with hst := { s.hst with busOff := true, canWire := .none } })

/-- CAN_BUS_OFF_RECOVERY. -/
def execCanBusOffRecovery (t : Time) (s : State) : Out :=
  let s := canErrors (s.at t)
  .next { s with hst := { s.hst with busOff := false } }

/-- REPLY_CACHE_EXPIRY: replies kept for 1 s leave the cache (R72). -/
def execReplyCacheExpiry (t : Time) (s : State) : Out :=
  let s := s.at t
  .next { s with hst := { s.hst with kept := s.hst.kept.filter fun k => decide (s.now < k.at' + sec) } }

/-- The devices of a forwarded request that have not answered are answered for with TIMEOUT (R80). -/
def timeoutFwd (f : Fwd) : Fwd :=
  { f with waiting := [], status := f.status ++ f.waiting.map fun n => (n, Status.timeout.code) }

/-- FORWARD_TIMEOUT: 2 ms have passed since a request was forwarded (R80). -/
def execForwardTimeout (t : Time) (s : State) : Out :=
  let s := s.at t
  .next ((s.brg.fwds.filter fun f => decide (f.due ≤ s.now)).foldl (fun a f =>
    finishFwd (timeoutFwd f) { a with brg := { a.brg with fwds := a.brg.fwds.erase f } }) s)

end Sys2Proof.Machine
end

