-- ==== Sys2Proof/Machine/Anvil.lean ====
section
/-! DEFINITION. The Anvil layer: owner sessions and requests (R131-R138), optical verification
(R139-R144), who carries the telltales (R145-R149), and its rows. -/

namespace Sys2Proof.Machine

/-- The Anvil record changed. -/
def setAnv (f : Anv → Anv) (s : State) : State := { s with anv := f s.anv }

/-! ## Function states and blink (R134, R137) -/

/-- A state shows light at a blink phase of the 32.768 kHz clock: ON, the first half second of BLINK_SLOW,
the first quarter second of BLINK_FAST. -/
def stateOn (st : BitVec 2) (blink : Nat) : Bool :=
  if st = 1 then true
  else if st = 2 then decide (blink % 32768 < 16384)
  else if st = 3 then decide (blink % 16384 < 8192)
  else false

/-- The blink phase now (R137). -/
def State.blink (s : State) : Nat := evtTime s.now s.hth.timeBase

/-- The function of a number in the set that is in use. -/
def anvFn (s : State) (n : Nat) : Option AnvFn :=
  match s.anv.set with
  | some a => a.functions.find? fun f => f.num == n
  | none => none

/-- The zone of a number, when it is in use (R127). -/
def anvZone (s : State) (n : Nat) : Option AnvZone :=
  match s.anv.set with
  | some a => a.zones.find? fun z => z.num == n && z.valid
  | none => none

/-- The valid zones of an engine (R129). -/
def engZones (s : State) (e : Fin 4) : List AnvZone :=
  match s.anv.set with
  | some a => a.zones.filter fun z => z.valid && z.engine == e
  | none => []

/-! ## The fallback conditions (R145) -/

/-- An engine holding a valid zone is not lit or not configured. -/
def zoneDark (s : State) : Bool :=
  (List.finRange 4).any fun e => !(engZones s e).isEmpty && !(s.used e && s.frg.eng[e].lit)

/-- The order number of the first condition that holds, 0 for none (R145); a quench that is declared hands over
before the state is left (R392). -/
def fallback (s : State) : Nat :=
  if s.anv.set.isNone then 1
  else if s.anv.verifyFailed then 2
  else if s.anv.ownerStale then 3
  else if s.anv.imageStale then 4
  else if s.hth.pwr != .lit || s.thm.quenching || zoneDark s then 5
  else 0

/-- Who carries the telltales is judged again: a condition hands them to the matrix, ending probation; with
none left, probation begins while the matrix holds them (R145, R148). -/
def judgeHolder (s : State) : State :=
  let r := fallback s
  if r = 0 then
    setAnv (fun a => { a with
      reason := 0,
      probation := a.holderMatrix,
      probCount := if a.holderMatrix && a.probation then a.probCount else 0 }) s
  else
    let s1 := setAnv (fun a => { a with holderMatrix := true, reason := r, probation := false, probCount := 0 }) s
    raiseIf (!s.anv.holderMatrix) evAnvHandover r s1

/-- Verification fails (R144): the cause, the engine, and the count since the last entry to LIT. A failure that is found
while one stands, not restored yet, is reported again and is no new failure (log 66). -/
def verifyFail (cause engine : Nat) (s : State) : State :=
  judgeHolder (raise evAnvVerifyFail (engine % 4 * 256 + cause)
    (setAnv (fun a => { a with
      lastFail := cause,
      failsInLit := if a.verifyFailed then a.failsInLit else min 3 (a.failsInLit + 1),
      verifyFailed := true }) s))

/-! ## Owner sessions (R131-R133) -/

/-- The owner key, where the life cycle gives it effect (R466). -/
def ownerKey (s : State) : Option (List Byte) :=
  if s.otp.lifecycle = 2 ∨ s.otp.lifecycle = 3 then s.otp.owner else none

/-- The transport code in the claim's MAC and the OWNER field (R131, R151). -/
def ownerCode : Port → Nat
  | .canSafety => 2 | .canCmd => 2 | _ => 0

/-- A refused STEP = 1: after the fourth in a row claims are locked out for 10 s (R132). -/
def claimRefused (s : State) : Ans :=
  if 4 ≤ s.anv.claimFails + 1 then
    (raise evAnvClaimLockout 0
      (setAnv (fun a => { a with claimFails := 0, lockout := some (s.now + 10 * sec) }) s), .deniedOwner, [])
  else (setAnv (fun a => { a with claimFails := a.claimFails + 1 }) s, .deniedOwner, [])

/-- Claims are locked out (R132). -/
def lockedOut (s : State) : Bool :=
  match s.anv.lockout with
  | some t => decide (s.now < t)
  | none => false

/-- The NONCE that is still valid (R132). -/
def validNonce (s : State) : Option (List Byte) :=
  match s.anv.nonce with
  | some (n, t) => if s.now < t then some n else none
  | none => none

/-- ANVIL_CLAIM (R509, R131, R132). The NONCE is a free value. -/
def anvilClaimBody (rq : Req) (s : State) : Ans :=
  let p := rq.payload
  let step := byteAt p 0
  if s.hth.role = 2 then deny .wrongState s
  else if !zeroAt p 1 3 ∨ (step = 0 ∧ p.length ≠ 4) ∨ (step = 1 ∧ p.length ≠ 12) ∨ 2 ≤ step then deny .badParam s
  else match ownerKey s with
    | none => deny .deniedOwner s
    | some key =>
      if lockedOut s then deny .deniedOwner s
      else if step = 0 then
        let f := s.fresh
        let n := leBytes 8 f.1
        (setAnv (fun a => { a with nonce := some (n, s.now + sec) }) f.2, .ok, n)
      else match validNonce s with
        | none => claimRefused s
        | some n =>
          if slice p 4 8 = mac8 key (s.otp.uidBytes ++ n ++ leBytes 1 (ownerCode rq.port)) then
            (setAnv (fun a => { a with session := some ⟨n, rq.port⟩, lastSeq := 0, claimFails := 0 }) s, .ok, [])
          else claimRefused s

/-! ## Requests (R134-R137) -/

/-- The header of the reply that will go out with `len` payload bytes, piggyback counted: what a device MAC
covers (R137). -/
def replyHeader (rq : Req) (st : Status) (len : Nat) (s : State) : List Byte :=
  let n := if rq.port = .brugo then 0
    else piggyFit (portLimit rq.port) len (min 4 (s.evt.recs.filter fun r => r.piggy).length)
  [0x5A, BitVec.ofNat 8 rq.opcode, rq.tag, BitVec.ofNat 8 (st.code + if n = 0 then 0 else 128)]
    ++ leBytes 2 (len + if n = 0 then 0 else 8 * n + 1)

/-- The device MAC of R137 over reply bytes, zero without a session or key. -/
def deviceMac (s : State) (b : List Byte) : List Byte :=
  match s.anv.session, ownerKey s with
  | some x, some key => mac8 key (s.otp.uidBytes ++ x.nonce ++ b)
  | _, _ => List.replicate 8 0

/-- The entries of a request: function number and state code (R134). -/
def anvEntries (p : List Byte) : List (Nat × Nat) :=
  (List.range (byteAt p 4)).map fun i => (byteAt p (6 + 2 * i), byteAt p (7 + 2 * i))

/-- The checks of R135 after the first three. -/
def anvEntriesOk (s : State) (p : List Byte) : Bool :=
  let es := anvEntries p
  es.all (fun e => (anvFn s e.1).isSome && decide (e.2 < 4)) && decide ((es.map (·.1)).Nodup)
    && decide (byteAt p 5 < 2)

/-- A function takes a state; a change ends the lamp check of its lamp function (R39, R290). -/
def setFnState (n st : Nat) (s : State) : State :=
  let i : Fin 256 := Fin.ofNat 256 n
  let changed := s.anv.states[i] != BitVec.ofNat 2 st
  let s1 := setAnv (fun a => { a with states := upd a.states i (BitVec.ofNat 2 st) }) s
  match anvFn s n with
  | some f => if changed && decide (f.lamp < 48) && !s.hth.lampCheckEnded.contains f.lamp then
      { s1 with hth := { s1.hth with lampCheckEnded := f.lamp :: s1.hth.lampCheckEnded } } else s1
  | none => s1

/-- The reply of an accepted request (R510, R137). -/
def anvilReply (rq : Req) (seq : Nat) (s : State) : Ans :=
  let b := leBytes 4 seq
  (s, .ok, b ++ deviceMac s (replyHeader rq .ok 12 s ++ b))

/-- The owner timer starts: at the reset, and with every request that passes (R138). -/
def ownerTimer (s : State) : State :=
  setAnv (fun a => { a with ownerDue := some (s.now + a.reqTimeout.toNat * ms), ownerStale := false }) s

/-- A request that passed checks 1 to 3: SEQ is taken and the owner timer restarts (R135, R138). -/
def anvilAccepted (seq : Nat) (s : State) : State :=
  judgeHolder (setAnv (fun a => { a with lastSeq := seq }) (ownerTimer s))

/-- ANVIL_REQUEST (R135, R149). -/
def anvilRequestBody (rq : Req) (s : State) : Ans :=
  let p := rq.payload
  let n := byteAt p 4
  if s.hth.role = 2 then deny .wrongState s
  else match s.anv.session, ownerKey s with
    | some x, some key =>
      if !portSame x.port rq.port then deny .deniedOwner s
      else if slice p (6 + 2 * n) 8
          ≠ mac8 key (s.otp.uidBytes ++ x.nonce ++ (rqPacket rq).take (12 + 2 * n)) then
        (raise evAnvAuthFail ((portCode rq.port).getD 0) s, .deniedOwner, [])
      else if le32 p 0 ≤ s.anv.lastSeq then (raise evAnvSeqReject 0 s, .deniedOwner, [])
      else
        let s1 := anvilAccepted (le32 p 0) s
        if !anvEntriesOk s1 p then deny .badParam s1
        else if bit (byteAt p 5) 0 && s1.anv.verifyFailed
            && (s1.hth.pwr != .lit || decide (3 ≤ s1.anv.failsInLit)) then deny .wrongState s1
        else
          let s2 := (anvEntries p).foldl (fun a e => setFnState e.1 e.2 a) s1
          let s3 := if bit (byteAt p 5) 0 && s2.anv.verifyFailed then
              judgeHolder (setAnv (fun a => { a with verifyFailed := false }) s2) else s2
          anvilReply rq (le32 p 0) s3
    | _, _ => deny .deniedOwner s

/-- ANV_STATUS (R151). -/
def anvStatus (s : State) : Nat :=
  let a := s.anv
  let owner := match a.session with
    | some x => if ownerCode x.port = 2 then 2 else 1
    | none => 0
  a.lastFail * 2 ^ 24 + a.failsInLit * 2 ^ 18 + owner * 2 ^ 16 + a.failRun * 2 ^ 8 + a.reason * 16
    + b2n a.probation * 2 + b2n a.holderMatrix

/-- The 256 function states, four to a byte (R511). -/
def statesBytes (v : Vector (BitVec 2) 256) : List Byte :=
  (List.range 64).map fun i => BitVec.ofNat 8
    ((v[Fin.ofNat 256 (4 * i)]).toNat + (v[Fin.ofNat 256 (4 * i + 1)]).toNat * 4
      + (v[Fin.ofNat 256 (4 * i + 2)]).toNat * 16 + (v[Fin.ofNat 256 (4 * i + 3)]).toNat * 64)

/-- ANVIL_VERIFY_READ (R511). -/
def anvilVerifyReadBody (rq : Req) (s : State) : Ans :=
  let a := s.anv
  let cams := b2n a.cams[0].part + b2n a.cams[1].part * 2 + b2n a.cams[0].lost * 4 + b2n a.cams[1].lost * 8
  let en := wfl a.verifyConfig 2 2
  let cams := Nat.land cams (12 + en)
  let b := leBytes 4 (anvStatus s) ++ leBytes 4 a.lastSeq ++ leBytes 4 a.verdictFrame
    ++ leBytes 1 a.verdict ++ leBytes 1 cams ++ [0, 0] ++ statesBytes a.states
  let mac := if rqSafety rq then deviceMac s (replyHeader rq .ok 88 s ++ b) else List.replicate 8 0
  (s, .ok, b ++ mac)

def execAnvilClaim (t : Time) (rq : Req) (s : State) : Out := .next (serve 0x18 anvilClaimBody rq (s.at t))

def execAnvilRequest (t : Time) (rq : Req) (s : State) : Out :=
  .next (serve 0x19 anvilRequestBody rq (s.at t))

def execAnvilVerifyRead (t : Time) (rq : Req) (s : State) : Out :=
  .next (serve 0x1A anvilVerifyReadBody rq (s.at t))

/-- NONCE_EXPIRY: the NONCE was valid for 1 s (R132). -/
def execNonceExpiry (t : Time) (s : State) : Out :=
  let s := s.at t
  .next (if (validNonce s).isSome then s else setAnv (fun a => { a with nonce := none }) s)

/-- CLAIM_LOCKOUT_EXPIRY: 10 s have passed (R132). -/
def execClaimLockoutExpiry (t : Time) (s : State) : Out :=
  let s := s.at t
  .next (if lockedOut s then s else setAnv (fun a => { a with lockout := none }) s)

/-- OWNER_TIMEOUT: no request has passed within ANV_REQ_TIMEOUT (R138); on a worker the timeout plays no
part (R454). -/
def execOwnerTimeout (t : Time) (s : State) : Out :=
  let s := s.at t
  match s.anv.ownerDue with
  | some d =>
    if d ≤ s.now ∧ s.hth.role ≠ 2 then
      .next (judgeHolder (raise evAnvOwnerStale 0
        (setAnv (fun a => { a with ownerDue := none, ownerStale := true }) s)))
    else .next s
  | none => .next s

/-- A slot of a mirror array is shown dark: it delivers no energy (R141). -/
def slotUnlit (e : Fin 4) (n : Nat) (s : State) : State :=
  setAnv (fun a => { a with
    expect := a.expect.map fun x => if x.engine = e ∧ x.idx = n then { x with lit := false } else x }) s

/-! ## Frame verdicts (R139-R141, R144, R148) -/

/-- The energy measured for an expectation, dark reference subtracted (R139): 0 for a slot that was dark. -/
def measured (m : List Meas) (x : Expect) : Nat :=
  if !x.lit then 0
  else match m.find? fun r => r.idx == x.idx && r.ch == x.ch with
    | some r => r.energy - r.dark
    | none => 0

/-- A slot or zone is judged and fails (R139). One that was shown dark delivers nothing (R141). -/
def slotFails (cfg floor : Word) (m : List Meas) (x : Expect) : Bool :=
  let y : Frac := ⟨measured m x, 1⟩
  let tol := (Frac.mk (wfl cfg 24 8) 256).mul x.e
  x.bearing && (Frac.mk floor.toNat 1).le x.e
    && ((x.e.add tol).lt y || (y.add tol).lt x.e)

/-- The energy delivered to the Anvil-bearing slots of the engines that `f` takes is less than FRAME_MIN of what their
Sheafs planned for them (R141). -/
def frameLow (cfg : Word) (m : List Meas) (l : List Expect) (f : Fin 4 → Bool) : Bool :=
  let b := l.filter fun x => f x.engine && x.bearing && x.planned.isSome
  let planned := (b.filterMap (·.planned)).foldl Frac.add ⟨0, 1⟩
  (Frac.mk (sumN (b.map (measured m))) 1).lt ((Frac.mk (wfl cfg 16 8) 256).mul planned)

/-- The cause and engine of a FAIL verdict, none for a frame that does not fail (R141, R151). The total is that of the
device; the engine reported is the first whose own slots are low (log 59). -/
def frameFault (s : State) (m : List Meas) : Option (Nat × Nat) :=
  match s.anv.expectEnded.find? (slotFails s.anv.verifyConfig s.anv.energyFloor m) with
  | some x => some (1, x.engine.val)
  | none =>
    let low := frameLow s.anv.verifyConfig m s.anv.expectEnded
    if low fun _ => true then some (2, (((List.finRange 4).find? fun e => low (· == e)).map (·.val)).getD 0) else none

/-- A verdict that is not FAIL counts in probation; the eighth returns the telltales (R148). -/
def probationStep (s : State) : State :=
  if !s.anv.probation then s
  else if 8 ≤ s.anv.probCount + 1 then
    raise evAnvRestored 0
      (setAnv (fun a => { a with probation := false, probCount := 0, holderMatrix := false }) s)
  else setAnv (fun a => { a with probCount := a.probCount + 1 }) s

/-- The verdict is recorded with the count of the frame start that began the judged period (R511, log 66). -/
def recordVerdict (v : Nat) (s : State) : State :=
  setAnv (fun a => { a with verdict := v, verdictFrame := (s.cmp.frameCount + (2 ^ 32 - 1)) % 2 ^ 32 }) s

/-- FRAME_VERDICT (R141). A FAIL ends probation (R148); with no condition of R145 left the next judging of the holder begins
it again (log 66). -/
def execFrameVerdict (t : Time) (meas : List Meas) (s : State) : Out :=
  let s := s.at t
  if s.hth.pwr != .lit then .next s
  else if !s.anv.onEnded then .next (probationStep (recordVerdict 0 s))
  else match frameFault s meas with
    | none => .next (probationStep (setAnv (fun a => { a with failRun := 0 }) (recordVerdict 1 s)))
    | some c =>
      let s1 := setAnv (fun a => { a with
        failRun := min 15 (a.failRun + 1), probation := false, probCount := 0 }) (recordVerdict 2 s)
      if wfl s1.anv.verifyConfig 4 2 ≤ s1.anv.failRun then .next (verifyFail c.1 c.2 s1) else .next s1

/-! ## Cameras (R142, R143) -/

/-- The camera's record changed. -/
def setCam (c : Fin 2) (f : Cam → Cam) (s : State) : State :=
  setAnv (fun a => { a with cams := updWith a.cams c f }) s

/-- A function shone during the exposure: the image lit in the last whole frame period (R13, R142). -/
def camShone (s : State) (fn : Nat) : Bool := stateOn s.anv.seenStates[Fin.ofNat 256 fn] s.anv.seenBlink

/-- The functions in view that a frame tests: at most 16, in rotation by function number from where the last frame's
ended (R142). -/
def camPick (s : State) (c : Fin 2) (tests : List CamTest) : List CamTest :=
  let of (l : List Nat) : List CamTest := l.filterMap fun n => if (anvFn s n).isSome then tests.find? (·.fn == n) else none
  let r := s.anv.cams[c].rotate
  (of ((List.range 256).filter (r ≤ ·)) ++ of (List.range r)).take 16

/-- How one tested function is judged: the cause code of a failure, 0 for a pass (R142, R151). An off function without a
passing on-level before it passes (log 66). -/
def camJudge (s : State) (c : Fin 2) (x : CamTest) : Nat :=
  if camShone s x.fn then (if x.corr < wfl s.anv.verifyConfig 8 8 then 3 else 0)
  else match look s.anv.cams[c].levels x.fn with
    | some lvl => if lvl < 10 * (x.mean - x.background) then 4 else 0
    | none => 0

/-- One tested function of a judged camera frame: two failing judgements in a row fail verification. -/
def camTest (c : Fin 2) (x : CamTest) (s : State) : State :=
  let j := camJudge s c x
  let before := s.anv.cams[c].failed.contains x.fn
  let on := camShone s x.fn
  let eng := match anvFn s x.fn with
    | some f => match anvZone s f.zone with
      | some z => z.engine.val
      | none => 0
    | none => 0
  let s1 := setCam c (fun k => { k with
    failed := if j = 0 then k.failed.filter (· != x.fn) else if before then k.failed else x.fn :: k.failed,
    levels := if j = 0 && on then put k.levels x.fn (x.mean - x.background) else k.levels }) s
  if j ≠ 0 ∧ before then verifyFail j eng s1 else s1

/-- The camera takes part: enabled and not lost (R143, R151). -/
def camActive (s : State) (c : Fin 2) : Bool := wb s.anv.verifyConfig (2 + c.val) && s.anv.cams[c].part

/-- ING_CSI_STATUS after camera activity: receiving or not as `r` says, the frame's format and size, which the rows
do not carry, free values (R549, log 11). -/
def csiStatus (cam : Fin 2) (r : Nat) (s : State) : State :=
  { s.fresh.2 with ing := { s.ing with csi := upd s.ing.csi cam (toW (r * 2 ^ 31 + s.fresh.1 % 2 ^ 30)) } }

/-- CAMERA_FRAME (R142): at most 16 functions of a judgeable frame are tested; `tests` holds what the Gleaner measures of the
functions in the camera's view. -/
def execCameraFrame (t : Time) (cam : Fin 2) (crcErr covers quiet : Bool) (tests : List CamTest)
    (s : State) : Out :=
  let s := s.at t
  if !s.fastUp then .next s
  else if crcErr then .next (raise evIngCsiErr (2 ^ cam.val) s)
  else if !camActive s cam || !covers || !quiet then .next (csiStatus cam 1 s)
  else
    let l := camPick s cam tests
    .next (l.foldl (fun a x => camTest cam x a) (setCam cam (fun k => { k with
      last := s.now, rotate := (l.getLast?.map fun x => (x.fn + 1) % 256).getD k.rotate }) (csiStatus cam 1 s)))

/-- CAMERA_TIMEOUT (R143). The engine of a camera-lost failure is not stated: a free value (log 11). -/
def execCameraTimeout (t : Time) (cam : Fin 2) (s : State) : Out :=
  let s := s.at t
  if !s.fastUp || !camActive s cam || decide (s.now < s.anv.cams[cam].last + s.anv.camTimeout.toNat * ms) then
    .next s
  else
    let s1 := raise evAnvCamLost (2 ^ cam.val)
      (setCam cam (fun k => { k with part := false, lost := true }) (csiStatus cam 0 s))
    if wb s.anv.verifyConfig 1 then .next (verifyFail 5 s1.fresh.1 s1.fresh.2) else .next s1

/-- GLYPH_RELOAD_COMPLETE: the glyph is drawn again from the next image on (R128). -/
def execGlyphReloadComplete (t : Time) (s : State) : Out :=
  let s := s.at t
  .next (setAnv (fun a => { a with badGlyphs := [] }) s)

/-! ## The Anvil image of a frame start (R128, R136, R145-R147) -/

/-- Store errors found in this frame (R128). -/
def anvEcc (e : Option (Nat × Bool)) (s : State) : State :=
  match e with
  | none => s
  | some (g, unc) =>
    raiseEcc g unc (if unc then setAnv (fun a => { a with badGlyphs := g :: a.badGlyphs }) s else s)

/-- The image can be drawn: the store has every glyph it needs and the drawing succeeded (R128, R146). -/
def anvDrawable (ok : Bool) (s : State) : Bool := ok && s.anv.badGlyphs.isEmpty && s.anv.set.isSome

/-- The states and blink phase an image takes: on a worker those of the last mirror, on a manager those of the
mirror it sent for this frame (R136, R453, R454). -/
def anvSource (s : State) : Vector (BitVec 2) 256 × Nat :=
  match s.brg.mirror with
  | some m =>
    if s.hth.role = 2 ∨ (s.hth.role = 1 ∧ m.frame = s.brg.frame) then
      (tab 256 fun i => BitVec.ofNat 2 (m.states.getD i.val 0), m.blink)
    else (s.anv.states, s.blink)
  | none => (s.anv.states, s.blink)

/-- The Anvil image of a frame start: drawn with the states held now, or the last one shown again; more
than 2 frames without one is condition 4 (R136, R145, R146). -/
def anvImage (ok : Bool) (s : State) : State :=
  let src := anvSource s
  if anvDrawable ok s then
    setAnv (fun a => { a with drawn := src.1, drawnBlink := src.2, imageAge := 0, imageStale := false }) s
  else
    let age := s.anv.imageAge + 1
    let stale := decide (2 < age) && s.anv.set.isSome
    raiseIf (stale && !s.anv.imageStale) evAnvImageStale 0
      (setAnv (fun a => { a with imageAge := age, imageStale := stale || a.imageStale }) s)

/-- The images of the frames in flight move on: what was composed is lit (R13, R141). -/
def anvFlight (a : Anv) : Anv :=
  { a with onEnded := a.onLit, onLit := a.onDrawn, expectEnded := a.expect, seenStates := a.litStates,
           seenBlink := a.litBlink, litStates := a.drawn, litBlink := a.drawnBlink }

/-- Whether some function of the set is on in the drawn image (R141). -/
def anvAnyOn (s : State) : Bool :=
  match s.anv.set with
  | some a => a.functions.any fun f => stateOn s.anv.drawn[Fin.ofNat 256 f.num] s.anv.drawnBlink
  | none => false

/-- The Anvil part of a frame start: store errors, image, the on-flags of the frames in flight, the holder,
and whether the zones are composed empty (R147). -/
def anvFrame (ecc : Option (Nat × Bool)) (ok : Bool) (s : State) : State :=
  let s1 := judgeHolder (anvImage ok (anvEcc ecc (setAnv anvFlight s)))
  setAnv (fun a => { a with onDrawn := anvAnyOn s1, zonesEmpty := decide (a.reason ≠ 0) }) s1

end Sys2Proof.Machine
end

