-- ==== Sys2Proof/Machine/Layers.lean ====
section
/-! DEFINITION. Layers, fences and the mirror: descriptors (R98, R99), the shadow commands (R505, R506),
the checks a commit makes on a layer and on the mirror (R104, R105, R110, R122, R123), readiness and
release at a frame start (R116-R120). -/

namespace Sys2Proof.Machine

/-! ## Descriptor fields (R98) -/

/-- Field [lo + w - 1 : lo] of a descriptor. -/
def lyr (d : Layer) (lo w : Nat) : Nat := fld d.toNat lo w

def lyFence (d : Layer) : Nat := lyr d 224 32
def lyAddr (d : Layer) : Nat := lyr d 192 32
def lyPitch (d : Layer) : Nat := lyr d 176 16
def lySrcX (d : Layer) : Nat := lyr d 162 14
def lySrcY (d : Layer) : Nat := lyr d 148 14
def lySrcW (d : Layer) : Nat := lyr d 134 14
def lySrcH (d : Layer) : Nat := lyr d 120 14
def lyDstX (d : Layer) : Nat := lyr d 106 14
def lyDstY (d : Layer) : Nat := lyr d 92 14
def lyDstW (d : Layer) : Nat := lyr d 78 14
def lyDstH (d : Layer) : Nat := lyr d 64 14
def lyAlpha (d : Layer) : Nat := lyr d 56 8
def lyFormat (d : Layer) : Nat := lyr d 51 5
def lySource (d : Layer) : Nat := lyr d 49 2
def lyMask (d : Layer) : Nat := lyr d 45 4
def lyDepth (d : Layer) : Nat := lyr d 43 2
def lyBlend (d : Layer) : Nat := lyr d 41 2
def lyTransfer (d : Layer) : Nat := lyr d 39 2
def lyPrims (d : Layer) : Nat := lyr d 37 2
def lyMatrix (d : Layer) : Nat := lyr d 35 2
def lyRange (d : Layer) : Bool := d.toNat.testBit 34
def lyRetain (d : Layer) : Bool := d.toNat.testBit 33
def lyEnable (d : Layer) : Bool := d.toNat.testBit 32

/-- The layer takes its source from a DP input. -/
def lyIsDp (d : Layer) : Bool := lySource d == 1 || lySource d == 2

/-- The DP input of a DP layer. -/
def lyDp (d : Layer) : Fin 2 := if lySource d = 2 then 1 else 0

/-- Bytes per pixel of a surface format (R101). -/
def formatBytes (f : Nat) : Nat := if f = 3 then 8 else if f = 4 ∨ f = 5 then 2 else 4

/-- The field checks of R99, R2 and R4 on a descriptor. -/
def lyFieldsOk (d : Layer) : Bool :=
  lyr d 0 32 == 0 && lySource d != 3 && lyBlend d != 3 && lyTransfer d != 3 && lyPrims d != 3
    && lyMatrix d != 3 && decide (lySrcW d ≤ 8192) && decide (lySrcH d ≤ 8192)
    && (lyIsDp d || (decide (lyAddr d < 0x4000000) && decide (lyFormat d ≤ 5)))

/-- The shadow of one layer replaced. -/
def setShadow (n : Fin 16) (d : Layer) (s : State) : State :=
  { s with cmp := { s.cmp with shadow := upd s.cmp.shadow n d } }

/-- LAYER_DEFINE (R505, R99). -/
def layerDefineBody (rq : Req) (s : State) : Ans :=
  let p := rq.payload
  let n := byteAt p 0
  let d : Layer := BitVec.ofNat 256 (leNat (slice p 4 32))
  if 16 ≤ n ∨ !zeroAt p 1 3 ∨ !lyFieldsOk d then deny .badParam s
  else (setShadow (Fin.ofNat 16 n) d s, .ok, [])

/-- A descriptor with field [lo + w - 1 : lo] replaced. -/
def lySet (d : Layer) (lo w v : Nat) : Layer := BitVec.ofNat 256 (setFld d.toNat lo w v)

/-- LAYER_SHADOW (R506, R99): the groups named by GROUPS. -/
def layerShadowBody (rq : Req) (s : State) : Ans :=
  let p := rq.payload
  let n := byteAt p 0
  let g := byteAt p 1
  let d0 := s.cmp.shadow[Fin.ofNat 16 n]
  let d1 := if bit g 0 then lySet (lySet d0 224 32 (le32 p 4)) 192 32 (le32 p 8) else d0
  let d2 := if bit g 1 then lySet (lySet d1 106 14 (le16 p 12)) 92 14 (le16 p 14) else d1
  let d3 := if bit g 2 then lySet d2 56 8 (byteAt p 16) else d2
  if 16 ≤ n ∨ g = 0 ∨ 8 ≤ g ∨ !zeroAt p 2 2 ∨ !zeroAt p 17 3
      ∨ (bit g 1 ∧ (16384 ≤ le16 p 12 ∨ 16384 ≤ le16 p 14)) ∨ !lyFieldsOk d3 then deny .badParam s
  else (setShadow (Fin.ofNat 16 n) d3 s, .ok, [])

def execLayerDefine (t : Time) (rq : Req) (s : State) : Out :=
  .next (serve 0x10 layerDefineBody rq (s.at t))

def execLayerShadow (t : Time) (rq : Req) (s : State) : Out :=
  .next (serve 0x11 layerShadowBody rq (s.at t))

/-! ## What a commit checks on a layer (R104, R105, R110) -/

/-- A rejection: element, reason, DETAIL (R110). -/
structure Reject where
  element : Nat
  reason : Nat
  detail : Nat
deriving DecidableEq, Repr

def Reject.bytes (r : Reject) : List Byte := leBytes 1 r.element ++ leBytes 1 r.reason ++ leBytes 2 r.detail

/-- A number saturated to 16 bits. -/
def sat16 (n : Nat) : Nat := min n 0xFFFF

/-- A ratio w / d between 1/8 and 8 with both sides set (R104). -/
def ratioOk (w d : Nat) : Bool := w != 0 && d != 0 && decide (d ≤ 8 * w) && decide (w ≤ 8 * d)

/-- Buffer lines L of R105 for the vertical ratio h / d. -/
def bufferLines (h d : Nat) : Nat := if h ≤ d then 4 else 4 * cdiv h d

/-- The end of the surface region (R355). -/
def surfaceEnd (s : State) : Nat := if s.grn.stacksUsed = 3 then 0x380000000 else 0x1C0000000
/-- Its start. -/
def surfaceStart : Nat := 0x160400000

/-- Depth slices of an engine under a CLW_DEPTHS value: 1 for an LSE (R174). -/
def depthsOf (s : State) (v : Word) (e : Fin 4) : Nat :=
  if s.isMae e then wfl v (2 * e.val) 2 + 1 else 1

/-- Bytes per pixel of a stored DP stream (R101). -/
def dpBytes (c : DpColour) : Nat := if c.bpc ≤ 10 then 4 else 8

/-- Bytes per pixel that a layer's fetch counts (R26, R101). -/
def layerBpp (s : State) (d : Layer) : Nat :=
  if lyIsDp d then dpBytes s.ing.dp[lyDp d].col else formatBytes (lyFormat d)

/-- The first engine that a layer names in vain: not configured, or with no slice at its DEPTH (R110). -/
def layerEngineFault (s : State) (depths : Word) (d : Layer) : Option Nat :=
  match (List.finRange 4).find? fun e => bit (lyMask d) e.val
      && (!s.used e || decide (depthsOf s depths e ≤ lyDepth d)) with
  | some e => some e.val
  | none => none

/-- An HBM crop lies inside the surface region (R110, R355, R356): its first line to its last byte. -/
def sourceInRange (s : State) (d : Layer) : Bool :=
  let base := lyAddr d * 256
  let bpp := formatBytes (lyFormat d)
  let first := base + lySrcY d * (lyPitch d * 64) + lySrcX d * bpp
  let last := base + (lySrcY d + lySrcH d - 1) * (lyPitch d * 64) + (lySrcX d + lySrcW d) * bpp
  decide (surfaceStart ≤ first) && decide (last ≤ surfaceEnd s)

/-- The checks of one enabled layer but for the fetch budget, in the order of log 30. -/
def layerReject (s : State) (depths : Word) (n : Nat) (d : Layer) : Option Reject :=
  let l := bufferLines (lySrcH d) (lyDstH d)
  if !ratioOk (lySrcW d) (lyDstW d) || !ratioOk (lySrcH d) (lyDstH d) then some ⟨n, 0x04, 0⟩
  else if 131072 < lySrcW d * l then some ⟨n, 0x03, l⟩
  else if !lyIsDp d && !sourceInRange s d then some ⟨n, 0x05, 0⟩
  else if !lyIsDp d && decide (lyPitch d * 64 < (lySrcX d + lySrcW d) * formatBytes (lyFormat d)) then
    some ⟨n, 0x06, 0⟩
  else if 16384 < lyDstX d + lyDstW d ∨ 16384 < lyDstY d + lyDstH d then some ⟨n, 0x07, 0⟩
  else match layerEngineFault s depths d with
    | some e => some ⟨n, 0x08, e⟩
    | none => none

/-- The layers of a shadow set in ascending number with the running fetch sum of R26, in mHz-bytes; `f` is
the frame rate in mHz. 256.0 GB/s is 256e12 of that unit. -/
def layersReject (s : State) (depths : Word) (f : Nat) : List (Nat × Layer) → Nat → Option Reject
  | [], _ => none
  | (n, d) :: r, sum =>
    if !lyEnable d then layersReject s depths f r sum
    else match layerReject s depths n d with
      | some x => some x
      | none =>
        let sum' := sum + lySrcW d * lySrcH d * layerBpp s d * f
        if 256000000000000 < sum' then some ⟨n, 0x02, sat16 (cdiv sum' 1000000000000)⟩
        else layersReject s depths f r sum'

/-! ## Engine configuration and mirror (elements 0x30 and 0x31) -/

/-- The frame rate, in mHz, that budgets use: the rate in force, or the larger of a ramp's rates (R25). -/
def budgetRate (s : State) : Nat :=
  match s.tng.bellows with
  | some b => max b.f1 b.f2
  | none => s.tng.rate

/-- Compositor demand of R25 in pixel-mHz under a depth setting and a rate. -/
def pixelDemand (s : State) (depths : Word) (f : Nat) : Nat :=
  sumN ((List.finRange 4).map fun e =>
    if s.used e then s.eng[e].w * s.eng[e].h * depthsOf s depths e * f else 0)

/-- Origin of an engine in the canvas (R96). -/
def canvasX (v : Word) : Nat := wfl v 0 14
def canvasY (v : Word) : Nat := wfl v 16 14

/-- The mirror's bits per component, lanes and lane rate in bit/s (R123, R125). -/
def mirrorBpc (c : Word) : Nat := if wfl c 10 2 = 1 then 10 else 8
def mirrorLanes (c : Word) : Nat := 2 ^ wfl c 14 2
def mirrorLaneRate (c : Word) : Nat := if wfl c 12 2 = 1 then 13090000000 else 9697000000

/-- The output limits of R123 at a frame rate in mHz. -/
def mirrorLinkOk (s : State) (f : Nat) : Bool :=
  let c := s.ing.dptxConfig
  let d := wfl c 8 2 + 1
  let px := wfl s.ing.dptxH 16 14 * wfl s.ing.dptxV 16 14 * f
  decide (px ≤ 1200000000 * 1000 * d)
    && decide (px * 3 * mirrorBpc c ≤ mirrorLanes c * mirrorLaneRate c * 1000 * d)

/-- The mirror window against its source engine: configured, inside the engine's rectangle, and within
the mirror scaler (R122). The answer is reason and DETAIL. -/
def mirrorWindow (s : State) (org size : Word) (canvas : Vector Word 4) : Option (Nat × Nat) :=
  let e : Fin 4 := Fin.ofNat 4 (wfl org 30 2)
  let x := wfl org 0 14
  let y := wfl org 16 14
  let w := wfl size 0 14
  let h := wfl size 16 14
  let l := bufferLines h (wfl s.ing.dptxV 0 14)
  if !s.used e then some (0x08, e.val)
  else if x < canvasX canvas[e] ∨ y < canvasY canvas[e] ∨ canvasX canvas[e] + s.eng[e].w < x + w
      ∨ canvasY canvas[e] + s.eng[e].h < y + h ∨ 16384 < x + w ∨ 16384 < y + h then some (0x07, 0)
  else if !ratioOk w (wfl s.ing.dptxH 0 14) || !ratioOk h (wfl s.ing.dptxV 0 14) then some (0x04, 0)
  else if 131072 < w * l then some (0x03, l)
  else none

/-! ## Readiness, not-ready rule and release (R116-R120) -/

/-- The fence value a frame start samples: a write in the same cycle is seen at the next one (R117). -/
def sampledFence (s : State) (n : Fin 16) : Word :=
  if s.cmp.fenceAt[n] = s.now ∧ s.now ≠ 0 then s.cmp.fenceOld[n] else s.cmp.fence[n]

/-- A fence register written by the producer or a command (R116). -/
def writeFence (n : Fin 16) (v : Word) (s : State) : State :=
  { s with cmp := { s.cmp with
      fenceOld := if s.cmp.fenceAt[n] = s.now ∧ s.now ≠ 0 then s.cmp.fenceOld
                  else upd s.cmp.fenceOld n s.cmp.fence[n],
      fence := upd s.cmp.fence n v, fenceAt := upd s.cmp.fenceAt n s.now } }

/-- The buffer of an HBM layer is ready: the fence is not behind the descriptor's (R116). -/
def fenceReady (v : Word) (fence : Nat) : Bool := (v - BitVec.ofNat 32 fence).msb == false

/-- A DP input can be shown at its crop (R120). -/
def dpReady (s : State) (i : Fin 2) : Bool :=
  let d := s.ing.dp[i]
  d.locked && !d.tooFast && !d.stale && match d.frameAt with
    | some t => decide (s.now ≤ t + s.ing.dpStale.toNat * ms)
    | none => false

/-- A layer's buffer is ready at this frame start (R116, R120). -/
def layerReady (s : State) (n : Fin 16) (d : Layer) : Bool :=
  if lyIsDp d then
    dpReady s (lyDp d) && decide (lySrcX d + lySrcW d ≤ s.ing.dp[lyDp d].w)
      && decide (lySrcY d + lySrcH d ≤ s.ing.dp[lyDp d].h)
  else fenceReady (sampledFence s n) (lyFence d)

/-- Where frame buffer `j` of DP input `i` stands (R355). -/
def dpAddr (i : Fin 2) (j : Fin 3) : Nat := 0x100000000 + i.val * 0x30000000 + j.val * 0x10000000

/-- What a ready layer shows: for a DP layer the newest complete frame at this frame start, all frame long (R120: it
does not say which frame one that completes within the period replaces; DESIGN CHOICE, log 54). It stands under a
format code beyond those of R101, its address in units of 256 bytes like SRC_ADDR. -/
def shownOf (s : State) (d : Layer) : Shown :=
  { fence := lyFence d, addr := if lyIsDp d then dpAddr (lyDp d) s.ing.dp[lyDp d].newest / 256 else lyAddr d,
    format := if lyIsDp d then 0x80 + lySource d else lyFormat d, srcW := lySrcW d, srcH := lySrcH d }

/-- Two records name one buffer: one address under one fence value, whatever the descriptor reads of it (R119). -/
def sameBuf (a b : Shown) : Bool :=
  a.addr == b.addr && a.fence == b.fence && decide (a.format < 0x80) == decide (b.format < 0x80)

/-- The buffer of an HBM layer goes back to its producer: CMP_RELEASE_n (R119). -/
def releaseBuf (n : Fin 16) (o : Option Shown) (s : State) : State :=
  match o with
  | some b => if b.format < 0x80 then
      { s with cmp := { s.cmp with release := upd s.cmp.release n (toW b.fence) } } else s
  | none => s

/-- What layer `n` shows from this frame start. -/
def setShown (n : Fin 16) (o : Option Shown) (transparent : Bool) (s : State) : State :=
  let m : BitVec 16 := BitVec.ofNat 16 (2 ^ n.val)
  { s with cmp := { s.cmp with
      shown := upd s.cmp.shown n o,
      transparent := if transparent then s.cmp.transparent ||| m else s.cmp.transparent &&& ~~~m } }

/-- One layer at a frame start: the not-ready rule (R118) and release (R119). -/
def layerFrame (n : Fin 16) (s : State) : State :=
  let d := s.cmp.live[n]
  let old := s.cmp.shown[n]
  if !lyEnable d then setShown n none true (releaseBuf n old s)
  else if layerReady s n d then
    let same := match old with
      | some b => sameBuf b (shownOf s d)
      | none => true
    setShown n (some (shownOf s d)) false (if same then s else releaseBuf n old s)
  else
    let s1 := raise evCmpLayerNotReady (2 ^ n.val) { s with cmp := { s.cmp with
      notReady := updWith s.cmp.notReady n (satInc 16) } }
    if !lyRetain d then setShown n none true (releaseBuf n old s1)
    else match old with
      | some b =>
        let fits := b.format == (shownOf s d).format && b.srcW == lySrcW d && b.srcH == lySrcH d
        setShown n (some b) (!fits) s1
      | none => setShown n none true s1

/-- All layers at a frame start, in ascending number. -/
def layersFrame (s : State) : State := (List.finRange 16).foldl (fun a n => layerFrame n a) s

/-- CMP_FENCE_WRITE: the producer writes a fence through BAR0 (R116); without a link nothing reaches the
device (R567). -/
def execCmpFenceWrite (t : Time) (layer : Fin 16) (value : Word) (s : State) : Out :=
  let s := s.at t
  if s.hst.linkUp then .next (writeFence layer value s) else .next s

/-! ## DP inputs (R102, R120, R546) -/

/-- An enabled live layer takes its source from a DP input. -/
def dpUsed (s : State) (i : Fin 2) : Bool :=
  (List.finRange 16).any fun n => lyEnable s.cmp.live[n] && lyIsDp s.cmp.live[n] && lyDp s.cmp.live[n] == i

/-- The readiness of a DP input is judged: ING_DP_LOST and ING_DP_RESTORED (R546). -/
def judgeDp (i : Fin 2) (s : State) : State :=
  let r := dpReady s i
  let was := s.ing.dp[i].wasReady
  let s1 := { s with ing := { s.ing with dp := updWith s.ing.dp i fun d => { d with wasReady := r } } }
  if was && !r && dpUsed s i then raise evIngDpLost (2 ^ i.val) s1
  else if !was && r && dpUsed s i then raise evIngDpRestored (2 ^ i.val) s1
  else s1

/-- The input's record replaced. -/
def setDp (i : Fin 2) (f : Dp → Dp) (s : State) : State :=
  { s with ing := { s.ing with dp := updWith s.ing.dp i f } }

/-- The frame buffer that the next frame of a stream takes: one that no layer shows, not the newest where there is such
a one (R120 keeps a shown frame; which buffer is filled the spec leaves open: DESIGN CHOICE, log 54). -/
def dpFree (s : State) (i : Fin 2) : Fin 3 :=
  let shows (j : Fin 3) : Bool := (List.finRange 16).any fun n =>
    match s.cmp.shown[n] with
    | some b => b.format == 0x81 + i.val && b.addr == dpAddr i j / 256
    | none => false
  let free := (List.finRange 3).filter fun j => !shows j
  ((free.find? fun j => j != s.ing.dp[i].newest).or free.head?).getD s.ing.dp[i].newest

/-- The bytes of a stored pixel, its component 0 lowest: three 10-bit fields in 4 bytes, or three 16-bit fields in 8
(R101; the places of the fields DESIGN CHOICE, log 54). -/
def dpPixelBytes (c : DpColour) (v : List Nat) : List Byte :=
  let w := if dpBytes c = 4 then 10 else 16
  leBytes (dpBytes c) (sumN ((List.range 3).map fun k => v.getD k 0 % 2 ^ w * 2 ^ (w * k)))

/-- The lines of a frame, after conversion to 4:4:4, from its components in raster order. -/
def dpFrameBytes (d : Dp) (pix : List Nat) : List Byte :=
  (List.range (d.w * d.h)).flatMap fun n => dpPixelBytes d.col (pix.drop (3 * n))

/-- DP_FRAME_COMPLETE: a whole frame of the stream has been stored (R101, R120, R355); a stream above the
stored-rate limit stores none (R102), a frame with a failed write is not complete (R366). -/
def execDpFrameComplete (t : Time) (f : DpFrame) (s : State) : Out :=
  let s := s.at t
  let i := f.input
  let d := s.ing.dp[i]
  let j := dpFree s i
  if !s.fastUp ∨ !d.locked ∨ d.tooFast then .next s
  else if d.bad then .next (setDp i (fun d => { d with bad := false }) s)
  else
    let s1 := setGrn (fun g => g.store (dpAddr i j) (dpFrameBytes d f.pix)) s
    .next (judgeDp i (setDp i (fun d => { d with
      frameAt := some s.now, stale := false, newest := j, bufs := upd d.bufs j (some (d.w, d.col)) }) s1))

/-- DP_LINK_LOSS: the link loses lock (R120). -/
def execDpLinkLoss (t : Time) (i : Fin 2) (s : State) : Out :=
  let s := s.at t
  if !s.fastUp then .next s
  else .next (judgeDp i (setDp i (fun d => { d with locked := false }) s))

/-- DP_STALE_TIMEOUT: no complete frame within ING_DP_STALE (R120). -/
def execDpStaleTimeout (t : Time) (i : Fin 2) (s : State) : Out :=
  let s := s.at t
  let due := match s.ing.dp[i].frameAt with
    | some a => decide (a + s.ing.dpStale.toNat * ms ≤ s.now)
    | none => true
  if !s.fastUp ∨ !due then .next s
  else .next (judgeDp i (setDp i (fun d => { d with stale := true }) s))

/-- DP_LINK_LOCK: the link locks on a stream; above 16.0 GB/s of stored rate it is not stored and
ING_DP_LOST is raised (R102). -/
def execDpLinkLock (t : Time) (i : Fin 2) (rate : Nat) (dsc : Bool) (w h refreshMilliHz : Nat) (col : DpColour)
    (s : State) : Out :=
  let s := s.at t
  let fast := decide (16000000000 * 1000 < w * h * refreshMilliHz * dpBytes col)
  if !s.fastUp then .next s
  else
    let s1 := setDp i (fun d => { d with locked := true, rate := rate, dsc := dsc, w := w, h := h, col := col,
                                         tooFast := fast, wasReady := if fast then false else d.wasReady }) s
    .next (if fast then raise evIngDpLost (2 ^ i.val) s1 else judgeDp i s1)

end Sys2Proof.Machine
end

