-- ==== Sys2Proof/Machine/Colour.lean ====
section
/-! DEFINITION. Colour and warp: gamut banks (R163), the colour solve (R154-R156), laser estimates
(R158-R162), the warp directories and mesh store (R165-R173), and what a commit checks on both (R181). -/

namespace Sys2Proof.Machine

/-- The colour record changed. -/
def setClw (f : Clw → Clw) (s : State) : State := { s with clw := f s.clw }

/-! ## Gamut banks (R163) -/

/-- A bank that was never loaded: the reset values of its fields. -/
def resetBank : GamutBank :=
  leBytes 2 0x500D ++ leBytes 2 0x5439 ++ [0, 0x3F, 0x80, 0x80, 0x80, 60] ++ leBytes 2 0xF000
    ++ leBytes 2 12100 ++ leBytes 2 11900 ++ leBytes 2 6600 ++ leBytes 2 6000 ++ leBytes 2 3250
    ++ leBytes 2 2500 ++ List.replicate 40 0

/-- Field ranges and reserved fields of a bank (R163). -/
def bankOk (b : GamutBank) : Bool :=
  le16 b 2 != 0 && decide (byteAt b 4 % 4 ≤ 1) && decide (byteAt b 4 < 8) && decide (byteAt b 5 < 64)
    && decide (10 ≤ byteAt b 9) && decide (byteAt b 9 ≤ 200)
    && (List.range 6).all (fun k => decide (le16 b (12 + 2 * k) ≤ 0x3FFF)) && zeroAt b 36 28

/-- The bank of an engine: live or inactive. -/
def liveBank (s : State) (e : Fin 4) : GamutBank := (s.clw.gamut[e][s.clw.gamutLive[e]]).getD resetBank
def spareBank (s : State) (e : Fin 4) : Option GamutBank := s.clw.gamut[e][other s.clw.gamutLive[e]]

/-- CH_EN bit of primary k. -/
def gbEnabled (b : GamutBank) (k : Nat) : Bool := bit (byteAt b 5) k
def gbLambda (b : GamutBank) (k : Nat) : Nat := le16 b (12 + 2 * k)
def gbPower (b : GamutBank) (k : Nat) : Nat := le16 b (24 + 2 * k)

/-- A bank named by the armed commit is not written (R113). -/
def armedNames (s : State) (f : Snapshot → BitVec 4) (e : Fin 4) : Bool :=
  match s.cmp.armed with
  | some a => (f a).toNat.testBit e.val
  | none => false

/-- GAMUT_LOAD (R514): the inactive bank of one engine. -/
def gamutLoadBody (rq : Req) (s : State) : Ans :=
  let p := rq.payload
  let e : Fin 4 := Fin.ofNat 4 (byteAt p 0)
  let b := slice p 4 64
  if 4 ≤ byteAt p 0 ∨ !zeroAt p 1 3 ∨ !bankOk b then deny .badParam s
  else if armedNames s (·.gamut) e then deny .busy s
  else (setClw (fun c => { c with
      gamut := updWith c.gamut e fun v => upd v (other c.gamutLive[e]) (some b) }) s, .ok, [])

def execGamutLoad (t : Time) (rq : Req) (s : State) : Out := .next (serve 0x22 gamutLoadBody rq (s.at t))

/-! ## The colour solve (R154-R156) -/

/-- Entry (i, j) of a 3 x 3 matrix held row by row. -/
def m3 (m : List Rat) (i j : Nat) : Rat := m.getD (3 * i + j) 0

def m3mul (a b : List Rat) : List Rat :=
  (List.range 9).map fun n =>
    m3 a (n / 3) 0 * m3 b 0 (n % 3) + m3 a (n / 3) 1 * m3 b 1 (n % 3) + m3 a (n / 3) 2 * m3 b 2 (n % 3)

def m3vec (a v : List Rat) : List Rat :=
  (List.range 3).map fun i => m3 a i 0 * v.getD 0 0 + m3 a i 1 * v.getD 1 0 + m3 a i 2 * v.getD 2 0

def m3det (m : List Rat) : Rat :=
  m3 m 0 0 * (m3 m 1 1 * m3 m 2 2 - m3 m 1 2 * m3 m 2 1)
    - m3 m 0 1 * (m3 m 1 0 * m3 m 2 2 - m3 m 1 2 * m3 m 2 0)
    + m3 m 0 2 * (m3 m 1 0 * m3 m 2 1 - m3 m 1 1 * m3 m 2 0)

/-- The inverse, by cofactors; meaningless where the determinant is 0. -/
def m3inv (m : List Rat) : List Rat :=
  let d := m3det m
  (List.range 9).map fun n =>
    let i := n / 3
    let j := n % 3
    (m3 m ((j + 1) % 3) ((i + 1) % 3) * m3 m ((j + 2) % 3) ((i + 2) % 3)
      - m3 m ((j + 1) % 3) ((i + 2) % 3) * m3 m ((j + 2) % 3) ((i + 1) % 3)) / d

/-- XYZ with Y = 1 of a chromaticity. -/
def xyz1 (x y : Rat) : List Rat := [x / y, 1, (1 - x - y) / y]

/-- K: BT.2020 RGB to XYZ for a white point, (1, 1, 1) giving Y = 1 (R154). -/
def matrixK (wx wy : Rat) : List Rat :=
  let r := xyz1 (708 / 1000) (292 / 1000)
  let g := xyz1 (170 / 1000) (797 / 1000)
  let b := xyz1 (131 / 1000) (46 / 1000)
  let p := (List.range 3).flatMap fun i => [r.getD i 0, g.getD i 0, b.getD i 0]
  let k := m3vec (m3inv p) (xyz1 wx wy)
  (List.range 9).map fun n => p.getD n 0 * k.getD (n % 3) 0

/-- A colour-matching function at a wavelength code: linear between whole nanometres (R154, R158). -/
def cmf (curve lambda : Nat) : Rat :=
  let n := 400 + lambda / 50
  let f : Rat := (lambda % 50 : Nat) / (50 : Nat)
  Config.cie1931 curve n * (1 - f) + Config.cie1931 curve (n + 1) * f

/-- The split coefficients of a bank under availability (R155). -/
def splits (b : GamutBank) (avail : Nat → Bool) : List Rat :=
  (List.range 6).map fun k =>
    let r := byteAt b (6 + k / 2)
    let m : Nat := max r (255 - r)
    let own : Rat := if byteAt b 4 % 4 = 0 then 1 else if k % 2 = 0 then r / (m : Nat) else (255 - r : Nat) / (m : Nat)
    let mate := k / 2 * 2 + (1 - k % 2)
    if !avail k then 0 else if !avail mate then 1 else own

/-- Q = M x S: the three pair primaries, from wavelength and power of each channel (R154). -/
def matrixQ (sig : List Rat) (lam : Nat → Nat) (pow : Nat → Rat) : List Rat :=
  (List.range 9).map fun n =>
    let j := n % 3
    sig.getD (2 * j) 0 * pow (2 * j) * cmf (n / 3) (lam (2 * j))
      + sig.getD (2 * j + 1) 0 * pow (2 * j + 1) * cmf (n / 3) (lam (2 * j + 1))

/-- The largest of three. -/
def max3 (l : List Rat) : Rat := max (l.getD 0 0) (max (l.getD 1 0) (l.getD 2 0))

/-- The wavelength and power of a channel in a snapshot (R159): nominal values where it holds none. -/
def snapLambda (s : State) (e : Fin 4) (b : GamutBank) (k : Nat) : Nat :=
  match s.clw.snap[chan e k] with
  | some p => p.1
  | none => gbLambda b k
def snapPower (s : State) (e : Fin 4) (b : GamutBank) (k : Nat) : Rat :=
  match s.clw.snap[chan e k] with
  | some p => (p.2 * gbPower b k : Nat) / (32768 : Nat)
  | none => (gbPower b k : Nat)

/-- The white point of an engine's bank, replaced by the shared colour target (R163, R164). -/
def whitePoint (s : State) (b : GamutBank) : Rat × Rat :=
  match s.brg.shared.colour with
  | some w => ((wfl w 16 16 : Nat) / (65536 : Nat), (wfl w 0 16 : Nat) / (65536 : Nat))
  | none => ((le16 b 0 : Nat) / (65536 : Nat), (le16 b 2 : Nat) / (65536 : Nat))

/-- The outcome of a solve: its matrix record, whether white luminance was reduced; or the reason it fails. -/
inductive Solve where
  | ok (record : List Rat) (reduced : Bool)
  | white
  | singular

/-- Y_max,nom of a bank: the largest luminance of its white with every component of a at most 1, for its nominal wavelengths
and powers and the channels it enables (R156). -/
def yMaxNom (s : State) (b : GamutBank) : Rat :=
  let wp := whitePoint s b
  let qn := matrixQ (splits b (gbEnabled b)) (gbLambda b) (fun i => (gbPower b i : Nat))
  if m3det qn = 0 then 0 else 1 / max3 (m3vec (m3inv qn) (xyz1 wp.1 wp.2))

/-- The colour solve of an engine for a bank and its Y_max,nom, with the latest snapshot (R154-R156, R181). -/
def solve (s : State) (e : Fin 4) (b : GamutBank) (avail : Nat → Bool) (yNom : Rat) : Solve :=
  let wp := whitePoint s b
  let k := matrixK wp.1 wp.2
  let w := xyz1 wp.1 wp.2
  let sig := splits b avail
  let q := matrixQ sig (snapLambda s e b) (snapPower s e b)
  if m3det q = 0 ∨ 4096 * 256 < Config.conditionNumber q then .singular
  else
    let a := m3vec (m3inv q) w
    if a.any (fun x => x < 0) then .white
    else
      let y0 : Rat := (le16 b 10 : Nat) / (65536 : Nat) * yNom
      let reduced := decide (1 < y0 * max3 a)
      let y := if reduced then 1 / max3 a else y0
      .ok ((m3mul (m3inv q) k).map (y * ·) ++ sig ++ [m3 k 1 0, m3 k 1 1, m3 k 1 2]) reduced

/-! ## Availability and estimates (R158-R161) -/

/-- Stage 6 has removed a channel frame of an MAE: no slice keeps a bit of the primary (R160, R198). -/
def sheafLacks (s : State) (e : Fin 4) (k : Nat) : Bool :=
  let sh := s.thr.eng[e].write
  s.isMae e && sh.stage == 6 && (List.range 4).all fun j => sh.bits.getD (6 * j + k) 0 == 0

/-- A channel is unavailable for a cause that is not the bank's: faulted, disabled, or without a channel frame (R160). -/
def chanDown (s : State) (c : Fin 24) : Bool :=
  s.frg.ch[c].pdFault || !wb s.frg.ch[c].cfg 0 || sheafLacks s (chanEng c) (c.val % 6)

/-- A channel is unavailable for a bank and an estimated wavelength: not enabled by it or outside its window (R160). -/
def bankLacks (b : GamutBank) (k lam : Nat) : Bool :=
  let nom := gbLambda b k
  !gbEnabled b k || decide (5 * byteAt b 9 < max lam nom - min lam nom)

/-- A channel is unavailable (R160). -/
def unavailable (s : State) (c : Fin 24) : Bool :=
  let b := liveBank s (chanEng c)
  let est := s.clw.est[c]
  bankLacks b (c.val % 6) (if est.ever && !est.lost then est.lambda else gbLambda b (c.val % 6)) || chanDown s c

/-- The channels that a solve for a bank may use: by the bank, the snapshot, and what the Forge and the Thresher showed at
the frame start of the snapshot (R159, R160). -/
def availFor (s : State) (e : Fin 4) (b : GamutBank) (k : Nat) : Bool :=
  !(bankLacks b k (snapLambda s e b k) || s.clw.down.toNat.testBit (6 * e.val + k))

/-- A pair has no channel that a solve may use (R161). -/
def pairGone (avail : Nat → Bool) : Bool := (List.range 3).any fun j => !avail (2 * j) && !avail (2 * j + 1)

/-- Availability at a frame start: new losses raise CLW_CHANNEL_LOST, new pair losses CLW_PAIR_LOST (R160, R161). -/
def availFrame (s : State) : State :=
  let now : BitVec 24 := BitVec.ofNat 24 (maskOf 24 fun i => unavailable s (Fin.ofNat 24 i))
  let down : BitVec 24 := BitVec.ofNat 24 (maskOf 24 fun i => chanDown s (Fin.ofNat 24 i))
  let gone := maskOf 24 fun i => now.toNat.testBit i && !s.clw.unavail.toNat.testBit i
  let pairs := tab 4 fun e => (BitVec.ofNat 3 (maskOf 3 fun j =>
    now.toNat.testBit (6 * e.val + 2 * j) && now.toNat.testBit (6 * e.val + 2 * j + 1)) : BitVec 3)
  let s1 := raiseIf (gone != 0) evClwChannelLost gone
    (setClw (fun c => { c with unavail := now, down := down, pairLost := pairs }) s)
  (List.range 12).foldl (fun a i =>
    let e : Fin 4 := Fin.ofNat 4 (i / 3)
    raiseIf (pairs[e].toNat.testBit (i % 3) && !s.clw.pairLost[e].toNat.testBit (i % 3)) evClwPairLost
      (i % 3 * 4 + e.val) a) s1

/-- The snapshot of the 24 estimates (R159). -/
def snapFrame (s : State) : State :=
  setClw (fun c => { c with snap := vmap (fun (x : Est) =>
    if x.ever && !x.lost then some (x.lambda, x.output) else none) c.est }) s

/-- The matrix of one engine for this composition (R159, R162): the computed one, or the previous matrix of
the bank held. A bank that a commit applied has the matrix of its trial solve, which is no hold, until one is computed. -/
def matrixEngine (ready : Bool) (e : Fin 4) (s : State) : State :=
  if !s.used e then s
  else
    let b := liveBank s e
    let avail := availFor s e b
    let m : BitVec 4 := BitVec.ofNat 4 (2 ^ e.val)
    let hold (s : State) : State :=
      raise evClwGamutHold m.toNat (setClw (fun c => { c with
        holdSince := upd c.holdSince e (some (c.holdSince[e].getD s.now)) }) s)
    if pairGone avail then s
    else if !ready then if s.clw.trialLive &&& m != 0 then s else hold s
    else match solve s e b avail s.clw.yNom[e] with
      | .ok r reduced =>
        raiseIf (reduced && s.clw.headroom &&& m == 0) evClwWhiteHeadroom m.toNat
          (setClw (fun c => { c with
            matrix := upd c.matrix e r, holdSince := upd c.holdSince e none, trialLive := c.trialLive &&& ~~~m,
            headroom := if reduced then c.headroom ||| m else c.headroom &&& ~~~m }) s)
      | _ => hold s

/-- ESTIMATE_VALID_TIMEOUT: no update for 100 ms (R158, R159). -/
def execEstimateValidTimeout (t : Time) (ch : Fin 24) (s : State) : Out :=
  let s := s.at t
  let x := s.clw.est[ch]
  if x.valid ∧ x.at' + 100 * ms ≤ s.now then
    .next (setClw (fun c => { c with
      est := upd c.est ch { x with valid := false, holdDue := some (s.now + sec) } }) s)
  else .next s

/-- ESTIMATE_HOLD_EXPIRY: the last valid estimate was held for 1 s (R159). -/
def execEstimateHoldExpiry (t : Time) (ch : Fin 24) (s : State) : Out :=
  let s := s.at t
  let x := s.clw.est[ch]
  match x.holdDue with
  | some d => if d ≤ s.now ∧ !x.valid then
      .next (raise evClwEstLost (2 ^ ch.val) (setClw (fun c => { c with
        est := upd c.est ch { x with holdDue := none, lost := true } }) s)) else .next s
  | none => .next s

/-- GAMUT_HOLD_TIMEOUT: a matrix hold has lasted 1 s (R162). -/
def execGamutHoldTimeout (t : Time) (e : Fin 4) (s : State) : Out :=
  let s := s.at t
  match s.clw.holdSince[e] with
  | some a => .next (raiseIf (decide (a + sec ≤ s.now)) evClwGamutStuck e.val s)
  | none => .next s

/-- COLOUR_SENSOR_TIMEOUT: no valid reading for 1 s; estimates go on with SENSOR = 0 (R183). -/
def execColourSensorTimeout (t : Time) (e : Fin 4) (s : State) : Out :=
  let s := s.at t
  let m : BitVec 4 := BitVec.ofNat 4 (2 ^ e.val)
  if s.fastUp ∧ s.used e ∧ s.clw.sensorAt[e] + sec ≤ s.now ∧ s.clw.sensorLost &&& m = 0 then
    .next (raise evAnvColourSensorLost m.toNat (setClw (fun c => { c with
      sensorLost := c.sensorLost ||| m,
      est := tab 24 fun i => if chanEng i = e then { c.est[i] with sensor := false } else c.est[i] }) s))
  else .next s

/-! ## Warp directories and the mesh store (R165-R173) -/

/-- Node spacing of a SPACING code (R169). -/
def spacingOf (c : Nat) : Nat := 64 * 2 ^ c

/-- Nodes across a length at a spacing (R166). -/
def nodes (len sp : Nat) : Nat := cdiv len sp + 1

/-- The entries a valid slot names: base and count. -/
def slotSpan (m : MeshSlot) : Option (Nat × Nat) := if m.valid then some (m.base, m.cols * m.rows) else none

/-- Every span that some directory slot names, but for those of `skip` (engine, directory, slot) (R171). -/
def spans (c : Clw) (skip : Option (Nat × Nat × Nat)) : List (Nat × Nat) :=
  (List.finRange 4).flatMap fun e => (List.finRange 2).flatMap fun d => (List.finRange 12).filterMap fun q =>
    if skip = some (e.val, d.val, q.val) then none else slotSpan (c.warp[e].dirs[d])[q]

/-- A block of `n` entries from `b` is free (R171). -/
def blockFree (used : List (Nat × Nat)) (b n : Nat) : Bool :=
  decide (b + n ≤ 32768) && used.all fun u => decide (b + n ≤ u.1) || decide (u.1 + u.2 ≤ b)

/-- First fit: the lowest block of `n` entries (R171). -/
def firstFit (used : List (Nat × Nat)) (n : Nat) : Option Nat :=
  ((0 :: used.map fun u => u.1 + u.2).filter fun b => blockFree used b n).min?

/-- The length of the free block that begins at `b`. -/
def freeFrom (used : List (Nat × Nat)) (b : Nat) : Nat :=
  if used.any fun u => decide (u.1 ≤ b) && decide (b < u.1 + u.2) then 0
  else ((used.filter fun u => decide (b ≤ u.1)).map (·.1)).foldl min 32768 - b

/-- CLW_WARP_FREE: the largest free block and the free entries (R173). -/
def warpFree (c : Clw) : Nat :=
  let used := spans c none
  let starts := (0 :: used.map fun u => u.1 + u.2).dedup
  let blocks := starts.map (freeFrom used)
  maxN blocks * 65536 + sumN blocks

/-- The entry of the mesh store at an index (R165). -/
def meshAt (c : Clw) (i : Nat) : MeshEntry := (look c.mesh i).getD {}

/-- The entry of 8 bytes of a payload (R165). -/
def meshEntryOf (b : List Byte) : MeshEntry :=
  let n := leNat b
  { dx := sext 20 (fld n 44 20), dy := sext 20 (fld n 24 20), gain := fld n 12 12, mask := bit n 11 }

/-- DY in its range and reserved bits zero (R165). -/
def meshEntryOk (b : List Byte) : Bool :=
  let e := meshEntryOf b
  leNat b % 2048 == 0 && decide (-4032 ≤ e.dy) && decide (e.dy ≤ 3967)

/-- The engine's warp record changed. -/
def setWarp (e : Fin 4) (f : Warp → Warp) (s : State) : State :=
  setClw (fun c => { c with warp := updWith c.warp e f }) s

/-- A slot of the inactive directory changed. -/
def setSlot (e : Fin 4) (q : Fin 12) (m : MeshSlot) (s : State) : State :=
  setWarp e (fun w => { w with dirs := updWith w.dirs (other w.live) fun d => upd d q m }) s

/-- BEGIN: the live directory is copied into the inactive one (R171). -/
def warpBegin (e : Fin 4) (s : State) : State :=
  setWarp e (fun w => { w with
    dirs := upd w.dirs (other w.live) (vmap (fun (m : MeshSlot) => { m with fresh := false }) w.dirs[w.live]),
    needBegin := false }) s

/-- DEFINE: a new mesh, first fit, its entries at reset values (R171). -/
def warpDefine (e : Fin 4) (q : Fin 12) (sp : Nat) (s : State) : Ans :=
  let cols := nodes s.eng[e].w (spacingOf sp)
  let rows := nodes s.eng[e].h (spacingOf sp)
  let n := cols * rows
  let dir := other s.clw.warp[e].live
  match firstFit (spans s.clw (some (e.val, dir.val, q.val))) n with
  | none => deny .resourceExceeded s
  | some b =>
    let m : MeshSlot := { valid := true, spacing := sp, base := b, cols := cols, rows := rows, fresh := true,
                          written := [] }
    (setClw (fun c => { c with mesh := c.mesh.filter fun x => decide (x.1 < b) || decide (b + n ≤ x.1) })
      (setSlot e q m s), .ok, leBytes 2 b ++ leBytes 2 n)

/-- DATA: consecutive nodes of a slot's new mesh (R171); every slot that shares it sees them written. -/
def warpData (e : Fin 4) (q : Fin 12) (first : Nat) (p : List Byte) (n : Nat) (s : State) : State :=
  let dir := other s.clw.warp[e].live
  let m := (s.clw.warp[e].dirs[dir])[q]
  let ids := (List.range n).map (first + ·)
  let mark (x : MeshSlot) : MeshSlot :=
    if x.valid && x.fresh && x.base == m.base then { x with written := (ids ++ x.written).dedup } else x
  let entry (i : Nat) : MeshEntry := meshEntryOf (slice p (8 + 8 * (i - first)) 8)
  setClw (fun c => { c with mesh := ids.foldl (fun l i => put l (m.base + i) (entry i)) c.mesh })
    (setWarp e (fun w => { w with dirs := upd w.dirs dir (vmap mark w.dirs[dir]) }) s)

/-- WARP_LOAD (R513, R171, R172). -/
def warpLoadBody (rq : Req) (s : State) : Ans :=
  let p := rq.payload
  let e : Fin 4 := Fin.ofNat 4 (byteAt p 0)
  let op := byteAt p 1
  let q : Fin 12 := Fin.ofNat 12 (byteAt p 2)
  let arg := byteAt p 3
  let first := le16 p 4
  let n := le16 p 6
  let most := if portLimit rq.port = 1024 then 127 else 511
  let d := depthsOf s s.clw.depths e
  let m := (s.clw.warp[e].dirs[other s.clw.warp[e].live])[q]
  if 4 ≤ byteAt p 0 ∨ 5 ≤ op then deny .badParam s
  else if op ≠ 0 ∧ (12 ≤ byteAt p 2 ∨ d ≤ byteAt p 2 / 3) then deny .badParam s
  else if (op = 1 ∧ 4 ≤ arg) ∨ (op = 3 ∧ 12 ≤ arg) ∨ (op ≠ 1 ∧ op ≠ 3 ∧ arg ≠ 0)
      ∨ (op ≠ 2 ∧ (first ≠ 0 ∨ n ≠ 0)) ∨ (op = 2 ∧ (n = 0 ∨ most < n)) then deny .badParam s
  else if op = 2 ∧ !((List.range n).all fun i => meshEntryOk (slice p (8 + 8 * i) 8)) then deny .badParam s
  else if armedNames s (·.warp) e then deny .busy s
  else if op = 0 then (warpBegin e s, .ok, [])
  else if s.clw.warp[e].needBegin then deny .wrongState s
  else if op = 1 then warpDefine e q arg s
  else if op = 2 then
    if !(m.valid && m.fresh) then deny .wrongState s
    else if m.cols * m.rows < first + n then deny .badParam s
    else (warpData e q first p n s, .ok, [])
  else if op = 3 then
    (setSlot e q (s.clw.warp[e].dirs[other s.clw.warp[e].live])[Fin.ofNat 12 arg] s, .ok, [])
  else (setSlot e q {} s, .ok, [])

def execWarpLoad (t : Time) (rq : Req) (s : State) : Out := .next (serve 0x21 warpLoadBody rq (s.at t))

/-- A slot's mesh has the size the engine asks for (R166, R170). -/
def meshFits (s : State) (e : Fin 4) (m : MeshSlot) : Bool :=
  m.cols == nodes s.eng[e].w (spacingOf m.spacing) && m.rows == nodes s.eng[e].h (spacingOf m.spacing)

/-- Live slots whose mesh no longer fits fall back to the identity warp (R170). -/
def warpFallback (e : Fin 4) (s : State) : State :=
  let dir := s.clw.warp[e].dirs[s.clw.warp[e].live]
  let bad := ((List.finRange 12).filter fun q => dir[q].valid && !meshFits s e dir[q]).map (·.val)
  let new := bad.filter fun q => !s.clw.warp[e].identity.contains q
  new.foldl (fun a q => raise evClwWarpIdentity (q * 16 + e.val) a)
    (setWarp e (fun w => { w with identity := bad }) s)

/-! ## Commit checks (R181) -/

/-- A masked node of a mesh samples inside a zone of its depth (R181). -/
def maskInZone (s : State) (e : Fin 4) (q : Nat) (m : MeshSlot) : Bool :=
  let sp := spacingOf m.spacing
  (engZones s e).any fun z => z.depth == q / 3 && (List.range (m.cols * m.rows)).any fun i =>
    let n := meshAt s.clw (m.base + i)
    let x : Int := 64 * ((i % m.cols * sp : Nat) : Int) + n.dx
    let y : Int := 64 * ((i / m.cols * sp : Nat) : Int) + n.dy
    n.mask && decide ((64 * z.x : Nat) ≤ x) && decide (x < (64 * (z.x + z.w) : Nat))
      && decide ((64 * z.y : Nat) ≤ y) && decide (y < (64 * (z.y + z.h) : Nat))

/-- Element 0x20 + n: the inactive directory, slot by slot. -/
def warpReject (s : State) (e : Fin 4) : Option Reject :=
  let dir := s.clw.warp[e].dirs[other s.clw.warp[e].live]
  (List.finRange 12).findSome? fun q =>
    let m := dir[q]
    if !m.valid then none
    else if m.fresh && decide (m.written.length < m.cols * m.rows) then some ⟨0x20 + e.val, 0x30, q.val⟩
    else if !meshFits s e m then some ⟨0x20 + e.val, 0x31, q.val⟩
    else if maskInZone s e q.val m then some ⟨0x20 + e.val, 0x32, q.val⟩
    else none

/-- The bank that a commit flags. -/
def flaggedBank (s : State) (e : Fin 4) : GamutBank := (spareBank s e).getD resetBank

/-- The trial solve of a bank, made at validation (R162, R181). -/
def trialSolve (s : State) (e : Fin 4) (b : GamutBank) : Solve := solve s e b (availFor s e b) (yMaxNom s b)

/-- The trial solve of a bank is kept with its Y_max,nom (R156, R162). -/
def gamutValidated (b : GamutBank) (e : Fin 4) (s : State) : State :=
  setClw (fun c => { c with trial := upd c.trial e (match trialSolve s e b with
    | .ok r _ => some (r, yMaxNom s b)
    | _ => none) }) s

/-- Element 0x24 + n: the inactive gamut bank. -/
def gamutReject (s : State) (e : Fin 4) : Option Reject :=
  let b := flaggedBank s e
  match (List.range 3).find? fun j => !gbEnabled b (2 * j) && !gbEnabled b (2 * j + 1) with
  | some j => some ⟨0x24 + e.val, 0x33, j⟩
  | none => match trialSolve s e b with
    | .singular => some ⟨0x24 + e.val, 0x35, 0⟩
    | .white => some ⟨0x24 + e.val, 0x34, 0⟩
    | .ok _ _ => none

/-- A flagged warp bank becomes live; a mesh that no longer fits falls back to the identity warp (R112, R170, R172). -/
def warpApply (e : Fin 4) (s : State) : State :=
  warpFallback e (setWarp e (fun w => { w with live := other w.live, needBegin := true, identity := [] }) s)

/-- The live bank starts with the matrix of its trial solve (R162). -/
def trialApply (e : Fin 4) (s : State) : State :=
  setClw (fun c => { c with
    matrix := upd c.matrix e ((c.trial[e].map (·.1)).getD []), yNom := upd c.yNom e ((c.trial[e].map (·.2)).getD 0),
    trial := upd c.trial e none, trialLive := c.trialLive ||| BitVec.ofNat 4 (2 ^ e.val) }) s

/-- A flagged gamut bank becomes live (R112). -/
def gamutApply (e : Fin 4) (s : State) : State :=
  trialApply e (setClw (fun c => { c with gamutLive := upd c.gamutLive e (other c.gamutLive[e]) }) s)

end Sys2Proof.Machine
end

