-- ==== Sys2Proof/Machine/Sheaf.lean ====
section
/-! DEFINITION. The Thresher's Sheafs: requests and banks (R191), the compiler (R194, R195, R197-R201), the
slot budget and what happens when it moves (R18, R19, R22-R24, R202-R204), SHEAF_LOAD and its registers. -/

namespace Sys2Proof.Machine

/-- The Thresher record changed, and the record of one of its engines. -/
def setThr (f : Thr → Thr) (s : State) : State := { s with thr := f s.thr }
def setThrE (e : Fin 4) (f : ThrEng → ThrEng) (s : State) : State :=
  setThr (fun t => { t with eng := updWith t.eng e f }) s

/-! ## Requests (R191) -/

def sqFloor (r : SheafReq) : Nat := byteAt r 24
def sqSplit (r : SheafReq) : Nat := byteAt r 25
def sqGap (r : SheafReq) : Nat := byteAt r 26

/-- Field ranges and reserved bytes of a request (R191). -/
def sheafReqOk (r : SheafReq) : Bool :=
  (List.range 24).all (fun i => decide (byteAt r i ≤ 16)) && decide (1 ≤ sqFloor r) && decide (sqFloor r ≤ 16)
    && decide (1 ≤ sqSplit r) && decide (sqSplit r ≤ 32) && decide (sqGap r ≤ 8) && zeroAt r 27 5

/-- The planes asked for in the slices below `d`; those above are ignored (R198). -/
def sheafAsked (r : SheafReq) (d : Nat) : List Nat :=
  (List.range 24).map fun i => if i / 6 < d then byteAt r i else 0

/-! ## The compiler: which planes stay (R197, R198) -/

/-- Gap entries of a frame whose Sheaf keeps `dw` segments (R197). -/
def gapEntries (dw gap : Nat) : Nat := if 1 < dw then (dw - 1) * gap + (gap - 1) else 0

/-- A working Sheaf fits (R197). -/
def sheafFits (bits : List Nat) (dw gap s u : Nat) : Bool :=
  decide (sumN bits ≤ u) && decide (sumN bits + gapEntries dw gap ≤ s)

/-- The candidate with the greatest measure, later candidates winning ties. -/
def best (m : Nat → Nat) : List Nat → Option Nat
  | [] => none
  | x :: r => match best m r with
    | none => some x
    | some y => if m y < m x then some x else some y

/-- Channel frame of slice `j` that loses its lowest plane: the most planes, above `low`; ties to the
highest primary (R198). -/
def sliceChoice (bits : List Nat) (low j : Nat) : Option Nat :=
  (best (fun k => bits.getD (6 * j + k) 0)
    ((List.range 6).filter fun k => decide (low < bits.getD (6 * j + k) 0))).map (6 * j + ·)

/-- Planes of a slice in total. -/
def sliceSum (bits : List Nat) (j : Nat) : Nat := sumN ((List.range 6).map fun k => bits.getD (6 * j + k) 0)

/-- The same over the slices of `l`: the slice with the most planes, ties to the deeper. -/
def slicesChoice (bits : List Nat) (low : Nat) (l : List Nat) : Option Nat :=
  match best (sliceSum bits) (l.filter fun j => (sliceChoice bits low j).isSome) with
  | some j => sliceChoice bits low j
  | none => none

/-- One removal: the stage that makes it, the counts and the segments left; none when nothing is left to
remove (R198). -/
def removeOne (floor d : Nat) (bits : List Nat) (dw : Nat) : Option (Nat × List Nat × Nat) :=
  let less (i : Nat) : List Nat := bits.set i (bits.getD i 0 - 1)
  match sliceChoice bits floor (d - 1) with
  | some i => some (2, less i, dw)
  | none => match slicesChoice bits floor (List.range (d - 1)) with
    | some i => some (3, less i, dw)
    | none => match slicesChoice bits 1 (List.range d) with
      | some i => some (4, less i, dw)
      | none =>
        if 1 < dw then
          some (5, (List.range 24).map (fun i => if i / 6 = dw - 1 then 0 else bits.getD i 0), dw - 1)
        else match [5, 3, 1, 4, 2].find? fun k => bits.getD k 0 != 0 with
          | some k => some (6, bits.set k 0, dw)
          | none => none

/-- Removals until the Sheaf fits: last stage used, counts, segments; an empty Sheaf when C0 alone does not
fit (R198). `n` bounds the removals. -/
def reduceSheaf : Nat → Nat → Nat → Nat → Nat → Nat → List Nat → Nat → Nat → Nat × List Nat × Nat
  | 0, _, _, _, _, _, _, _, _ => (6, List.replicate 24 0, 0)
  | n + 1, floor, d, gap, s, u, bits, dw, stage =>
    if sheafFits bits dw gap s u then (stage, bits, dw)
    else match removeOne floor d bits dw with
      | some (st, b, w) => reduceSheaf n floor d gap s u b w st
      | none => (6, List.replicate 24 0, 0)

/-! ## The compiler: splits and weights (R194, R195, R199) -/

/-- A plane being split: slice, primary, bit, planes of its channel frame, slots it occupies. -/
structure Plane where
  j : Nat
  k : Nat
  i : Nat
  b : Nat
  m : Nat
deriving DecidableEq, Repr

/-- The share of a plane: 2^i / ((2^B - 1) m) (R194). -/
def Plane.share (p : Plane) : Frac := ⟨2 ^ p.i, (2 ^ p.b - 1) * p.m⟩

/-- The planes of a Sheaf, one slot each, in order of slice, primary, bit. -/
def planesOf (bits : List Nat) : List Plane :=
  (List.range 24).flatMap fun x => (List.range (bits.getD x 0)).map fun i =>
    { j := x / 6, k := x % 6, i := i, b := bits.getD x 0, m := 1 }

/-- The largest share that may be split further, later planes (deeper slice, higher primary, higher bit)
winning ties (R199). -/
def splitChoice (most : Nat) : List Plane → Option Plane
  | [] => none
  | p :: r =>
    match splitChoice most r with
    | none => if p.m < most then some p else none
    | some q => if p.m < most && q.share.lt p.share then some p else some q

/-- Split slots handed out one at a time; the number left over (R199). -/
def handOut (most : Nat) : Nat → List Plane → List Plane × Nat
  | 0, l => (l, 0)
  | n + 1, l => match splitChoice most l with
    | some p => handOut most n (l.map fun q => if q = p then { p with m := p.m + 1 } else q)
    | none => (l, n + 1)

/-- F = 1 / s_max (R195); 0 without planes. -/
def fullLight (l : List Plane) : Frac :=
  match l.map fun p => (Frac.mk ((2 ^ p.b - 1) * p.m) (2 ^ p.i)) with
  | [] => ⟨0, 1⟩
  | x :: r => r.foldl Frac.min x

/-- The total weight T of a plane (R194). -/
def planeWeight (f : Frac) (p : Plane) : Nat :=
  (Frac.mk (65535 * 2 ^ p.i * f.num) ((2 ^ p.b - 1) * f.den)).round

/-! ## The compiler: order and indices (R200) -/

/-- Place of a primary in the tie order C0, C2, C4, C1, C3, C5. -/
def primRank (k : Nat) : Nat := if k % 2 = 0 then k / 2 else 3 + k / 2

/-- Insertion into a list ordered by `before`, after equals. -/
def insertBy {α : Type} (before : α → α → Bool) (x : α) : List α → List α
  | [] => [x]
  | y :: r => if before x y then x :: y :: r else y :: insertBy before x r

/-- The list in order. -/
def sortBy {α : Type} (before : α → α → Bool) (l : List α) : List α := l.foldl (fun a x => insertBy before x a) []

/-- The order of pieces within a segment: (r + 0.5) / m, then primary, then higher bit first (R200). -/
def pieceBefore (x y : Plane × Nat) : Bool :=
  let a := (2 * x.2 + 1) * y.1.m
  let b := (2 * y.2 + 1) * x.1.m
  if a ≠ b then decide (a < b)
  else if x.1.k ≠ y.1.k then decide (primRank x.1.k < primRank y.1.k)
  else decide (y.1.i < x.1.i)

/-- The planes in the order in which indices are given: slice, primary rank, bit from highest (R200). -/
def planeOrder (bits : List Nat) : List (Nat × Nat × Nat) :=
  (List.range 4).flatMap fun j => [0, 2, 4, 1, 3, 5].flatMap fun k =>
    ((List.range (bits.getD (6 * j + k) 0)).reverse).map fun i => (j, k, i)

/-- The lowest index from `n` on that is not in use. -/
def lowestFree (used : List Nat) : Nat → Nat → Nat
  | 0, n => n
  | f + 1, n => if used.contains n then lowestFree used f (n + 1) else n

/-- The index a plane keeps from an earlier Sheaf: its place counted from the MSB of its channel frame
(R202, R203). -/
def keptIndex (old : Sheaf) (bits : List Nat) (j k i : Nat) : Option Nat :=
  let b := bits.getD (6 * j + k) 0
  let b0 := old.bits.getD (6 * j + k) 0
  (old.planes.find? fun p => p.1 == j && p.2.1 == k && p.2.2.1 + b == i + b0 && decide (p.2.2.1 < b0)).map
    (·.2.2.2)

/-- The plane map: kept indices of an earlier Sheaf, the lowest free ones for new planes (R200-R203). -/
def planeMap (old : Sheaf) (bits : List Nat) : List (Nat × Nat × Nat × Nat) :=
  let order := planeOrder bits
  let kept := order.filterMap fun p => keptIndex old bits p.1 p.2.1 p.2.2
  (order.foldl (fun (a : List (Nat × Nat × Nat × Nat) × List Nat) p =>
    match keptIndex old bits p.1 p.2.1 p.2.2 with
    | some n => (a.1 ++ [(p.1, p.2.1, p.2.2, n)], a.2)
    | none =>
      let n := lowestFree a.2 128 0
      (a.1 ++ [(p.1, p.2.1, p.2.2, n)], n :: a.2)) ([], kept)).1

/-- The index of a plane in a map. -/
def indexOf (m : List (Nat × Nat × Nat × Nat)) (j k i : Nat) : Nat :=
  match m.find? fun p => p.1 == j && p.2.1 == k && p.2.2.1 == i with
  | some p => p.2.2.2
  | none => 0

/-- A DARK entry (R192). -/
def darkEntry : SheafEntry := { dark := true }

/-- The entries of one segment (R194, R200). -/
def segment (f : Frac) (map : List (Nat × Nat × Nat × Nat)) (l : List Plane) : List SheafEntry :=
  (sortBy pieceBefore (l.flatMap fun p => (List.range p.m).map fun r => (p, r))).map fun x =>
    let p := x.1
    let t := planeWeight f p
    { weight := t * (x.2 + 1) / p.m - t * x.2 / p.m, plane := indexOf map p.j p.k p.i, bit := p.i,
      primary := p.k, depth := p.j, piece := x.2, pieces := p.m - 1 }

/-- A request compiled for a depth count and a budget, keeping the plane indices of `old` (R194-R203). -/
def compileSheaf (old : Sheaf) (r : SheafReq) (d s u : Nat) : Sheaf :=
  let asked := sheafAsked r d
  let red := reduceSheaf 400 (sqFloor r) d (sqGap r) s u asked d 0
  let bits := red.2.1
  let dw := red.2.2
  if dw = 0 then { stage := 6 }
  else
    let gap := sqGap r
    let h := handOut (sqSplit r) (s - sumN bits - gapEntries dw gap) (planesOf bits)
    let f := fullLight h.1
    let map := planeMap old bits
    let seg (j : Nat) : List SheafEntry :=
      (if dw ≤ 1 then [] else List.replicate (if j = 0 then gap - 1 else gap) darkEntry)
        ++ segment f map (h.1.filter fun p => p.j == j)
    let short := h.2 = 0 && h.1.any fun p => decide (p.m < sqSplit r)
    { entries := (List.range dw).flatMap seg ++ List.replicate h.2 darkEntry,
      bits := bits, planes := map,
      stage := if red.1 ≠ 0 then red.1 else if short then 1 else 0,
      unique := sumN bits, f := f }

/-- THR_REPORT of a Sheaf; F rounded half up to 1/8 (R213, log 33). -/
def sheafReport (x : Sheaf) : Nat :=
  x.stage % 8 * 2 ^ 29 + x.entries.length % 512 * 2 ^ 20 + x.unique % 256 * 2 ^ 12
    + (Frac.mk (8 * x.f.num) x.f.den).round % 4096

/-- The bits of an entry (R192). -/
def entryWord (x : SheafEntry) : Nat :=
  x.weight * 2 ^ 48 + x.plane * 2 ^ 41 + x.bit * 2 ^ 37 + x.primary * 2 ^ 34 + x.depth * 2 ^ 32
    + b2n x.dark * 2 ^ 31 + x.piece * 2 ^ 26 + x.pieces * 2 ^ 21

/-! ## The slot budget (R18, R19, R21-R24, R342, R343) -/

/-- S and U at a slot rate and a frame rate in mHz (R18, R19). -/
def slotsAt (rate f : Nat) : Nat × Nat :=
  (if f = 0 then 0 else rate * 1000 / f - 1, if f = 0 then 0 else min 128 (rate * 1000 / (2 * f)))

/-- The refresh share in 1/1,000 by multiplier code (R21). -/
def refreshShare (m : Nat) : Nat := if m = 0 then 35 else if m = 1 then 70 else 140

/-- Working pseudo-channels: those of stack 1 do not count while only stack 0 is in use (R21, R354, R376). -/
def workingPcs (s : State) : Nat :=
  ((List.finRange 64).filter fun c =>
    !s.grn.pc[c].failed && (decide (c.val < 32) || s.grn.stacksUsed == 3)).length

/-- The grant in 0.1 GB/s, rounded after the share and after the fraction as the worked example of R24
rounds (R21, log 34). -/
def grantNow (s : State) : Nat := rdiv (rdiv (10322 * (1000 - refreshShare s.grn.refresh)) 1000 * workingPcs s) 64

/-- The reservations of the configured ports in 0.1 GB/s (R22). DESIGN CHOICE (log 34): R22 does not say when a port is
configured; compositor fetch counts while any engine is configured, PCIe while its link is up, a DP input while an
enabled live layer uses it, the rest always. -/
def reservations (s : State) : Nat :=
  (if s.anyUsed then 2560 else 0) + (if s.hst.linkUp then 315 else 0) + (if dpUsed s 0 then 160 else 0)
    + (if dpUsed s 1 then 160 else 0) + 80

/-- ROW_BYTES of an array width (R189). -/
def rowBytes (w : Nat) : Nat := 64 * cdiv w 512

/-- The largest slot rate that fits the Thresher's share at a frame rate (R22, R24); none without an MAE. -/
def grantRate (s : State) (f : Nat) : Option Nat :=
  let planes := sumN ((List.finRange 4).map fun e => if s.isMae e then rowBytes s.eng[e].w * s.eng[e].h else 0)
  let lse := sumN ((List.finRange 4).map fun e => if s.isLse e then 24 * s.eng[e].w * s.eng[e].h * f else 0)
  if planes = 0 then none
  else some (2 * ((s.grn.grant - reservations s) * 100000000000 - lse) / (3 * planes * 1000))

/-- REF_SEL is not INTERNAL (R350). -/
def extRef (s : State) : Bool := wfl s.tng.config 30 2 != 0

/-- The slot rate that the frame rate `f` allows now, with its flags: cap, reduced by the grant, reference
limit (R23, R24, R343, R391). -/
def rateTarget (s : State) (f : Nat) : Nat × Bool × Bool × Bool :=
  let cap := s.thm.stackLevel[0] == 2 || s.thm.stackLevel[1] == 2 || decide (2 ≤ s.thm.level)
  let r0 := s.thr.slotRate.toNat
  let ref := extRef s && decide (23600 < r0)
  let r1 := if ref then 23600 else r0
  let r2 := if cap then min r1 20000 else r1
  match grantRate s f with
  | some g => if g < r2 then (g, cap, true, ref) else (r2, cap, false, ref)
  | none => (r2, cap, false, ref)

/-- The budget of an engine that the last step on its way, or else the one in force, leads to. -/
def lastBudget (t : ThrEng) (rate : Nat) : Nat × Nat × Nat :=
  match t.recompiling with
  | some (s, u, r, _) => (s, u, r)
  | none => match t.steps.getLast? with
    | some b => (b.s, b.u, b.rate)
    | none => (t.s, t.u, rate)

/-- Sheaf of the last change on its way on the write side: what a recompile starts from. -/
def lastSheaf (t : ThrEng) : Sheaf :=
  match t.steps.getLast? with
  | some b => b.sheaf
  | none => t.write

/-- A recompile starts when the budget moves (R202). -/
def startRecompile (e : Fin 4) (sn un rate : Nat) (s : State) : State :=
  let old := lastBudget s.thr.eng[e] s.thr.rate
  if old = (sn, un, rate) then s
  else
    let rose := decide (old.1 ≤ sn) && decide (old.2.1 ≤ un) && (decide (old.1 < sn) || decide (old.2.1 < un))
    setThrE e (fun t => { t with recompiling := some (sn, un, rate, rose) }) s

/-- The request of a bank that was loaded, and that of an engine's live bank. -/
def bankReq (b : SheafBank) : Option SheafReq := if b.loaded then some b.req else none
def liveReq (t : ThrEng) : Option SheafReq := bankReq t.banks[t.live]

/-- A recompile ends in the frame that began at `f`: the new write map is in force from f + 1, rate, order
and weights from f + 1, or f + 2 when the budget rose (R202, R203). -/
def endRecompile (e : Fin 4) (f : Nat) (s : State) : State :=
  let t := s.thr.eng[e]
  match t.recompiling with
  | none => s
  | some (sn, un, rate, rose) =>
    let sh := match liveReq t with
      | some r => if s.isMae e then compileSheaf (lastSheaf t) r (depthsOf s s.clw.depths e) sn un else {}
      | none => {}
    let b : BudgetStep := { writeAt := f + 1, readAt := if rose then f + 2 else f + 1, sheaf := sh,
                            s := sn, u := un, rate := rate, fresh := false }
    setThrE e (fun t => { t with recompiling := none, steps := t.steps ++ [b] }) s

/-- A working Sheaf that comes into force shows fewer planes than asked where the one before did not, or its stage changed:
THR_SHEAF_REDUCED (R201, R214). `fresh`: a commit brings it, so that nothing before it counts. -/
def judgeReduced (fresh : Bool) (e : Fin 4) (old new : Sheaf) (s : State) : State :=
  match liveReq s.thr.eng[e] with
  | some r =>
    let asked := sumN (sheafAsked r (depthsOf s s.clw.depths e))
    let short := decide (new.unique < asked) && (fresh || decide (asked ≤ old.unique) || old.unique == 0)
    raiseIf (short || old.stage != new.stage) evThrSheafReduced (new.stage * 4 + e.val) s
  | none => s

/-- Sheaf register changes of an engine at frame start `f` (R202, R203, R112, R274). -/
def stepEngine (f : Nat) (e : Fin 4) (s : State) : State :=
  let s := endRecompile e (f - 1) s
  let t := s.thr.eng[e]
  let wr := t.steps.foldl (fun a b => if b.writeAt ≤ f then b.sheaf else a) t.write
  let rd := t.steps.foldl (fun a b => if b.readAt ≤ f then b.sheaf else a) t.read
  let nx := t.steps.foldl (fun a b => if b.readAt ≤ f + 1 then b.sheaf else a) rd
  let sn := t.steps.foldl (fun a b => if b.readAt ≤ f then b.s else a) t.s
  let un := t.steps.foldl (fun a b => if b.readAt ≤ f then b.u else a) t.u
  let rate := t.steps.foldl (fun a b => if b.readAt ≤ f then b.rate else a) s.thr.rate
  let s1 := setThr (fun x => { x with rate := rate }) (setThrE e (fun t => { t with
    write := wr, read := rd, next := nx, s := sn, u := un,
    steps := t.steps.filter fun b => decide (f < b.readAt) }) s)
  judgeReduced (t.steps.any fun b => b.writeAt == f && b.fresh) e t.write wr s1

/-- The flags of THR_RATE_EFF and the events of a budget decision (R23, R24, R214, R343). -/
def rateEvents (x : Nat × Bool × Bool × Bool) (s : State) : State :=
  let old := s.thr
  let last := (lastBudget s.thr.eng[0] s.thr.rate).2.2
  let s1 := raiseIf (x.2.1 != old.cap) evThrSlotCap (b2n x.2.1 * 32768 + x.1 % 32768) s
  let s2 := raiseIf (((x.2.2.1 || old.grantLow) && x.1 != last) || (x.2.2.2 && !old.refLow)) evThrRateChange
    (x.1 % 32768) s1
  setThr (fun t => { t with cap := x.2.1, grantLow := x.2.2.1, refLow := x.2.2.2 }) s2

/-- The Thresher reassesses the budget for the frame rate `f`, in mHz (R202). -/
def reassess (f : Nat) (s : State) : State :=
  let x := rateTarget s f
  let b := slotsAt x.1 f
  forEng (fun e a => startRecompile e b.1 b.2 x.1 a) (rateEvents x s)

/-- The budget at once in force when the fast domains come up: nothing is lit (log 35). -/
def initBudget (s : State) : State :=
  let f := budgetRate s
  let s := { s with grn := { s.grn with grant := grantNow s } }
  let x := rateTarget s f
  let b := slotsAt x.1 f
  setThr (fun t => { t with
    rate := x.1, cap := x.2.1, grantLow := x.2.2.1, refLow := x.2.2.2,
    eng := vmap (fun (y : ThrEng) => { y with s := b.1, u := b.2, steps := [], recompiling := none }) t.eng }) s

/-! ## SHEAF_LOAD (R512, R191) -/

/-- The field checks that do not need the clocks (R493). -/
def sheafLoadPre (rq : Req) (_ : State) : Option (Status × List Byte) :=
  let p := rq.payload
  if 4 ≤ byteAt p 0 ∨ !zeroAt p 1 3 ∨ !sheafReqOk (slice p 4 32) then some (.badParam, []) else none

/-- SHEAF_LOAD runs. -/
def sheafLoadRun (rq : Req) (s : State) : Ans :=
  let e : Fin 4 := Fin.ofNat 4 (byteAt rq.payload 0)
  let r := slice rq.payload 4 32
  if !s.isMae e then deny .wrongState s
  else if armedNames s (·.sheaf) e then deny .busy s
  else
    let t := s.thr.eng[e]
    let sh := compileSheaf {} r (depthsOf s s.clw.depths e) t.s t.u
    (setThrE e (fun t => { t with banks := upd t.banks (other t.live) ⟨true, r, sh⟩ }) s, .ok,
      leBytes 4 (sheafReport sh))

/-- SHEAF_LOAD. -/
def sheafLoadBody (rq : Req) (s : State) : Ans :=
  match sheafLoadPre rq s with
  | some r => (s, r.1, r.2)
  | none => deferrable sheafLoadPre sheafLoadRun rq s

def execSheafLoad (t : Time) (rq : Req) (s : State) : Out := .next (serve 0x20 sheafLoadBody rq (s.at t))

/-- SHEAF_RECOMPILE_COMPLETE: within 1 ms of the frame start the recompiled Sheaf stands ready (R202). -/
def execSheafRecompileComplete (t : Time) (e : Fin 4) (s : State) : Out :=
  let s := s.at t
  .next (endRecompile e s.cmp.frameCount s)

/-! ## Registers (R213) -/

/-- The Sheaf that THR_SHEAF_SEL names. -/
def selSheaf (s : State) : Sheaf :=
  let t := s.thr.eng[Fin.ofNat 4 (wfl s.thr.sel 12 2)]
  match wfl s.thr.sel 10 2 with
  | 0 => t.banks[0].sheaf
  | 1 => t.banks[1].sheaf
  | _ => t.read

/-- The entry bits at THR_SHEAF_SEL; 0 at or beyond SLOTS. -/
def selEntry (s : State) : Nat :=
  match (selSheaf s).entries[wfl s.thr.sel 0 9]? with
  | some x => entryWord x
  | none => 0

/-- The entry index of THR_SHEAF_SEL advances by one, wrapping in its 9 bits. -/
def selAdvance (s : State) : State :=
  setThr (fun t => { t with sel := toW (setFld t.sel.toNat 0 9 (wfl t.sel 0 9 + 1)) }) s

/-- THR_SHEAF_DATA_HI_READ: the read of PARAM_READ or BAR0 with its side effect (R213). -/
def execThrSheafDataHiRead (t : Time) (s : State) : Out :=
  let s := s.at t
  if !inSRL s.hth.pwr && s.hth.pwr != .quench && s.hth.pwr != .safe then .next { s with last := .wrongState }
  else .next (selAdvance { s with last := .ok, readData := toW (selEntry s / 2 ^ 32) })

/-! ## Commit (R212, R112) -/

/-- Element 0x28 + n: the bank that will be live, for the depths and gamut bank after the commit (R212). -/
def sheafReject (s : State) (depths : Word) (flagged gamutFlagged : Bool) (e : Fin 4) : Option Reject :=
  let t := s.thr.eng[e]
  let d := depthsOf s depths e
  let g := if gamutFlagged then (spareBank s e).getD resetBank else liveBank s e
  match bankReq t.banks[if flagged then other t.live else t.live] with
  | none => some ⟨0x28 + e.val, 0x20, e.val⟩
  | some r =>
    match (List.range 24).find? fun i => decide (d ≤ i / 6) && byteAt r i != 0 with
    | some i => some ⟨0x28 + e.val, 0x21, i / 6⟩
    | none =>
      match (List.range 24).find? fun i => decide (i / 6 < d) && gbEnabled g (i % 6) && byteAt r i == 0 with
      | some i => some ⟨0x28 + e.val, 0x22, 8 * (i / 6) + i % 6⟩
      | none => none

/-- A bank compiled for a depth count and a budget; one never loaded stays as it is. -/
def recompiled (x : SheafBank) (d : Nat) (b : Nat × Nat × Nat) : SheafBank :=
  if x.loaded then { x with sheaf := compileSheaf {} x.req d b.1 b.2.1 } else x

/-- The bank that will be live is compiled at validation for the budget in force at the apply frame, a change already
known included (R212). The live bank of an engine whose depth count the commit moves takes its result at the apply, so
that it equals the working Sheaf until then (R193). -/
def sheafValidated (depths : Word) (flagged : Bool) (e : Fin 4) (s : State) : State :=
  if s.isMae e && (flagged || depthsOf s depths e == depthsOf s s.clw.depths e) then
    setThrE e (fun t => { t with
      banks := updWith t.banks (if flagged then other t.live else t.live) fun x =>
        recompiled x (depthsOf s depths e) (lastBudget t s.thr.rate) }) s
  else s

/-- The live bank compiled anew gives the working Sheaf: its write side in force from frame start `f`, its read side
from f + 1 (R112, R193). -/
def sheafWorks (f : Nat) (live : Fin 2) (e : Fin 4) (s : State) : State :=
  setThrE e (fun t =>
    let b := lastBudget { t with recompiling := none } s.thr.rate
    let x := recompiled t.banks[live] (depthsOf s s.clw.depths e) b
    { t with
      live := live, banks := upd t.banks live x,
      steps := t.steps ++ [{ writeAt := f, readAt := f + 1, sheaf := x.sheaf, s := b.1, u := b.2.1, rate := b.2.2,
                             fresh := true }] }) s

/-- A commit applies at frame start `f`: a flagged bank, or a new depth count, gives a working Sheaf (R112, R193, R204). -/
def sheafApply (f : Nat) (flagged depthsMoved : Bool) (e : Fin 4) (s : State) : State :=
  if !s.isMae e || !(flagged || depthsMoved) then s
  else sheafWorks f (if flagged then other s.thr.eng[e].live else s.thr.eng[e].live) e s

end Sys2Proof.Machine
end

