-- ==== Sys2Proof/Machine/Lanes.lean ====
section
/-! DEFINITION. The transmit lanes of a mirror-array engine: which of them run (R14, R215, R232, R237), the flits they
carry (R217-R219), the plan of a slot's lane time (R221, R228, R229), how it is cut short (R223, R234), and the line code
below the flits (R216). -/

namespace Sys2Proof.Machine

/-! ## Lanes in use -/

/-- LANES of a SWT_CONFIG value: 1, 2, 4 or 8 (R240). -/
def swtLanes (v : Word) : Nat := 2 ^ wfl v 30 2

/-- The lanes in use as a mask. -/
def laneMask (v : Word) : Nat := 2 ^ swtLanes v - 1

/-- The lanes run: the link is not OFF and the SERDES PLL is on its clock (R232, R237). -/
def lanesRun (s : State) (e : Fin 4) : Bool :=
  s.swt[e].link != .off && s.tng.pll[(2 : Fin 4)].locked && !s.tng.pll[(2 : Fin 4)].bypass && !s.tng.pll[(2 : Fin 4)].off

/-- Lane e.m is powered: lanes n.L to n.7, and every lane of an engine that is not MAE, are not (R14, R215). -/
def lanePowered (s : State) (e : Fin 4) (m : Nat) : Bool :=
  s.isMae e && s.swt[e].link != .off && decide (m < swtLanes s.swt[e].config)

/-- The lanes send IDLE flits with BLANK = 1: they run and the engine is not lit (R232, R234, R237). -/
def idleBlank (s : State) (e : Fin 4) : Bool := lanesRun s e && s.swt[e].link != .active

/-! ## Flits (R217-R219) -/

/-- DATA flits of a band of `n` bytes with its CRC (R218). -/
def bandFlits (n : Nat) : Nat := cdiv (n + 4) 99

/-- Flits of one item on `l` lanes. -/
def SwtCmd.flits (l : Nat) : SwtCmd → Nat
  | .band _ _ n => n
  | .align _ r => r * l
  | .train _ r => 2 * r * l
  | .idle _ n => n
  | _ => 1

/-- `n` bytes: a list cut or filled up with 0x00. -/
def padTo (n : Nat) (b : List Byte) : List Byte := (b ++ List.replicate n 0).take n

/-- The body of a CTRL flit: the command in 95 bytes and their CRC-32C (R219). -/
def ctrlBody (b : List Byte) : List Byte := padTo 95 b ++ leBytes 4 (crc32c (padTo 95 b))

/-- Header bits [7:5] (TYPE and BLANK) and body of flit `i` of an item that stands on lane `m` of `l` (R217-R219). -/
def SwtCmd.flit (l i m : Nat) : SwtCmd → Nat × List Byte
  | .planeBegin slot parity zero =>
    (4, ctrlBody ([1] ++ leBytes 2 (slot % 512 + b2n parity * 32768) ++ leBytes 1 (b2n zero)))
  | .band _ data _ =>
    let all := data ++ leBytes 4 (crc32c data)
    (if i + 1 = bandFlits data.length then 2 else 0, padTo 99 (slice all (99 * i) 99))
  | .bandBlank slot k => (4, ctrlBody ([2] ++ leBytes 2 slot ++ leBytes 1 k))
  | .align c _ => (4, ctrlBody ([3] ++ leBytes 1 m ++ leBytes 4 (c + i / l)))
  | .train c _ =>
    if i / l % 2 = 0 then (4, ctrlBody ([3] ++ leBytes 1 m ++ leBytes 4 (c + i / l / 2))) else (7, List.replicate 99 0)
  | .probe n => (4, ctrlBody ([4] ++ leBytes 4 n))
  | .arrayCfg w h n r => (4, ctrlBody ([0x10] ++ leBytes 2 w ++ leBytes 2 h ++ leBytes 1 n ++ leBytes 3 r))
  | .idle blank _ => (if blank then 7 else 6, List.replicate 99 0)

/-- The lane stream of a list of items from flit number `f` on: lane and the 100 bytes of each flit; flit f goes to lane
f mod L with FSEQ counted on each lane modulo 32 (R217). -/
def flitStream (l : Nat) : Nat → List SwtCmd → List (Nat × List Byte)
  | _, [] => []
  | f, c :: r =>
    ((List.range (c.flits l)).map fun i =>
      let x := c.flit l i ((f + i) % l)
      ((f + i) % l, BitVec.ofNat 8 (x.1 * 32 + (f + i) / l % 32) :: x.2)) ++ flitStream l (f + c.flits l) r

/-- Flits of a list of items. -/
def sentFlits (l : Nat) (c : List SwtCmd) : Nat := sumN (c.map (·.flits l))

/-- The flits of an engine's lanes in the slot before and in the current one. -/
def laneStream (w : SwtEng) : List (Nat × List Byte) := flitStream (swtLanes w.config) w.flits (w.sentWas ++ w.sent)

/-- The first `n` flits of a list of items. -/
def takeFlits (l : Nat) : Nat → List SwtCmd → List SwtCmd
  | _, [] => []
  | n, c :: r =>
    if c.flits l ≤ n then c :: takeFlits l (n - c.flits l) r
    else match c with
      | .band k d _ => [.band k d n]
      | .align a _ => [.align a (n / l)]
      | .train a _ => [.train a (n / (2 * l))]
      | .idle b _ => [.idle b n]
      | _ => []

/-! ## A slot's lane time (R221, R228, R229) -/

/-- The length of a slot in taps: the frame period over S + 1 (R18). -/
def slotTaps (s : State) (e : Fin 4) : Nat := s.tng.framePeriod / (s.thr.eng[e].s + 1)

/-- Flits that `l` lanes carry in a number of taps, 105.82 Gbit/s a lane (R216, R225). -/
def flitsIn (l taps : Nat) : Nat := taps * l * 26455 / 800000

/-- Bands of the plane of a slot entry in plane buffer `b`, from the plane store (R189, R220). -/
def bandBytes (s : State) (e : Fin 4) (b p k : Nat) : List Byte :=
  let h := s.eng[e].h
  let row := rowBytes s.eng[e].w
  s.hbmReads (e.val * 0x40000000 + b * 530841600 + p * 4147200 + h * k / 16 * row) ((h * (k + 1) / 16 - h * k / 16) * row)

/-- The bands that lie wholly within the first `n` bytes of a plane. -/
def bandsWithin (s : State) (e : Fin 4) (n : Nat) : List Nat :=
  (List.range 16).filter fun k => decide (s.eng[e].h * (k + 1) / 16 * rowBytes s.eng[e].w ≤ n)

/-- From band `k` on a slot is blanked by command after `n` flits of the band: BAND_BLANK in the next flit, no further data,
the rest of the time idle (R207, R223). -/
def cutBand (l slot k n : Nat) (c : List SwtCmd) : List SwtCmd :=
  let isBand (m : Nat) : SwtCmd → Bool
    | .band j _ _ => decide (m ≤ j)
    | _ => false
  let before := c.takeWhile fun x => !isBand k x
  let part := (c.filter fun x => isBand k x && !isBand (k + 1) x).filterMap fun
    | .band j d m => if 0 < min n m then some (SwtCmd.band j d (min n m)) else none
    | _ => none
  let after := (c.dropWhile fun x => !isBand k x).filter fun x => !isBand 0 x
  let head := before ++ part ++ [.bandBlank slot k]
  head ++ [.idle false (sentFlits l c - sentFlits l head - sentFlits l after)] ++ after

/-- The lanes go over to IDLE flits with BLANK = 1 now: what was planned and has not left is not sent (R234). -/
def lanesBlank (s : State) (e : Fin 4) (w : SwtEng) : SwtEng :=
  let l := swtLanes w.config
  let gone := flitsIn l (s.now - w.sentAt)
  let blank := if lanesRun s e then [SwtCmd.idle true (flitsIn l (slotTaps s e) - gone)] else []
  { w with sent := takeFlits l gone w.sent ++ blank }

/-! ## The line code of a lane (R216, R439)

What a lane carries of its flits: the scrambler, the RS(544,514) codewords and their PAM4 levels, as views of the recorded
stream. The field, the generator and the order of bits and symbols are those of IEEE 802.3 clause 91: PRESUMED (log 71). -/

/-- The bits of bytes, the low bit of each byte first. -/
def lineBits (b : List Byte) : List Bool := b.flatMap fun x => (List.range 8).map x.getLsbD

/-- The self-synchronising scrambler 1 + x^39 + x^58 from its last 58 output bits, the newest in bit 0 (R216). -/
def scramble (st : Nat) (b : List Bool) : List Bool × Nat :=
  let r := b.foldl (fun (x : List Bool × Nat) i =>
    let o := i ^^ x.2.testBit 38 ^^ x.2.testBit 57
    (o :: x.1, (2 * x.2 + b2n o) % 2 ^ 58)) ([], st)
  (r.1.reverse, r.2)

/-- A product in GF(2^10) with the polynomial x^10 + x^3 + 1. -/
def gfMul (a b : Nat) : Nat :=
  (List.range 10).reverse.foldl (fun x i =>
    let d := 2 * x
    let y := if d.testBit 10 then d ^^^ 0x409 else d
    if b.testBit i then y ^^^ a else y) 0

/-- The generator polynomial of RS(544,514), highest coefficient first: its roots are alpha^0 to alpha^29. -/
def rsGenerator : List Nat :=
  ((List.range 30).foldl (fun (g : List Nat × Nat) _ =>
    (List.zipWith (· ^^^ ·) (g.1 ++ [0]) (0 :: g.1.map (gfMul g.2)), gfMul 2 g.2)) ([1], 1)).1

/-- The 30 parity symbols of message symbols, the first sent first: the remainder by the generator. -/
def rsParity (m : List Nat) : List Nat :=
  m.foldl (fun r x =>
    let f := x ^^^ r.headD 0
    List.zipWith (fun a g => a ^^^ gfMul f g) (r.drop 1 ++ [0]) (rsGenerator.drop 1)) (List.replicate 30 0)

/-- The codewords of a stream of payload bits that begins at a codeword: 514 symbols of 10 bits, low bit first, and 30 of
parity. -/
def codewords (b : List Bool) : List (List Nat) :=
  (List.range (b.length / 5140)).map fun i =>
    let m := (List.range 514).map fun j => maskOf 10 fun k => b.getD (5140 * i + 10 * j + k) false
    m ++ rsParity m

/-- The Gray-coded PAM4 levels of a codeword: bit pairs 00, 01, 11 and 10 are the levels 0 to 3, no precoding (R216). -/
def pam4 (c : List Nat) : List Nat :=
  c.flatMap fun x => (List.range 5).map fun k => 2 * b2n (x.testBit (2 * k)) + b2n (x.testBit (2 * k) ^^ x.testBit (2 * k + 1))

/-- The levels on lane m over the slot before and the current one, from the scrambler's state `st` and with `cut` payload
bits to the next codeword: where the code stands when a slot begins no register shows (log 71). -/
def laneLevels (w : SwtEng) (m st cut : Nat) : List Nat :=
  let b := lineBits (((laneStream w).filter (·.1 == m)).flatMap (·.2))
  (codewords ((scramble st b).1.drop cut)).flatMap pam4

/-- Codeword lock, held or not, with the run of codewords that speak against it: 8 good codewords in a row gain it, 4
uncorrectable ones in a row lose it (R216). -/
def lockStep (l : Bool × Nat) (good : Bool) : Bool × Nat :=
  if good == l.1 then (l.1, 0)
  else if (if l.1 then 4 else 8) ≤ l.2 + 1 then (good, 0)
  else (l.1, l.2 + 1)

end Sys2Proof.Machine
end

