-- ==== Sys2Proof/Machine/Forge.lean ====
section
/-! DEFINITION. The Forge's lasers: light level and ramp (R270), the light fraction (R271, R283), pulses,
merging and drops (R272-R274), LSE drive (R277), derating (R279-R281), the emission limit (R282-R284) and the
dark paths (R285-R287). -/

namespace Sys2Proof.Machine

/-- The Forge record changed, the record of one engine, of one channel. -/
def setFrg (f : Frg → Frg) (s : State) : State := { s with frg := f s.frg }
def setFrgE (e : Fin 4) (f : FrgEng → FrgEng) (s : State) : State :=
  setFrg (fun x => { x with eng := updWith x.eng e f }) s
def setCh (c : Fin 24) (f : Chan → Chan) (s : State) : State :=
  setFrg (fun x => { x with ch := updWith x.ch c f }) s
/-- The Swath and Scan records of one engine changed. -/
def setSwt (e : Fin 4) (f : SwtEng → SwtEng) (s : State) : State := { s with swt := updWith s.swt e f }
def setScn (e : Fin 4) (f : ScnEng → ScnEng) (s : State) : State := { s with scn := updWith s.scn e f }

/-- `f` on the six channels of an engine. -/
def engChans (e : Fin 4) (f : Chan → Chan) (s : State) : State :=
  setFrg (fun x => { x with ch := tab 24 fun i => if chanEng i = e then f x.ch[i] else x.ch[i] }) s

/-- The Temper record changed. -/
def setTmp (f : Tmp → Tmp) (s : State) : State := { s with tmp := f s.tmp }

/-- Temper steps of quantity `q` on the taps that satisfy `p` are abandoned without a count (R406, R408). -/
def dropSteps (q : Fin 7) (p : Nat → Bool) (s : State) : State :=
  setTmp (fun x => { x with steps := updWith x.steps q fun l => l.filter fun y => !p y.1 }) s

/-! ## Dark paths (R285, R286) -/

/-- The emission limit that OTP gives, 0 when unwritten: the test limit in FACTORY and RETURN, the record in
PROVISIONED and FIELD (R282, R466, R469). -/
def otpLimit (s : State) (e : Fin 4) : Nat :=
  let lc := s.otp.lifecycle
  if lc = 1 ∨ lc = 4 then 0x01000100
  else if lc = 2 ∨ lc = 3 then
    match slotValue s.otp.emission[e] with
    | some v => leNat v
    | none => 0
  else 0

/-- The limit in force: a new record acts from the next frame start (R470). -/
def emitLimit (s : State) (e : Fin 4) : Nat := s.frg.eng[e].limit

/-- LASER_EN_N of the engine is low (R286, R392). -/
def laserEn (s : State) (e : Fin 4) : Bool :=
  (s.hth.pwr == .ready || s.hth.pwr == .lit) && s.used e && emitLimit s e != 0
    && s.frg.eng[e].cause &&& 0xF == 0 && s.thm.q != 0

/-- Lasers of an engine go dark: DAC codes 0, gates inactive; a link or scanner that served it waits ready,
the lanes blank, Temper steps that need the engine lit are discarded (R285, R232, R406). -/
def engineDark (e : Fin 4) (s : State) : State :=
  let s1 := engChans e (fun c => { c with pulse := {} }) (setFrgE e (fun x => { x with lit := false }) s)
  let s2 := setThrE e (fun t => { t with lit := false }) s1
  let s3 := setSwt e (fun w => if w.link = .active then { lanesBlank s e w with link := .ready } else w) s2
  let s4 := setScn e (fun w => { w with st := if w.st = .active then .inWindow else w.st, line := none }) s3
  dropSteps 0 (fun t => t / 24 == e.val) (dropSteps 1 (fun t => t / 8 == e.val)
    (dropSteps 4 (fun t => t / 6 == e.val) (dropSteps 5 (fun t => t == e.val) s4)))

/-- A dark cause becomes active: bit of CAUSE (R285, R294), and the holder of the telltales is judged again. -/
def darkCause (e : Fin 4) (b : Nat) (s : State) : State :=
  judgeHolder (engineDark e (setFrgE e (fun x => { x with cause := x.cause ||| BitVec.ofNat 7 (2 ^ b) }) s))

/-- A dark cause is released; the engine relights under R48 once no cause is left. -/
def releaseCause (e : Fin 4) (b : Nat) (s : State) : State :=
  setFrgE e (fun x => { x with cause := x.cause &&& ~~~(BitVec.ofNat 7 (2 ^ b)) }) s

/-! ## Light level and ramp (R270) -/

/-- Binary search for the greatest `x` below `lo + 2^n` with `p x`, where `p lo` holds. -/
def searchUp (p : Nat → Bool) : Nat → Nat → Nat
  | 0, lo => lo
  | n + 1, lo => if p (lo + 2 ^ n) then searchUp p n (lo + 2 ^ n) else searchUp p n lo

/-- E_0 (E_1 / E_0)^(j / n), rounded to nearest: the rounding is log 36. -/
def geometric (e0 e1 n j : Nat) : Nat :=
  let v := 2 ^ n * (e0 ^ (n - j) * e1 ^ j)
  searchUp (fun x => decide ((2 * x - 1) ^ n ≤ v)) 25 0

/-- The value of a ramp at its frame j: from 0 it starts at 168, to 0 it runs to 168 and then steps to 0. -/
def Ramp.value (r : Ramp) : Nat :=
  let e0 := if r.e0 = 0 then 168 else r.e0
  let e1 := if r.e1 = 0 then 168 else r.e1
  if r.j < r.n then geometric e0 e1 r.n r.j
  else if r.j = r.n then e1
  else r.e1

/-- The ramp at a frame start: the running one advances; one that is waiting starts from the value reached
(R270, log 37). -/
def rampFrame (s : State) : State :=
  let s1 := match s.frg.ramp with
    | some r =>
      let r := { r with j := r.j + 1 }
      let last := if r.e1 = 0 then r.n + 1 else r.n
      setFrg (fun x => { x with eRamp := r.value, ramp := if last ≤ r.j then none else some r }) s
    | none => s
  match s1.frg.rampNext with
  | some (e1, n) =>
    let e0 := s1.frg.eRamp
    if n = 0 ∨ (e0 = 0 ∧ e1 = 0) then setFrg (fun x => { x with eRamp := e1, ramp := none, rampNext := none }) s1
    else
      let r : Ramp := ⟨e0, e1, n, 0⟩
      setFrg (fun x => { x with eRamp := r.value, ramp := some r, rampNext := none }) s1
  | none => s1

/-- Allowed light levels (R270). -/
def lightLevelOk (v : Nat) : Bool := v = 0 || (168 ≤ v && v ≤ 16777216)

/-- FRG_LIGHT_LEVEL written: its ramp starts at the next frame start (R270). -/
def setLightLevel (v n : Nat) (s : State) : State :=
  setFrg (fun x => { x with level := v, rampNext := some (v, n) }) s

/-- The shared values that the last announced change leads to, or else those in force (R451). -/
def lastShared (s : State) : Shared := ((s.brg.sharedPend.getLast?).map (·.1)).getD s.brg.shared

/-- LIGHT_LEVEL (R516); forwarded to all members it becomes a shared value (R451). -/
def lightLevelBody (rq : Req) (s : State) : Ans :=
  let p := rq.payload
  let v := le32 p 0
  let n := le16 p 4
  if !lightLevelOk v ∨ 1000 < n ∨ !zeroAt p 6 2 then deny .badParam s
  else if rqForward rq && rqTarget rq == 15 && s.hth.role == 1 then
    ({ s with
        brg := { s.brg with
          sharedPend := s.brg.sharedPend ++ [({ lastShared s with light := some (v, n) }, s.brg.frame + 3)] } }, .ok,
      statusBytes 0x28 ((present s).map (fun n => (n, 0))) [])
  else (setLightLevel v n s, .ok, [])

def execLightLevel (t : Time) (rq : Req) (s : State) : Out := .next (serve 0x28 lightLevelBody rq (s.at t))

/-! ## Light fraction (R271, R283) -/

/-- x_emit of an engine for the frame lit next (R283). -/
def xEmit (s : State) (e : Fin 4) : Option Frac :=
  let g := s.frg.eng[e]
  if g.peakAvg = 0 ∨ g.x.isZero then none
  else some (Frac.mk' (g.x.num * 9 * (emitLimit s e / 65536 * 8) * 1000) (g.x.den * 10 * g.peakAvg))

/-- The throttle factor times global_dimming, in 1/256: throttle_n x min(1, m / throttle_n) (R452). -/
def dimmed (s : State) : Nat := min s.thm.throttle (s.brg.shared.dim.getD 256)

/-- BRG_DIM: global_dimming in force in 1/256, rounded to nearest (R458, log 49). -/
def brgDim (s : State) : Nat :=
  match s.brg.shared.dim with
  | some m => if s.thm.throttle ≤ m then 256 else rdiv (256 * m) s.thm.throttle
  | none => 256

/-- e of R271. -/
def lightRequest (s : State) : Frac := Frac.mk' (s.frg.eRamp * dimmed s) (2 ^ 24 * 256)

/-- e x f_ref / f, or e for an LSE (R271). -/
def lightWanted (s : State) (e : Fin 4) : Frac :=
  let f := s.thr.eng[e].next.f
  let r := wfl s.frg.eng[e].fRef 0 12
  if s.isMae e && r != 0 then ((lightRequest s).mul ⟨r, 8⟩).div f else lightRequest s

/-- The analog floor (R272, R294). -/
def floorFrac (s : State) : Frac := ⟨wfl s.frg.floor 0 8, 256⟩

/-- The light fraction of the frame lit from the next frame start is fixed for one engine: FRG_HEADROOM,
FRG_EMIT_LIMITING (R271, R283). -/
def lightFrame (e : Fin 4) (s : State) : State :=
  if !s.used e then s
  else
    let g := s.frg.eng[e]
    let w := lightWanted s e
    let above := (Frac.ofNat 1).lt w
    let x0 := w.min (Frac.ofNat 1)
    let xe := xEmit s e
    let binds := match xe with
      | some y => y.lt x0
      | none => false
    let x := match xe with
      | some y => x0.min y
      | none => x0
    let m := 2 ^ e.val
    let s1 := setFrgE e (fun g => { g with
      xPrev := g.x, x := g.xNext, xNext := x, headroom := above, emitLimiting := binds, peakAvg := 0,
      merge := g.mergeNext, drops := g.dropsNext, dropsOf := g.dropsOfNext }) s
    raiseIf (binds && (!g.emitLimiting || !s.evt.latched evFrgEmitLimiting)) evFrgEmitLimiting m
      (raiseIf (above && !g.headroom) evFrgHeadroom m s1)

/-! ## Mirror-array pulses, merge and drops (R272-R274) -/

/-- SETTLE and GUARD of a band-timing value (R213, log 38). -/
def bandSettle (v : Word) : Nat := wfl v 8 6
def bandGuard (v : Word) : Nat := wfl v 0 5

/-- W_FULL in 0.1 ns (R206). -/
def wFull (v : Word) : Nat := 416667 - 18750 - 1250 * bandSettle v - 1250 * bandGuard v

/-- x / a of R272. -/
def overAnalog (x phi : Frac) : Frac := if phi.le x then ⟨1, 1⟩ else x.div phi

/-- The pulse of a weight, in 0.1 ns (R272). -/
def pulseFrac (v : Word) (xa : Frac) (w : Nat) : Frac := Frac.mk' (wFull v * w * xa.num) (65535 * xa.den)

/-- A pulse below 2 ns. -/
def pulseShort (v : Word) (xa : Frac) (w : Nat) : Bool := (pulseFrac v xa w).lt ⟨20, 1⟩

/-- The piece weights of plane (j, k, i) of a Sheaf. -/
def pieceWeights (sh : Sheaf) (j k i : Nat) : List Nat :=
  (sh.entries.filter fun x => !x.dark && x.depth == j && x.primary == k && x.bit == i).map (·.weight)

/-- The least of a list, 0 when empty. -/
def minN (l : List Nat) : Nat := l.min?.getD 0

/-- The merge flag (R273). -/
def mergeFlag (sh : Sheaf) (v : Word) (xa : Frac) : Bool :=
  (planeOrder sh.bits).any fun p =>
    let w := pieceWeights sh p.1 p.2.1 p.2.2
    decide (1 < w.length) && pulseShort v xa (minN w)

/-- Planes dropped from one channel frame, from plane `i` on (R273). -/
def dropCount (sh : Sheaf) (v : Word) (xa : Frac) (merge : Bool) (j k : Nat) : Nat → Nat → Nat
  | 0, _ => 0
  | n + 1, i =>
    let w := pieceWeights sh j k i
    let p := if merge || w.length ≤ 1 then sumN w else minN w
    if pulseShort v xa p then 1 + dropCount sh v xa merge j k n (i + 1) else 0

/-- Merge flag and drop set of the frame being composed are fixed (R274, R294). -/
def dropFrame (e : Fin 4) (s : State) : State :=
  if !s.isMae e then
    setFrgE e (fun g => { g with
      region := if (floorFrac s).le g.x then 0 else 1, mergeNext := false, dropsNext := List.replicate 24 0 }) s
  else
    let g := s.frg.eng[e]
    let sh := s.thr.eng[e].next
    let v := s.thr.eng[e].timing
    let xa := overAnalog g.xNext (floorFrac s)
    let merge := mergeFlag sh v xa
    let drops := (List.range 24).map fun i => dropCount sh v xa merge (i / 6) (i % 6) (sh.bits.getD i 0) 0
    setFrgE e (fun g => { g with
      mergeNext := merge, dropsNext := drops, dropsOfNext := sh.bits,
      region := if (floorFrac s).le g.x then 0 else if g.merge then 2 else 1 }) s

/-- THR_BITS of the frame composed now: the write map less the drops (R185, R213). -/
def bitsFrame (e : Fin 4) (s : State) : State :=
  let sh := s.thr.eng[e].write
  let b (i : Nat) : Nat := sh.bits.getD i 0 - s.frg.eng[e].dropsNext.getD i 0
  let w : Vector Word 4 := tab 4 fun j => toW (sumN ((List.range 6).map fun k => b (6 * j.val + k) * 2 ^ (5 * k)))
  setThrE e (fun t => { t with bits := w }) s

/-- The Forge leaves the plane of an entry unlit: its place, counted as the drop set counts it, is dropped. A recompile
since then has given the planes that stay new bit numbers, from the MSB (R202, R274). -/
def droppedBit (g : FrgEng) (sh : Sheaf) (x : SheafEntry) : Bool :=
  let i := 6 * x.depth + x.primary
  decide (x.bit + (g.dropsOf.getD i 0 - sh.bits.getD i 0) < g.drops.getD i 0)

/-- The weight at which a slot's entry is lit: 0 for a drop or a piece other than the first of a merge, the
sum of the pieces for its first (R273, R275). -/
def litWeight (s : State) (e : Fin 4) (sh : Sheaf) (x : SheafEntry) : Nat :=
  let g := s.frg.eng[e]
  if x.dark || droppedBit g sh x then 0
  else if g.merge && x.pieces != 0 then
    if x.piece = 0 then sumN (pieceWeights sh x.depth x.primary x.bit) else 0
  else x.weight

/-- The channel may be driven: enabled and not PD-faulted (R287). -/
def chanOk (s : State) (c : Fin 24) : Bool := wb s.frg.ch[c].cfg 0 && !s.frg.ch[c].pdFault

/-- A DAC code after CLAMP and the quench factor (R267, R392). -/
def drive (s : State) (c : Fin 24) (code : Nat) : Nat :=
  min (code * s.thm.q / 16) (wfl s.frg.ch[c].cfg 16 16)

/-- GATE_DLY of a channel plus its Temper gate-timing tap, in taps: the delay of each of its gate edges (R268). -/
def gateDelay (s : State) (c : Fin 24) : Int := sext 8 (wfl s.frg.ch[c].cfg 8 8) + s.tmp.working[(4 : Fin 7)].getD c.val 0

/-- The pulse of an MAE slot on its channel: code round(a FULL), length to the nearest 250 ps, centred in the
light window and delayed (R272, R268). -/
def slotPulse (s : State) (e : Fin 4) (w : Nat) (window : Nat) (c : Fin 24) : Pulse :=
  let g := s.frg.eng[e]
  let phi := floorFrac s
  let a := Frac.max g.x phi
  let len := (Frac.mk' (4 * (pulseFrac s.thr.eng[e].timing (overAnalog g.x phi) w).num)
    (10 * (pulseFrac s.thr.eng[e].timing (overAnalog g.x phi) w).den)).round
  if !chanOk s c ∨ len < 8 then {}
  else { code := drive s c (Frac.mk' (a.num * s.frg.ch[c].full) a.den).round, len := len,
         start := ((window - len : Nat) : Int) / 2 + gateDelay s c }

/-! ## LSE drive (R255, R277) -/

/-- delta_min in 1/256: 2 ns over the shortest column period at F_MAX, rounded up (R277). -/
def deltaMin (s : State) (e : Fin 4) : Nat :=
  let t := s.scn[e].vct[s.scn[e].bank]
  let steps := List.zipWith (fun (a b : VctEntry) => (b.phase - a.phase).toNat) t (t.drop 1)
  cdiv (2 * 256 * wfl s.scn[e].hrange 16 16 * 2 ^ 21) (minN steps * 1000000000)

/-- LEVEL_k of a channel for the frame lit now (R277, R392). -/
def lseLevel (s : State) (e : Fin 4) (c : Fin 24) : Nat :=
  let x := s.frg.eng[e].x
  let phi := floorFrac s
  let d : Frac := ⟨deltaMin s e, 256⟩
  let full := s.frg.ch[c].full
  let lvl := if phi.le x then (Frac.mk' (x.num * full) x.den).round
    else if (phi.mul d).le x then (Frac.mk' (phi.num * full) phi.den).round
    else max 1 ((x.mul ⟨full, 1⟩).div d).round
  if x.isZero then 0 else lvl * s.thm.q / 16

/-- REGION of an LSE (R277). -/
def lseRegion (s : State) (e : Fin 4) : Nat :=
  let x := s.frg.eng[e].x
  let phi := floorFrac s
  if phi.le x then 0 else if (phi.mul ⟨deltaMin s e, 256⟩).le x then 1 else 2

/-- The active gate within a column that lasts from `a` to `b` (R277): all of it in region A; in B the duty x / phi of it
and in C delta_min, centred, rounded to 250 ps, at least 2 ns (R268). -/
def columnGate (s : State) (e : Fin 4) (a b : Int) : Int × Int :=
  let x := s.frg.eng[e].x
  let phi := floorFrac s
  let t := (b - a).toNat
  let duty := match lseRegion s e with
    | 0 => t
    | 1 => max 8 (Frac.mk (t * x.num * phi.den) (x.den * phi.num)).round
    | _ => max 8 (rdiv (t * deltaMin s e) 256)
  (a + ((t - duty : Nat) : Int) / 2, a + ((t - duty : Nat) : Int) / 2 + duty)

/-- The DAC code of a column: floor(q GAIN LEVEL / (4,095 x 2,048)), at most 65,535 and the clamp (R255, R267). -/
def columnCode (s : State) (c : Fin 24) (q gain level : Nat) : Nat :=
  min (min 65535 (q * gain * level / (4095 * 2048))) (wfl s.frg.ch[c].cfg 16 16)

/-! ## Derating (R279-R281) -/

/-- D at a temperature (in 1/16 degree C above -55 degrees), as numerator and denominator (R279). -/
def curveAt (v : Vector (Nat × Nat) 8) (t : Nat) : Frac :=
  match (List.finRange 7).find? fun i =>
      decide (16 * v[i.castSucc].1 ≤ t) && decide (t < 16 * v[i.succ].1) with
  | some i =>
    let a := v[i.castSucc]
    let b := v[i.succ]
    let den := 16 * (b.1 - a.1)
    let up := t - 16 * a.1
    ⟨a.2 * (den - up) + b.2 * up, den⟩
  | none => if t < 16 * v[0].1 then ⟨v[0].2, 1⟩ else ⟨v[7].2, 1⟩

/-- D of a channel: the lowest fraction while its NTC is failed (R280). -/
def derating (s : State) (c : Fin 24) (v : Vector (Nat × Nat) 8) : Frac :=
  let n : Fin 8 := Fin.ofNat 8 (wfl s.frg.ch[c].cfg 5 3)
  if s.thm.ntcFailed.toNat.testBit n.val then ⟨minN (v.toList.map (·.2)), 1⟩
  else curveAt v (s.thm.ntc[n] + 880).toNat

/-- One channel at the 10 ms recomputation (R279, R281). D is reported rounded to nearest, cap_k rounded down
(log 39). -/
def recomputeChan (s : State) (c : Fin 24) : Chan :=
  let x := s.frg.ch[c]
  let curve := x.curveNext.getD x.curve
  let d := derating s c curve
  let cap := min (wfl x.cfg 16 16) (d.num * 257 / d.den)
  { x with curve := curve, curveNext := none, derate := d.round, cap := cap,
           full := min x.full cap, capped := decide (cap ≤ x.full) }

/-- DERATE_RECOMPUTE, every 10 ms (R279). -/
def execDerateRecompute (t : Time) (s : State) : Out :=
  let s := s.at t
  if !s.fastUp then .next s else .next (setFrg (fun f => { f with ch := tab 24 (recomputeChan s) }) s)

/-- FRG_DERATE_DATA written (R281, R294): the refusal, if any, and the state after it. -/
def derateWrite (value : Word) (s : State) : Status × State :=
  let c : Fin 24 := Fin.ofNat 24 (wfl s.frg.derateSel 3 5)
  let p : Fin 8 := Fin.ofNat 8 (wfl s.frg.derateSel 0 3)
  let v := upd s.frg.ch[c].staged p (wfl value 8 8, wfl value 0 8)
  let rising := (List.finRange 7).all fun i => decide (v[i.castSucc].1 < v[i.succ].1)
  if s.hth.lock then (.wrongState, s)
  else if 65536 ≤ value.toNat then (.badParam, s)
  else if p = 7 then
    if rising then (.ok, setCh c (fun x => { x with staged := v, curveNext := some v }) s) else (.badParam, s)
  else (.ok, setCh c (fun x => { x with staged := v }) s)

/-- The answer of a register row: its status stands in `last` (log 4). Writes outside group 0x01 are served
as PARAM_WRITE is (R32, R33, R492). -/
def regAnswer (f : State → Status × State) (s : State) : Out :=
  if inSRL s.hth.pwr && lcOk { port := .spi, opcode := 0x09, tag := 0, flags := 0, payload := [], crc := 0, at' := 0 }
      s.otp.lifecycle then .next { (f s).2 with last := (f s).1 }
  else .next { s with last := .wrongState }

def execFrgDerateDataWrite (t : Time) (value : Word) (s : State) : Out := regAnswer (derateWrite value) (s.at t)

/-! ## Emission limit (R282-R284) -/

/-- An emission trip (R284). -/
def emissionTrip (e : Fin 4) (s : State) : State :=
  raise evFrgEmissionTrip e.val (darkCause e 2 (setFrgE e (fun g => { g with tripAt := some s.now }) s))

/-- EMISSION_SAMPLE: the 1 us sum and the 1 ms average against the limits, in units of 8 counts. -/
def execEmissionSample (t : Time) (e : Fin 4) (power : List Nat) (s : State) : Out :=
  let s := s.at t
  if !s.fastUp ∨ !s.used e ∨ emitLimit s e = 0 then .next s
  else
    let sum := sumN power
    let sums := (sum :: s.frg.eng[e].sums).take 1000
    let avg := sumN sums
    let s1 := setFrgE e (fun g => { g with sums := sums, peakAvg := max g.peakAvg avg }) s
    let lim := emitLimit s e
    let above := decide (lim % 65536 * 8 < sum) || decide (lim / 65536 * 8 * 1000 < avg)
    if above ∧ s1.frg.eng[e].tripAt = none then .next (emissionTrip e s1) else .next s1

/-- EMIT_RESET written 1: accepted no sooner than 1 s after the trip (R284, log 40). -/
def emitResetWrite (e : Fin 4) (s : State) : Status × State :=
  match s.frg.eng[e].tripAt with
  | none => (.ok, s)
  | some a =>
    if a + sec ≤ s.now then
      (.ok, releaseCause e 2 (setFrgE e (fun g => { g with tripAt := none, sums := [], peakAvg := 0 }) s))
    else (.wrongState, s)

def execEmitReset (t : Time) (e : Fin 4) (s : State) : Out := regAnswer (emitResetWrite e) (s.at t)

/-- PD_FAULT_COUNT: the eighth bad frame in a row of a channel's photodiode (R287). -/
def execPdFaultCount (t : Time) (ch : Fin 24) (s : State) : Out :=
  let s := s.at t
  if !s.fastUp ∨ s.frg.ch[ch].pdFault ∨ !wb s.frg.ch[ch].cfg 0 then .next s
  else .next (raise evFrgChFault ch.val (setCh ch (fun c => { c with pdFault := true, pulse := {} })
    (setScn (chanEng ch) (fun w => { w with line := w.line.map fun l =>
      { l with cols := upd l.cols (Fin.ofNat 6 ch.val) [] } }) s)))

/-! ## Register views (R294) -/

/-- FRG_ENGINE_En. -/
def engineWord (s : State) (e : Fin 4) : Nat :=
  let g := s.frg.eng[e]
  (if s.isLse e then lseRegion s e else g.region) % 4 * 2 ^ 30 + b2n g.merge * 2 ^ 29
    + maxN g.drops % 32 * 2 ^ 24 + b2n g.headroom * 2 ^ 23 + b2n g.emitLimiting * 2 ^ 22
    + b2n (laserEn s e) * 2 ^ 21 + g.cause.toNat

/-- FRG_CH_STATUS_n. -/
def chanWord (c : Chan) : Nat :=
  c.full * 65536 + c.derate * 256 + b2n c.pdFault * 4 + b2n c.capped * 2 + b2n c.lit

end Sys2Proof.Machine
end

