-- ==== Sys2Proof/Machine/Temper.lean ====
section
/-! DEFINITION. Temper background calibration: steps and moves (R403-R408, R487), the journal (R409-R415),
CAL_CONTROL and CAL_READ (R524, R525), and the check before a non-volatile write (R397). -/

namespace Sys2Proof.Machine

/-! ## The check before a boot-flash record or OTP write (R397) -/

/-- The coldest reading of a working die sensor. -/
def coldestDie (s : State) : Int :=
  ((List.finRange 40).filter fun i => !s.thm.dieFailed.toNat.testBit i.val && (s.thm.suspect[i]).isNone).foldl
    (fun a i => min a s.thm.die[i]) 32767

/-- A write may not begin: THERMAL_INHIBIT by temperature, HW_FAULT by supply (R397). -/
def writeRefused (s : State) : Option Status :=
  let hot := if s.hth.pwr = .sleep then decide (105 * 16 < s.hth.temp) || decide (s.hth.temp < -(20 * 16))
    else decide (105 * 16 < s.thm.tj) || decide (coldestDie s < -(20 * 16))
  if hot then some .thermalInhibit
  else if s.thm.supplyWarn ≠ 0 then some .hwFault
  else none

/-! ## Taps (R403) -/

/-- Taps of a quantity, and their absolute range. -/
def tapCount (q : Fin 7) : Nat := [96, 32, 640, 24, 24, 4, 40].getD q.val 0
def tapLo (q : Fin 7) : Int := [-32, 0, 0, 0, -16, 0, -8].getD q.val 0
def tapHi (q : Fin 7) : Int := [31, 255, 127, 4095, 15, 4095, 7].getD q.val 0

def tapWorking (s : State) (q : Fin 7) (t : Nat) : Int := s.tmp.working[q].getD t 0
def tapStored (s : State) (q : Fin 7) (t : Nat) : Int := s.tmp.stored[q].getD t 0

/-- The engine a tap belongs to, for the quantities that belong to engines. -/
def tapEngine (q : Fin 7) (t : Nat) : Fin 4 :=
  Fin.ofNat 4 (if q = 0 then t / 24 else if q = 1 then t / 8 else if q = 5 then t else t / 6)

/-- FLYBACK of SCN_VERT_En in taps (R264). -/
def flybackTaps (w : ScnEng) : Nat := us * wfl w.vert 16 16

/-- Vertical flyback runs (R252, R261). -/
def inFlyback (s : State) (e : Fin 4) : Bool :=
  match s.scn[e].fly with
  | some (a, _) => !s.scn[e].drawing && decide (s.now ≤ a + flybackTaps s.scn[e])
  | none => false

/-- The lane of a Swath tap had no uncorrectable codeword in the last status frame (R405). -/
def laneClean (s : State) (q : Fin 7) (t : Nat) : Bool :=
  !s.swt[tapEngine q t].laneUnc.toNat.testBit (if q = 0 then t / 3 % 8 else t % 8)

/-- The owner of a tap is in steady operation, as far as the state shows it (R405, R406). -/
def tapSteady (s : State) (q : Fin 7) (t : Nat) : Bool :=
  let e := tapEngine q t
  match q.val with
  | 0 | 1 => s.swt[e].link == .active && laneClean s q t
  | 2 => let p := s.grn.pc[Fin.ofNat 64 (t / 10)]
         !p.failed && p.suspect.isNone && !p.retraining
  | 4 => s.frg.eng[e].lit && s.frg.eng[e].region == 0
  | 5 => s.scn[e].st == .active && s.scn[e].ignored == 0
  | 6 => s.tng.clk.st == .locked
  | _ => true

/-- Temper takes steps in this state, for this quantity (R408). -/
def temperOn (s : State) (q : Fin 7) : Bool :=
  (s.hth.pwr == .ready || s.hth.pwr == .lit || s.hth.pwr == .safe) && s.fastUp && wb s.tmp.enable q.val

/-- A step of the quantity is in progress: for quantities 0 and 1, on the same engine (R403). -/
def stepBusy (s : State) (q : Fin 7) (t : Nat) : Bool :=
  s.tmp.steps[q].any fun x => decide (2 ≤ q.val) || tapEngine q x.1 == tapEngine q t

/-- The run of check failures of a tap. -/
def tapRun (s : State) (q : Fin 7) (t : Nat) : Nat := (look s.tmp.runs[q] t).getD 0

/-- A check failure: counted; the eighth in a row freezes the tap (R404, R407). -/
def checkFailure (q : Fin 7) (t : Nat) (s : State) : State :=
  let r := tapRun s q t + 1
  let s1 := setTmp (fun x => { x with
    checkFails := updWith x.checkFails q (satInc 16),
    runs := updWith x.runs q fun l => put l t r,
    frozen := if 8 ≤ r then updWith x.frozen q fun l => (t :: l).dedup else x.frozen }) s
  raiseIf (decide (8 ≤ r)) evTmpTapFrozen (t * 8 + q.val) s1

/-- The target of a tap from its measure (R239, R403). SKEW of the last status frame is the lane's arrival offset in UI: the
skew tap that takes it to 0. Of the other quantities the firmware computes the target from its measure, for an equaliser
the CORR of 16 frames: the manual states no formula, so `target` is what it found (log 44). -/
def tapTarget (s : State) (q : Fin 7) (t : Nat) (target : Int) : Option Int :=
  let w := s.swt[tapEngine q t]
  if q = 1 then (w.skew[t % 8]?).map fun k => tapWorking s q t - k
  else if q = 0 && decide (w.corr.length < 16) then none
  else some target

/-- TEMPER_MEASUREMENT_WINDOW (R404, R405). `preOk`: the parts of the precondition the state does not show
held throughout the window. -/
def execTemperMeasurementWindow (t : Time) (q : Fin 7) (tap : Nat) (preOk : Bool) (target : Int)
    (s : State) : Out :=
  let s := s.at t
  if !temperOn s q || decide (tapCount q ≤ tap) || s.tmp.frozen[q].contains tap || stepBusy s q tap then .next s
  else if !(preOk && tapSteady s q tap) then
    .next (setTmp (fun x => { x with preFails := updWith x.preFails q (satInc 16) }) s)
  else match tapTarget s q tap target with
    | none => .next s
    | some v =>
      if v < tapLo q ∨ tapHi q < v ∨ 2 < (v - tapStored s q tap).natAbs then .next (checkFailure q tap s)
      else .next (setTmp (fun x => { x with
        runs := updWith x.runs q fun l => put l tap 0,
        steps := if v = tapWorking s q tap then x.steps else updWith x.steps q fun l => l ++ [(tap, v)] }) s)

/-- The quantity of {a, b} that the boundary takes, by its rotation pointer (R480, R487). -/
def boundaryPick (ptr a b : Nat) (wantA wantB : Bool) : Nat :=
  if wantA && wantB then (if a < ptr && ptr ≤ b then b else a) else if wantA then a else b

/-- Who competes for a boundary of the quantity: the engine, of quantity 2 the pseudo-channel, of those that move at frame
starts the device (R485). -/
def tapOwner (q : Fin 7) (t : Nat) : Nat :=
  match q.val with
  | 0 | 1 | 5 => (tapEngine q t).val
  | 2 => t / 10 % 64
  | _ => 0

/-- The activity code of a quantity's starvation, and whether it waits for its guaranteed slot (R485, R486). -/
def starveCode (q : Fin 7) (owner : Nat) : Nat := 0x200 + 64 * q.val + owner
def tapStarved (s : State) (q : Fin 7) (owner : Nat) : Bool := s.bst.starved.contains (starveCode q owner)

/-- The boundary is free for the quantity, a starved one before the other: at most one move per idle gap of an engine from quantities 0 and
1, one per frame start from 4 and 6 (R487); a threshold of quantity 5 moves only during vertical flyback (R261). -/
def moveWins (s : State) (q : Fin 7) (t : Nat) : Bool :=
  let e := tapEngine q t
  let o := tapOwner q t
  let want (p : Fin 7) : Bool := s.tmp.steps[p].any fun x => decide (4 ≤ p.val) || tapEngine p x.1 == e
  let pick (ptr : Nat) (a b : Fin 7) : Bool :=
    let wa := want a && (tapStarved s a o || !(want b && tapStarved s b o))
    let wb := want b && (tapStarved s b o || !(want a && tapStarved s a o))
    boundaryPick ptr a.val b.val wa wb == q.val
  match q.val with
  | 0 | 1 => !s.tmp.took01.toNat.testBit e.val && pick s.tmp.rot01[e] 0 1
  | 4 | 6 => !s.tmp.took46 && pick s.tmp.rot46 4 6
  | 5 => inFlyback s e
  | _ => true

/-- One unit towards a target. -/
def oneTowards (v target : Int) : Int := if v < target then v + 1 else if target < v then v - 1 else v

/-- A working value set. -/
def setWorking (q : Fin 7) (t : Nat) (v : Int) (s : State) : State :=
  setTmp (fun x => { x with working := updWith x.working q fun l => l.set t v }) s

/-- A move is applied (R404); a value that reaches stored +- 2 makes a journal write due (R415). -/
def applyMove (q : Fin 7) (tap : Nat) (target : Int) (s : State) : State :=
  let e := tapEngine q tap
  let v := oneTowards (tapWorking s q tap) target
  let s0 := setWorking q tap v s
  let a := starveCode q (tapOwner q tap)
  let s1 := setBst (fun b => { b with
    starved := b.starved.filter (· != a), starving := b.starving.filter fun x => x.1 != a }) s0
  let s2 := setTmp (fun x => { x with
    steps := updWith x.steps q fun l => l.filter fun y => y.1 != tap,
    due := x.due || decide (2 ≤ (v - tapStored s q tap).natAbs),
    took01 := if q.val ≤ 1 then x.took01 ||| BitVec.ofNat 4 (2 ^ e.val) else x.took01,
    rot01 := if q.val ≤ 1 then upd x.rot01 e (q.val + 1) else x.rot01,
    took46 := x.took46 || q.val == 4 || q.val == 6,
    rot46 := if q.val = 4 ∨ q.val = 6 then (q.val + 1) % 7 else x.rot46 }) s1
  if q = 5 then setScn e (fun w => { w with skip := true }) s2 else s2

/-- TEMPER_MOVE: the next boundary of a step's quantity (R404, R406, R487). -/
def execTemperMove (t : Time) (q : Fin 7) (tap : Nat) (s : State) : Out :=
  let s := s.at t
  match look s.tmp.steps[q] tap with
  | none => .next s
  | some target =>
    if !temperOn s q || !tapSteady s q tap then .next (dropSteps q (fun x => x == tap) s)
    else if moveWins s q tap then .next (applyMove q tap target s)
    else .next s

/-! ## Values set without the checks (R405, R411) -/

/-- Working and stored values of taps set; a journal write falls due (R405, R415). -/
def forceTaps (q : Fin 7) (l : List (Nat × Int)) (s : State) : State :=
  let put1 (v : List Int) : List Int := l.foldl (fun a p => a.set p.1 p.2) v
  setTmp (fun x => { x with
    working := updWith x.working q put1, stored := updWith x.stored q put1,
    steps := updWith x.steps q fun y => y.filter fun z => !(l.any fun p => p.1 == z.1), due := true }) s

/-- Taps set to values that an adaptation finds and the manual does not state: free values within the
absolute range (R233, R405; log 11). -/
def freeTaps (q : Fin 7) (l : List Nat) (s : State) : State :=
  l.foldl (fun a t =>
    let f := a.fresh
    forceTaps q [(t, tapLo q + ((f.1 % ((tapHi q - tapLo q).toNat + 1) : Nat) : Int))] f.2) s

/-- The equalisers of some lanes of an engine adapt from their defaults (R233). -/
def adaptLanes (e : Fin 4) (l : List Nat) (s : State) : State :=
  freeTaps 0 (l.flatMap fun m => (List.range 3).map (24 * e.val + 3 * m + ·)) s

/-- The transmit taps of an engine whose array was replaced adapt from their defaults (R411). -/
def adaptSwath (e : Fin 4) (s : State) : State :=
  freeTaps 1 ((List.range 8).map (8 * e.val + ·)) (freeTaps 0 ((List.range 24).map (24 * e.val + ·)) s)

/-! ## The journal (R409-R415) -/

/-- The slot that does not hold the newest valid record; slot A when none is valid (R412). -/
def journalTarget (s : State) : Fin 2 :=
  match s.tmp.newest with
  | some n => other n
  | none => 0

/-- A working value differs from its stored value. -/
def tapsDiffer (s : State) : Bool := s.tmp.working != s.tmp.stored

/-- A journal write is due (R415). -/
def journalDue (s : State) : Bool :=
  s.tmp.due || s.tmp.save.isSome ||
    (tapsDiffer s && decide ((s.tmp.lastWrite.getD s.hth.timeBase) + s.tmp.period.toNat * sec ≤ s.now))

/-- A journal write may begin now: not within 600 s of the last, not during a transition, not after three
failed read-backs (R412, R413, R415). -/
def journalFree (s : State) : Bool :=
  s.tmp.writing.isNone && decide (s.tmp.writeFails < 3) && s.hth.trans.isNone
    && (inSRL s.hth.pwr || s.hth.pwr == .safe)
    && match s.tmp.lastWrite with
      | some a => decide (a + 600 * sec ≤ s.now)
      | none => true

/-- A SAVE completes with the write's result (R524). -/
def saveDone (st : Status) (s : State) : State :=
  match s.tmp.save with
  | some k => cmdDone k st (setTmp (fun x => { x with save := none }) s)
  | none => s

/-- A journal write begins, or is refused and tried again 1 s later (R412, R414). -/
def journalBegin (s : State) : State :=
  match writeRefused s with
  | some st => saveDone st (setTmp (fun x => { x with due := true, retryDue := some (s.now + sec) }) s)
  | none =>
    let slot := journalTarget s
    let rec' : JournalRec := {
      seq := if s.tmp.newest.isSome then s.tmp.seq + 1 else 1,
      arrayId := tab 4 fun e => if s.isMae e then s.swt[e].arrayId else List.replicate 8 0,
      taps := s.tmp.working }
    let s1 := setTmp (fun x => { x with
      due := false, writing := some ⟨slot, rec'⟩, lastWrite := some s.now, retryDue := none }) s
    { s1 with flash := { s1.flash with journal := upd s1.flash.journal slot none } }

/-- JOURNAL_WRITE_START (R415). -/
def execJournalWriteStart (t : Time) (s : State) : Out :=
  let s := s.at t
  .next (if journalDue s && journalFree s && s.tmp.retryDue.isNone then journalBegin s else s)

/-- JOURNAL_RETRY: 1 s after a refused write (R414). -/
def execJournalRetry (t : Time) (s : State) : Out :=
  let s := s.at t
  match s.tmp.retryDue with
  | some d =>
    if d ≤ s.now then
      let s1 := setTmp (fun x => { x with retryDue := none }) s
      .next (if journalDue s1 && journalFree s1 then journalBegin s1 else s1)
    else .next s
  | none => .next s

/-- JOURNAL_WRITE_COMPLETE: the read-back of the write in progress (R412). -/
def execJournalWriteComplete (t : Time) (readBackOk : Bool) (s : State) : Out :=
  let s := s.at t
  match s.tmp.writing with
  | none => .next s
  | some w =>
    let isA := w.slot == 0
    if readBackOk then
      let s1 := setTmp (fun x => { x with
        writing := none, stored := w.record.taps, newest := some w.slot, seq := w.record.seq, writeFails := 0,
        validA := x.validA || isA, validB := x.validB || !isA }) s
      let s2 := { s1 with flash := { s1.flash with journal := upd s1.flash.journal w.slot (some w.record) } }
      .next (saveDone .ok (raise evTmpJournalWritten w.record.seq s2))
    else
      let s1 := setTmp (fun x => { x with
        writing := none, writeFails := min 3 (x.writeFails + 1), due := true,
        validA := x.validA && !isA, validB := x.validB && isA }) s
      .next (saveDone .hwFault (raise evTmpJournalFail 0 s1))

/-- A write in progress is abandoned (R413): the slot stays invalid; a SAVE that waited for it ends with
HW_FAULT (log 43). -/
def journalAbandon (s : State) : State :=
  match s.tmp.writing with
  | none => s
  | some w =>
    let isA := w.slot == 0
    saveDone .hwFault (setTmp (fun x => { x with
      writing := none, due := true, validA := x.validA && !isA, validB := x.validB && isA }) s)

/-! ## CAL_CONTROL and CAL_READ -/

/-- Factory defaults restored for the quantities of a mask (R405, R524). -/
def restoreTaps (mask : Nat) (s : State) : State :=
  (List.finRange 7).foldl (fun a q =>
    if bit mask q.val then
      setTmp (fun x => { x with
        working := upd x.working q a.otp.tapFactory[q], stored := upd x.stored q a.otp.tapFactory[q],
        steps := upd x.steps q [], due := true }) a
    else a) s

/-- CAL_CONTROL (R524). -/
def calControlBody (rq : Req) (s : State) : Ans :=
  let p := rq.payload
  let op := byteAt p 0
  let q : Fin 7 := Fin.ofNat 7 (byteAt p 1)
  let tap := le16 p 2
  let mask := le32 p 4
  if 4 ≤ op ∨ (op ≠ 1 ∧ !zeroAt p 1 3) ∨ ((op = 1 ∨ op = 3) ∧ mask ≠ 0) ∨ 128 ≤ mask then deny .badParam s
  else if op = 0 then (setTmp (fun x => { x with enable := toW mask }) s, .ok, [])
  else if op = 1 then
    if 7 ≤ byteAt p 1 ∨ tapCount q ≤ tap then deny .badParam s
    else (setTmp (fun x => { x with
      frozen := updWith x.frozen q fun l => l.filter (· != tap),
      runs := updWith x.runs q fun l => put l tap 0 }) s, .ok, [])
  else if op = 2 then
    if s.hth.pwr = .lit then deny .wrongState s else (restoreTaps mask s, .ok, [])
  else if 3 ≤ s.tmp.writeFails then deny .hwFault s
  else (setTmp (fun x => { x with save := some (reqKey rq), due := true }) s, .pending, [])

/-- The record of a tap in CAL_READ (R525). -/
def calRecord (s : State) (q : Fin 7) (t : Nat) : List Byte :=
  leBytes 4 (b2n (s.tmp.frozen[q].contains t) * 2 ^ 31 + unsext 15 (tapStored s q t) * 65536
    + unsext 15 (tapWorking s q t))

/-- CAL_READ (R525). -/
def calReadBody (rq : Req) (s : State) : Ans :=
  let p := rq.payload
  let q : Fin 7 := Fin.ofNat 7 (byteAt p 0)
  let first := le16 p 2
  let n := le16 p 4
  let most := if portLimit rq.port = 1024 then 255 else 1023
  if 7 ≤ byteAt p 0 ∨ !zeroAt p 1 1 ∨ !zeroAt p 6 2 ∨ n = 0 ∨ most < n ∨ tapCount q < first + n then
    deny .badParam s
  else (s, .ok, leBytes 2 q.val ++ leBytes 2 first ++ (List.range n).flatMap fun i => calRecord s q (first + i))

def execCalControl (t : Time) (rq : Req) (s : State) : Out := .next (serve 0x50 calControlBody rq (s.at t))
def execCalRead (t : Time) (rq : Req) (s : State) : Out := .next (serve 0x51 calReadBody rq (s.at t))

/-! ## Start-up (R410, R411) -/

/-- The journal read at cold-start step 2: the newest valid record's taps, or factory defaults (R410). -/
def journalLoad (s : State) : State :=
  let a := s.flash.journal[(0 : Fin 2)]
  let b := s.flash.journal[(1 : Fin 2)]
  let pick : Option (Fin 2 × JournalRec) := match a, b with
    | some x, some y => if x.seq < y.seq then some (1, y) else some (0, x)
    | some x, none => some (0, x)
    | none, some y => some (1, y)
    | none, none => none
  let taps := match pick with
    | some (_, r) => r.taps
    | none => s.otp.tapFactory
  let s1 := setTmp (fun x => { x with
    working := taps, stored := taps, validA := a.isSome, validB := b.isSome, newest := pick.map (·.1),
    seq := match pick with | some (_, r) => r.seq | none => 0 }) s
  let s2 := raiseIf (a.isNone && b.isSome) evTmpJournalInvalid 0 s1
  let s3 := raiseIf (a.isSome && b.isNone) evTmpJournalInvalid 1 s2
  raiseIf (a.isNone && b.isNone) evTmpJournalEmpty 0 s3

/-- The stored ARRAY_ID of an engine: that of the last bring-up since the fast domains came up, else the
journal's (R411). -/
def knownArray (s : State) (e : Fin 4) : Option (List Byte) :=
  if s.swt[e].arrayId ≠ [] then some s.swt[e].arrayId
  else match s.tmp.newest with
    | some n => (s.flash.journal[n]).map fun r => r.arrayId[e]
    | none => none

/-- Working values of a quantity's taps taken back to the stored ones (R232, R56). -/
def storedTaps (q : Fin 7) (p : Nat → Bool) (s : State) : State :=
  let new : List Int := (List.range (tapCount q)).map fun t => if p t then tapStored s q t else tapWorking s q t
  setTmp (fun x => { x with working := upd x.working q new }) s

/-! ## Register views (R416) -/

/-- TMP_STATUS. -/
def tmpStatus (s : State) : Nat :=
  let x := s.tmp
  (match x.newest with | some n => n.val + 1 | none => 0) * 2 ^ 30 + b2n x.validA * 2 ^ 29 + b2n x.validB * 2 ^ 28
    + b2n x.writing.isSome * 2 ^ 27 + b2n (x.writing.isNone && journalDue s) * 2 ^ 26 + x.writeFails % 4 * 2 ^ 24
    + maskOf 7 (fun q => !(x.steps[Fin.ofNat 7 q]).isEmpty)

/-- TMP_FROZEN. -/
def tmpFrozen (s : State) : Nat :=
  sumN ((List.range 7).map fun q => min 15 (s.tmp.frozen[Fin.ofNat 7 q]).length * 16 ^ q)

end Sys2Proof.Machine
end

