-- ==== Sys2Proof/Machine/Background.lean ====
section
/-! DEFINITION. Background work: which pseudo-channels serve (R354, R376, R379), patrol scrub (R367, R368), the march
instances (R419-R423), and starvation (R484-R486). -/

namespace Sys2Proof.Machine

/-- The pseudo-channel belongs to a stack in use (R354). -/
def pcInUse (s : State) (c : Fin 64) : Bool := decide (c.val < 32) || s.grn.stacksUsed == 3

/-- HBM is trained, wiped and out of self-refresh (R49 steps 7 and 8). -/
def hbmRuns (s : State) : Bool := s.hth.boot == .on && !s.grn.selfRefresh

/-- The pseudo-channel is accessed: in use and not failed (R354, R376). -/
def pcWorks (s : State) (c : Fin 64) : Bool := hbmRuns s && pcInUse s c && !s.grn.pc[c].failed

/-- The Granary answers requests: it is sound and out of self-refresh (R379). -/
def grnServes (s : State) : Bool := s.grn.sound && hbmRuns s

/-- A real-time port is URGENT or in PANIC: background ports receive no service (R360). -/
def withheld (s : State) : Bool := (List.finRange 4).any fun e => s.grn.urg[e] != .normal

/-! ## Patrol scrub (R368) -/

/-- Granules [a, b) of the plane buffers of the engines configured as MAE, and of the DP frame buffers (R355). -/
def scrubSkipped (s : State) : List (Nat × Nat) :=
  ((List.finRange 4).filter s.isMae).map (fun e => (e.val * 0x40000, e.val * 0x40000 + 259200)) ++ [(0x100000, 0x160000)]

/-- Patrol scrub passes over the location. -/
def scrubSkips (s : State) (addr : Nat) : Bool :=
  let g := addr / 4096
  (scrubSkipped s).any (fun r => decide (r.1 ≤ g) && decide (g < r.2))
    || (s.grn.pc[pcOf s.grn.stacksUsed addr].failed && !s.grn.written.contains g)

/-- Granules below number `n` that stand in pseudo-channel c (R353). -/
def granulesBelow (stk : Nat) (c : Fin 64) (n : Nat) : Nat :=
  if stk = 3 then (n + 63 - (2 * (c.val % 32) + c.val / 32)) / 64 else if c.val < 32 then (n + 31 - c.val) / 32 else 0

/-- Granules [a, b) that patrol scrub reads: those of working pseudo-channels, and the redirected ones that are written. -/
def scrubGranules (s : State) (a b : Nat) : Nat :=
  sumN (((List.finRange 64).filter fun c => !s.grn.pc[c].failed).map fun c =>
    granulesBelow s.grn.stacksUsed c b - granulesBelow s.grn.stacksUsed c a)
    + (s.grn.written.filter fun g => decide (a ≤ g) && decide (g < b)).length

/-- The scrubbed bytes of a pass, whose share in a time gives the scrub rate. -/
def scrubBytes (s : State) : Nat :=
  4096 * (scrubGranules s 0 (surfaceEnd s / 4096) - sumN ((scrubSkipped s).map fun r => scrubGranules s r.1 r.2))

/-- Patrol scrub reaches the present time, in ascending order at the scrub rate, a new pass after each SCRUB_PERIOD; the
locations that wait are written back. While background service is withheld it stands, and catches up (log 73). -/
def scrubTick (s : State) : State :=
  if !grnServes s || withheld s then s
  else
    let p := wfl s.grn.config 16 8 * sec
    let a := s.grn.scrubFrom.getD s.now
    let n := (s.now - a) / p
    setGrn (fun g => { g with
      scrubFrom := some (a + n * p), scrubPasses := g.scrubPasses + n,
      scrubAt := scrubBytes s * ((s.now - a) % p) / p, scrubBack := [] }) s

/-! ## Instances (R419) -/

/-- Slices of 1 KiB of a march instance, 0 for a number that names none. -/
def slicesOf (i : Nat) : Nat :=
  if i = 0 then 64 else if i = 1 then 2048 else if i = 2 then 256
  else if 0x10 ≤ i ∧ i ≤ 0x1F then 1024
  else if 0x20 ≤ i ∧ i ≤ 0x23 then 1920
  else if 0x24 ≤ i ∧ i ≤ 0x27 then 4096
  else if 0x28 ≤ i ∧ i ≤ 0x2B then 192
  else if i = 0x30 then 64 else if i = 0x31 then 512 else if i = 0x32 then 132 else if i = 0x33 then 16 else 0

/-- The march instances, ascending, and all the instances BIST_RESULT reports. -/
def marchInsts : List Nat := (List.range 64).filter fun i => slicesOf i != 0
def allInsts : List Nat := marchInsts ++ [0x40, 0x41, 0x42, 0x43, 0x50, 0x51]

/-- A FIFO instance: slices only in the free region. -/
def isFifo (i : Nat) : Bool := decide (0x24 ≤ i) && decide (i ≤ 0x2B)

/-- The instance's block is powered and its PLL domain is not in bypass (R14, R421). -/
def instRuns (s : State) (i : Nat) : Bool :=
  if i = 0 then true
  else s.fastUp && (if i = 0x33 then !s.tng.pll[1].bypass else !s.tng.pll[0].bypass)
    && (if 0x20 ≤ i ∧ i ≤ 0x2B then s.used (Fin.ofNat 4 (i % 4)) else true)

/-- The march may run in this power state (R423) and life-cycle state, any but BLANK and SCRAPPED (table of kinds). -/
def marchState (s : State) (i : Nat) : Bool :=
  (s.hth.pwr == .ready || s.hth.pwr == .lit || s.hth.pwr == .safe
    || (i == 0 && (s.hth.pwr == .standby || s.hth.pwr == .sleep)))
    && s.otp.lifecycle != 0 && s.otp.lifecycle != 5

/-! ## Starvation (R484-R486) -/

/-- The maximum starvation time of an activity (R485). -/
def starveMax (a : Nat) : Option Nat :=
  if 12 ≤ a ∧ a < 16 then some (50 * ms)
  else if 0x100 ≤ a ∧ slicesOf (a - 0x100) ≠ 0 then some (100 * ms)
  else if 0x200 ≤ a ∧ a < 0x3C0 then some (if (a - 0x200) / 64 = 2 then 5 * sec else sec)
  else none

/-- A Granary background port has something to do: a pass, a step of quantity 2, HBM_FULL, telemetry. -/
def portWants (s : State) (p : Nat) : Bool :=
  if p = 13 then !s.tmp.steps[(2 : Fin 7)].isEmpty && temperOn s 2
  else if p = 14 then (match s.bst.run with | some (4, _) => true | _ => false)
  else true

/-- The activity is ready, and nothing that R484 leaves out of the count holds: background service is not withheld, no
real-time owner, its precondition and its block's clock hold. -/
def starveReady (s : State) (a : Nat) : Bool :=
  if a < 16 then decide (12 ≤ a) && grnServes s && !withheld s && portWants s a
  else if a < 0x200 then
    let i := a - 0x100
    slicesOf i != 0 && !isFifo i && (wb s.bst.config 0 || s.bst.asked.contains i) && marchState s i && instRuns s i
      && s.bst.slice.isNone
  else
    let q : Fin 7 := Fin.ofNat 7 ((a - 0x200) / 64)
    s.tmp.steps[q].any fun x => tapOwner q x.1 == a % 64 && temperOn s q && tapSteady s q x.1

/-- The activities that may wait now. -/
def activities (s : State) : List Nat :=
  [12, 13, 14, 15] ++ marchInsts.map (0x100 + ·)
    ++ ((List.finRange 7).flatMap fun q => s.tmp.steps[q].map fun x => starveCode q (tapOwner q x.1)).dedup

/-- An activity has its grant: its starvation time starts again from zero (R486). -/
def slotTaken (a : Nat) (s : State) : State :=
  setBst (fun b => { b with starved := b.starved.filter (· != a), starving := b.starving.filter fun x => x.1 != a }) s

/-- A starved port of the Granary takes its slot, for port 12 one location; the pointer of the class moves on (R480, R485). -/
def portSlot (p : Nat) (s : State) : State :=
  if s.bst.starved.contains p && starveReady s p then
    slotTaken p (setGrn (fun g => { g with
      rotBg := if p = 15 then 12 else p + 1, scrubBack := if p = 12 then g.scrubBack.drop 1 else g.scrubBack }) s)
  else s

/-- The starved ports take their slots, in the order of the rotation pointer. -/
def portSlots (s : State) : State :=
  ((List.range 4).map fun k => 12 + (s.grn.rotBg + k) % 4).foldl (fun a p => portSlot p a) s

/-- The starvation times are counted up to now (R484, log 74), and starved ports take their slots. -/
def starveTick (s : State) : State :=
  let dt := match s.bst.starveSeen with
    | some a => s.now - a
    | none => 0
  let more (l : List (Nat × Nat)) : List (Nat × Nat) :=
    ((activities s).filter (starveReady s)).foldl (fun l a => put l a ((look l a).getD 0 + dt)) l
  portSlots (setBst (fun b => { b with
    starveSeen := some s.now, starving := if dt = 0 then b.starving else more b.starving }) s)

end Sys2Proof.Machine
end

