-- ==== Sys2Proof/Machine/Servo.lean ====
section
/-! DEFINITION. The Servo Engine: fixed-point numbers (R298), loop configuration and banks (R308-R313, R321),
samples and their deadlines (R302-R307), modes (R314-R317), cascades (R318), COLOUR samples (R322, R323),
supervision (R324-R326), traces (R327), and the loop and trace commands. -/

namespace Sys2Proof.Machine

/-- The Servo record, one loop, one trace buffer changed. -/
def setSrv (f : Srv → Srv) (s : State) : State := { s with srv := f s.srv }
def setLoop (n : Fin 64) (f : Loop → Loop) (s : State) : State :=
  setSrv (fun x => { x with loops := updWith x.loops n f }) s
def setTrace (b : Fin 8) (f : Trace → Trace) (s : State) : State :=
  setSrv (fun x => { x with traces := updWith x.traces b f }) s

/-! ## Numbers (R298, R300) -/

/-- 1.0 in S7.24 and in S3.28. -/
def one24 : Int := 2 ^ 24
def one28 : Int := 2 ^ 28

/-- Saturation of the main path to 32 bits. -/
def sat32 (a : Int) : Int := clampI (-(2 ^ 31)) (2 ^ 31 - 1) a

/-- a / b rounded to nearest, halves away from zero, for b > 0. -/
def rdivAway (a : Int) (b : Nat) : Int :=
  if 0 ≤ a then (2 * a + b) / (2 * b) else -((2 * -a + b) / (2 * b))

/-- A product of a coefficient and a signal, before saturation. -/
def prod (c x : Int) : Int := rdivAway (c * x) (2 ^ 28)

/-- A code of 16 bits as S7.24 (R300). -/
def codeVal (c : Nat) : Int := rdivAway ((c : Int) * 2 ^ 24) 65535

/-- A value as a code of 16 bits, limited (R300). -/
def valCode (u : Int) : Nat := (clampI 0 65535 (rdivAway (u * 65535) (2 ^ 24))).toNat

/-- `a` moved towards `b` by at most `d`. -/
def moveBy (a b d : Int) : Int := clampI (a - d) (a + d) b

/-! ## Configuration fields (R308) -/

def cfgF (c : BitVec 64) (lo w : Nat) : Nat := fld c.toNat lo w
def Loop.ty (l : Loop) : Nat := cfgF l.cfg 60 4
def Loop.eng (l : Loop) : Fin 4 := Fin.ofNat 4 (cfgF l.cfg 58 2)
def Loop.srcKind (l : Loop) : Nat := cfgF l.cfg 54 4
def Loop.srcIdx (l : Loop) : Nat := cfgF l.cfg 48 6
def Loop.dstKind (l : Loop) : Nat := cfgF l.cfg 44 4
def Loop.dstIdx (l : Loop) : Nat := cfgF l.cfg 38 6
def Loop.div (l : Loop) : Nat := cfgF l.cfg 22 16 + 1
def Loop.phase (l : Loop) : Nat := cfgF l.cfg 6 16

/-- Cost of a sample, privilege (R306, R308). -/
def typeCost : Nat → Nat
  | 1 => 60 | 2 => 40 | 3 => 30 | 4 => 40 | 5 => 30 | 6 => 2400 | _ => 0
def privileged (ty : Nat) : Bool := ty == 1 || ty == 2

/-- The load of all slots (R306), and SRV_LOAD (R328). -/
def srvLoad (v : Vector Loop 64) : Frac :=
  (v.toList.map fun l => Frac.mk (typeCost l.ty) l.div).foldl Frac.add ⟨0, 1⟩
def srvLoadWord (v : Vector Loop 64) : Nat :=
  let f := srvLoad v
  (Frac.mk (16 * f.num) f.den).ceil

/-! ## Bank fields (R310, R321) -/

def bkI (b : Bank) (i : Nat) : Int := sext 32 (le32 b i)
def bkN (b : Bank) (i : Nat) : Nat := le16 b i

/-- The live bank; an empty one reads as zeros. -/
def Loop.bank (l : Loop) : Bank := (l.banks[l.live]).getD (List.replicate 112 0)

/-- The effective OUT_MAX (R300): limited by cap_k for a FULL destination. -/
def outMaxEff (s : State) (l : Loop) (b : Bank) : Int :=
  if l.dstKind = 2 then
    min (bkI b 24) (((s.frg.ch[Fin.ofNat 24 l.dstIdx].cap : Int) * 2 ^ 24) / 65535)
  else bkI b 24

/-- The loop whose output writes the set-point of loop `n` (R318), if any. -/
def outerOf (v : Vector Loop 64) (n : Fin 64) : Option (Fin 64) :=
  (List.finRange 64).find? fun m =>
    (v[m].dstKind == 3 && v[m].dstIdx == n.val && v[m].ty == 5)
      || (v[m].ty == 6 && v[n].ty == 1 && v[m].eng == v[n].eng)

/-- The set-point of a loop is written by SRV_SP_Sn (R308, R328). -/
def spOwn (v : Vector Loop 64) (n : Fin 64) : Bool :=
  (v[n].ty == 0 || v[n].ty == 1 || v[n].ty == 2 || v[n].ty == 5) && (outerOf v n).isNone

/-! ## Focus (R209, R210, R320) -/

/-- The focus loop of an engine (R213), and whether the engine uses it (R209). -/
def focusSlot (s : State) (e : Fin 4) : Fin 64 := Fin.ofNat 64 (wfl s.thr.eng[e].focus 0 6)
def focusUsed (s : State) (e : Fin 4) : Bool :=
  s.isMae e && (decide (1 < depthsOf s s.clw.depths e) || wb s.thr.eng[e].focus 8)

/-- The slot counts as focus-dark: counted, THR_FOCUS_DARK once per frame, the gate ends (R210). -/
def focusDark (e : Fin 4) (slice : Nat) (s : State) : State :=
  let t := s.thr.eng[e]
  let s1 := setThrE e (fun t => { t with
    focusDark := satInc 16 t.focusDark, focusRaised := true, lit := false }) s
  raiseIf (!t.focusRaised) evThrFocusDark (slice * 4 + e.val)
    (slotUnlit e t.slot (engChans e (fun c => { c with pulse := {} }) s1))

/-- The light window of the slot has not closed: it closes GUARD before the next epoch (R205). -/
def windowOpen (s : State) (e : Fin 4) : Bool :=
  decide (s.now + 500 * bandGuard s.thr.eng[e].timing < s.thr.eng[e].epochAt + slotTaps s e)

/-- IN_WINDOW of a FOCUS loop falls: a slot lit through it goes dark (R210, R320). -/
def windowFalls (n : Fin 64) (s : State) : State :=
  let was := s.srv.loops[n].inWindow
  let s1 := setLoop n (fun l => { l with inWindow := false, winRun := 0 }) s
  if was then
    forEng (fun e a => if a.thr.eng[e].lit && windowOpen a e && focusUsed a e && focusSlot a e == n
      then focusDark e a.thr.eng[e].target a else a) s1
  else s1

/-- The set-point a FOCUS loop takes for slice `j`: POS_j in 1/32,768 (R310, R320). -/
def focusPos (b : Bank) (j : Nat) : Int := sext 16 (bkN b (56 + 2 * j)) * 512

/-- The Thresher sets the target slice of an engine's focus loop (R209). -/
def setTarget (e : Fin 4) (j : Nat) (s : State) : State :=
  let n := focusSlot s e
  let moved := s.thr.eng[e].target != j
  let s1 := setThrE e (fun t => { t with target := j }) s
  if !focusUsed s e || s.srv.loops[n].ty != 4 then s1
  else
    let s2 := if moved then windowFalls n s1 else s1
    setLoop n (fun l => { l with rcmd := focusPos l.bank j }) s2

/-! ## Reading inputs (R300, R301, R304) -/

/-- y of a laser channel from its monitor energy E and drive integral Q (R301): E / Q x FULL / 65,535, before saturation;
no value for Q = 0. -/
def laserY (e q : Int) (full : Nat) : Int :=
  if q ≤ 0 then 0 else rdivAway (e * 2 ^ 24 * full) (q.toNat * 65535)

/-- The measurement of a loop at a tick, before saturation, and whether the sample has data. A sample with Q = 0 has none
(log 45). -/
def readSource (s : State) (inp : ServoIn) (l : Loop) : Int × Bool :=
  match l.srcKind with
  | 1 => (codeVal (inp.adc.getD l.srcIdx 0), true)
  | 2 =>
    let x := inp.energy.getD l.srcIdx (0, 0)
    let c : Fin 24 := Fin.ofNat 24 l.srcIdx
    let least := if l.ty = 1 then bkI l.bank 56 else 0
    (laserY x.1 x.2 s.frg.ch[c].full, decide (0 < x.2) && decide (least ≤ x.2))
  | 3 => (s.thm.ntc[Fin.ofNat 8 l.srcIdx] * 2 ^ 13, true)
  | 4 => (s.srv.loops[Fin.ofNat 64 l.srcIdx].uOut, true)
  | 5 =>
    let e : Fin 4 := Fin.ofNat 4 l.srcIdx
    (codeVal (inp.amp.getD l.srcIdx 0), s.scn[e].excited)
  | _ => (0, true)

/-- VOFS + VSCALE x y_rows of a SCAN_VERT loop (R319), and whether it saturated (R298); y_rows is kept in 1/65,536 row. -/
def vertSet (s : State) (l : Loop) : Int × Bool :=
  let p := rdivAway (bkI l.bank 56 * s.scn[l.eng].yRows) 65536
  let v := bkI l.bank 60 + sat32 p
  (sat32 v, decide (sat32 p ≠ p) || decide (sat32 v ≠ v))

/-- r_cmd of a loop at a sample tick (R308, R318-R320). -/
def commandOf (s : State) (n : Fin 64) : Int :=
  let l := s.srv.loops[n]
  match l.ty with
  | 3 => (vertSet s l).1
  | 4 => l.rcmd
  | _ => if spOwn s.srv.loops n then sext 32 l.sp.toNat else l.rcmd

/-! ## Flags and events -/

/-- Hardware sets flags of SRV_LOOP_Sn in this cycle (R6). -/
def markFlags (n : Fin 64) (m : BitVec 8) (s : State) : State :=
  setLoop n (fun l => { l with
    flagAt := some s.now, flagNow := if l.flagAt = some s.now then l.flagNow ||| m else m }) s

/-- Saturation flags set; the first of them since the last clear raises SRV_SATURATED (R299). -/
def satFlags (n : Fin 64) (a i o : Bool) (s : State) : State :=
  let l := s.srv.loops[n]
  let s1 := setLoop n (fun l => { l with
    satArith := l.satArith || a, satI := l.satI || i, satOut := l.satOut || o })
    (if a || i || o then markFlags n (BitVec.ofNat 8 (64 * b2n a + 32 * b2n i + 16 * b2n o)) s else s)
  raiseIf ((a || i || o) && !(l.satArith || l.satI || l.satOut)) evSrvSaturated n.val s1

/-- BUMP_CLAMP (R316). -/
def bumpFlag (n : Fin 64) (b : Bool) (s : State) : State :=
  if b then raise evSrvBumpClamp n.val (setLoop n (fun l => { l with bump := true }) (markFlags n 8 s)) else s

/-! ## Destinations (R300, R314) -/

/-- An output applies to its destination. -/
def applyOut (n : Fin 64) (s : State) : State :=
  let l := s.srv.loops[n]
  match l.dstKind with
  | 1 => setSrv (fun x => { x with dac := upd x.dac (Fin.ofNat 16 l.dstIdx) (valCode l.uOut) }) s
  | 2 => setCh (Fin.ofNat 24 l.dstIdx) (fun c =>
      { c with full := valCode l.uOut, capped := decide (c.cap ≤ valCode l.uOut) }) s
  | 3 => setLoop (Fin.ofNat 64 l.dstIdx) (fun m => { m with rcmd := l.uOut }) s
  | 4 => setSrv (fun x => { x with excite := upd x.excite (Fin.ofNat 4 l.dstIdx) l.uOut }) s
  | _ => s

/-- A destination of kind 1, 2 or 4 receives 0.0. -/
def zeroOut (n : Fin 64) (s : State) : State :=
  let l := s.srv.loops[n]
  match l.dstKind with
  | 1 => setSrv (fun x => { x with dac := upd x.dac (Fin.ofNat 16 l.dstIdx) 0 }) s
  | 2 => setCh (Fin.ofNat 24 l.dstIdx) (fun c => { c with full := 0, capped := decide (c.cap ≤ 0) }) s
  | 4 => setSrv (fun x => { x with excite := upd x.excite (Fin.ofNat 4 l.dstIdx) 0 }) s
  | _ => s

/-! ## Supervision (R324-R326) -/

/-- Every privileged loop of an engine that runs enters HOLD; which mode it resumes is kept. -/
def holdPrivileged (e : Fin 4) (s : State) : State :=
  setSrv (fun x => { x with loops := vmap (fun l =>
    if privileged l.ty && l.eng == e && l.mode != .off then
      { l with mode := .hold, held := .auto, samples := [] } else l) x.loops }) s

/-- A privileged loop trips (R326). -/
def plausTrip (n : Fin 64) (s : State) : State :=
  let e := s.srv.loops[n].eng
  let s1 := setLoop n (fun l => { l with plaus := true, plausRun := 0 }) (markFlags n 2 s)
  let s2 := setSrv (fun x => { x with trip := upd x.trip e (some s.now) }) (holdPrivileged e s1)
  raise evSrvPlausTrip n.val (darkCause e 3 s2)

/-- The model and the plausibility of a sample with data (R325). -/
def superviseModel (n : Fin 64) (y : Int) (s : State) : State :=
  let l := s.srv.loops[n]
  if !privileged l.ty || l.mode == .hold then s
  else
    let b := l.bank
    let a1 := prod (bkI b 44) l.uOut
    let a2 := sat32 a1 - l.model
    let a3 := prod (bkI b 48) (sat32 a2)
    let a4 := l.model + sat32 a3
    let m := sat32 a4
    let arith := decide (sat32 a1 ≠ a1) || decide (sat32 a2 ≠ a2) || decide (sat32 a3 ≠ a3) || decide (m ≠ a4)
    let bad := decide (256 ≤ m) && (decide (1024 * y < (bkN b 52 : Int) * m) || decide ((bkN b 54 : Int) * m < 1024 * y))
    let run := if bad then l.plausRun + 1 else 0
    let s1 := satFlags n arith false false (setLoop n (fun l => { l with model := m, plausRun := run }) s)
    if bad && decide (byteAt b 43 ≤ run) then plausTrip n s1 else s1

/-- The following error of a sample with data in AUTO (R324). -/
def superviseError (n : Fin 64) (s : State) : State :=
  let l := s.srv.loops[n]
  let b := l.bank
  if l.mode != .auto || l.ty == 6 || decide (bkI b 36 ≤ 0) then s
  else if bkI b 36 < (sat32 (l.r - l.y)).natAbs then
    let run := l.feRun + 1
    if run = bkN b 40 then
      raise evSrvFollowErr n.val (setLoop n (fun l => { l with
        feRun := run, fe := true, mode := if bit (byteAt b 42) 0 then .hold else l.mode }) (markFlags n 4 s))
    else setLoop n (fun l => { l with feRun := run }) s
  else setLoop n (fun l => { l with feRun := 0 }) s

/-- IN_WINDOW of a FOCUS loop after a sample (R320). -/
def superviseWindow (n : Fin 64) (s : State) : State :=
  let l := s.srv.loops[n]
  let b := l.bank
  if l.ty ≠ 4 then s
  else if bkI b 64 < (sat32 (l.rcmd - l.y)).natAbs then windowFalls n s
  else
    let run := l.winRun + 1
    setLoop n (fun l => { l with
      winRun := run, inWindow := l.inWindow || (decide (l.r = l.rcmd) && decide (bkN b 68 ≤ run)) }) s

/-! ## One sample (R302, R315, R316) -/

/-- The output limits and rate: u_out towards u clamped, by at most OUT_RATE; whether it was limited. -/
def limitOut (s : State) (l : Loop) (b : Bank) (u : Int) : Int × Bool :=
  let v := clampI (bkI b 20) (outMaxEff s l b) u
  let o := moveBy l.uOut v (bkI b 32)
  (o, decide (v ≠ u) || decide (o ≠ v))

/-- A sample in AUTO with data; `entering`: the first after entry to AUTO presets i and r. -/
def sampleAuto (n : Fin 64) (x : Sample) (s : State) : State :=
  let l := s.srv.loops[n]
  let b := l.bank
  let lo := bkI b 20
  let hi := outMaxEff s l b
  let y := x.y
  let r := if l.entering then y else moveBy l.r x.rcmd (bkI b 28)
  let e0 := r - y
  let e := sat32 e0
  let p0 := prod (bkI b 0) e
  let p := sat32 p0
  let dy := sat32 (l.yPrev - y)
  let d1 := prod (bkI b 16) l.d
  let d2 := prod (bkI b 8) dy
  let d := if l.entering then 0 else sat32 (sat32 d1 + sat32 d2)
  let i1 := prod (bkI b 4) e
  let i2 := prod (bkI b 12) (sat32 (l.uOut - l.u))
  let i3 := if l.entering then l.uOut else sat32 (sat32 (l.i + sat32 i1) + sat32 i2)
  let i := clampI lo hi i3
  let u1 := p + i
  let u := sat32 (sat32 u1 + d)
  let o := limitOut s l b u
  let arith := x.sat || decide (e ≠ e0) || decide (p ≠ p0) || decide (sat32 u1 + d ≠ u) || decide (sat32 u1 ≠ u1)
    || (!l.entering && (decide (dy ≠ l.yPrev - y) || decide (sat32 d1 ≠ d1) || decide (sat32 d2 ≠ d2)
      || decide (sat32 d1 + sat32 d2 ≠ d) || decide (sat32 i1 ≠ i1) || decide (sat32 i2 ≠ i2)
      || decide (sat32 (l.i + sat32 i1) ≠ l.i + sat32 i1)
      || decide (sat32 (l.i + sat32 i1) + sat32 i2 ≠ i3) || decide (sat32 (l.uOut - l.u) ≠ l.uOut - l.u)))
  let s1 := setLoop n (fun l => { l with
    y := y, yPrev := y, r := r, rcmd := x.rcmd, e := e, p := p, i := i, d := d, u := u, uOut := o.1,
    entering := false, model := if l.entering then y else l.model }) s
  bumpFlag n (l.entering && decide (i ≠ i3)) (satFlags n arith (decide (i ≠ i3)) o.2 s1)

/-- A sample in MANUAL with data: the output limits apply as in AUTO (R299, R314). -/
def sampleManual (n : Fin 64) (x : Sample) (s : State) : State :=
  let l := s.srv.loops[n]
  let o := limitOut s l l.bank l.man
  satFlags n x.sat false o.2 (setLoop n (fun l => { l with
    y := x.y, yPrev := x.y, r := x.y, rcmd := x.rcmd, e := 0, u := o.1, uOut := o.1, entering := false,
    model := if l.entering then x.y else l.model }) s)

/-! ## COLOUR samples (R322, R323) -/

/-- The loop that serves a channel's laser power in AUTO, if one does. -/
def powerLoop (s : State) (c : Fin 24) : Option (Fin 64) :=
  (List.finRange 64).find? fun n =>
    s.srv.loops[n].ty == 1 && s.srv.loops[n].dstIdx == c.val && s.srv.loops[n].mode == .auto

/-- `a` plus a product, each saturated, and whether either was (R298). -/
def macSat (a : Int × Bool) (c x : Int) : Int × Bool :=
  let p := prod c x
  let v := a.1 + sat32 p
  (sat32 v, a.2 || decide (sat32 p ≠ p) || decide (sat32 v ≠ v))

/-- m_i and p_i of a pair after a reading (R322), and whether either saturated. -/
def pairEnergies (b : Bank) (g : Int) (rgb : List Int) (energy : Int) (i : Nat) : Int × Int × Bool :=
  let m := (List.range 3).foldl (fun a j => macSat a (bkI b (8 + 12 * i + 4 * j)) (rgb.getD j 0)) (0, false)
  let p := rdivAway (g * energy) (2 ^ 28)
  (m.1, sat32 p, m.2 || decide (sat32 p ≠ p))

/-- The correction of one pair after a reading (R322): each step rounded to S3.28 and saturated (log 46). -/
def pairGain (b : Bank) (g m p : Int) : Option Int :=
  if p < bkI b 104 ∨ p ≤ 0 then none
  else
    let x := sat32 (one28 + sat32 (rdivAway (bkI b 0 * (m - p)) p.toNat))
    some (clampI ((bkN b 4 : Int) * 2 ^ 14) ((bkN b 6 : Int) * 2 ^ 14) (sat32 (rdivAway (g * x) (2 ^ 28))))

/-- The corrections of an engine take a waiting reading; G_LIMIT when one reaches its limit. -/
def colourGains (n : Fin 64) (e : Fin 4) (s : State) : State :=
  let b := s.srv.loops[n].bank
  match s.srv.reading[e] with
  | none => s
  | some (rgb, pe) =>
    (List.finRange 3).foldl (fun a0 i =>
      let x := pairEnergies b a0.srv.g[e][i] rgb (pe.getD i.val 0) i.val
      let a := satFlags n x.2.2 false false a0
      match pairGain b a.srv.g[e][i] x.1 x.2.1 with
      | none => a
      | some g =>
        let atLimit := g == (bkN b 4 : Int) * 2 ^ 14 || g == (bkN b 6 : Int) * 2 ^ 14
        let reached := atLimit && g != a.srv.g[e][i]
        let a1 := setSrv (fun x => { x with
          g := updWith x.g e fun v => upd v i g, gAt := updWith x.gAt e fun v => upd v i (some a.now) }) a
        if reached then
          raise evSrvColourGainLimit n.val (setLoop n (fun l => { l with gLimit := true }) (markFlags n 1 a1))
        else a1) (setSrv (fun x => { x with reading := upd x.reading e none }) s)

/-- LAMBDA of an estimate (R322). -/
def lambdaCode (s : State) (b : Bank) (c : Fin 24) : Nat :=
  let k := c.val % 6
  let nom := gbLambda (liveBank s (chanEng c)) k
  let t := s.thm.ntc[Fin.ofNat 8 (wfl s.frg.ch[c].cfg 5 3)]
  let num : Int := (nom * 20 : Nat) * (16 * 65535) + sext 16 (bkN b (80 + 2 * k)) * (t - 400) * 65535
    + sext 16 (bkN b (92 + 2 * k)) * (s.frg.ch[c].full : Int) * 16
  (clampI 0 0x3FFF (rdivI num (20 * 16 * 65535))).toNat

/-- The set-point and estimate of one channel (R322, R323). -/
def colourChannel (n : Fin 64) (c : Fin 24) (s : State) : State :=
  let b := s.srv.loops[n].bank
  let k := c.val % 6
  let e := chanEng c
  let i : Fin 3 := Fin.ofNat 3 (k / 2)
  match powerLoop s c with
  | none => s
  | some m =>
    let g := s.srv.g[e][i]
    let pref := bkI b (56 + 4 * k)
    let sp0 := if g ≤ 0 then 0 else rdivAway ((bkN b (44 + 2 * k) : Int) * pref * 2 ^ 13) g.toNat
    let s1 := setLoop m (fun l => { l with rcmd := sat32 sp0 }) (satFlags n (decide (sat32 sp0 ≠ sp0)) false false s)
    if s.thm.ntcFailed.toNat.testBit (wfl s.frg.ch[c].cfg 5 3) ∨ pref ≤ 0 then s1
    else
      let out := (clampI 0 0xFFFF (rdivI (32768 * s.srv.loops[m].y * g) (pref.toNat * 2 ^ 28))).toNat
      let fresh : Bool := match s.srv.gAt[e][i] with
        | some a => decide (s.now ≤ a + sec)
        | none => false
      let renew (o : Est) : Est := { o with
        valid := true, sensor := fresh, lambda := lambdaCode s b c, output := out, at' := s.now,
        sensorAt := bif fresh then s.now else o.sensorAt, holdDue := none, ever := true, lost := false }
      setClw (fun x => { x with est := updWith x.est c renew }) s1

/-- A COLOUR sample takes effect at its deadline. -/
def sampleColour (n : Fin 64) (s : State) : State :=
  let e := s.srv.loops[n].eng
  (List.range 6).foldl (fun a k => colourChannel n (chan e k) a) (colourGains n e s)

/-- COLOUR_SENSOR_READING (R322, R183). -/
def execColourSensorReading (t : Time) (e : Fin 4) (rgb pairEnergy : List Int) (s : State) : Out :=
  let s := s.at t
  if !s.fastUp then .next s
  else .next (setClw (fun c => { c with
      sensorAt := upd c.sensorAt e s.now, sensorLost := c.sensorLost &&& ~~~(BitVec.ofNat 4 (2 ^ e.val)) })
    (setSrv (fun x => { x with reading := upd x.reading e (some (rgb, pairEnergy)) }) s))

/-! ## Traces (R327) -/

/-- The value of a trace node (R327). -/
def nodeVal (s : State) (n : Fin 64) (k : Nat) : Int :=
  let l := s.srv.loops[n]
  if l.ty = 6 then
    if 10 ≤ k ∧ k ≤ 12 then rdivAway (s.srv.g[l.eng][Fin.ofNat 3 (k - 10)]) 16 else 0
  else match k with
    | 0 => l.rcmd | 1 => l.r | 2 => l.y | 3 => l.e | 4 => l.p | 5 => l.i | 6 => l.d | 7 => l.u | 8 => l.uOut
    | 9 => if privileged l.ty then l.model else 0
    | _ => 0

/-- The trigger of an armed trace holds at a captured value (R327). -/
def triggered (s : State) (x : Trace) (v : Int) : Bool :=
  match x.trigger with
  | 0 => true
  | 1 => s.evt.latched x.event && !x.wasLatched
  | 2 => match x.prevVal with
    | some p => decide (p < x.level) && decide (x.level ≤ v)
    | none => false
  | _ => match x.prevVal with
    | some p => decide (x.level < p) && decide (v ≤ x.level)
    | none => false

/-- A sample of the slot captured by one buffer. -/
def capture (n : Fin 64) (b : Fin 8) (s : State) : State :=
  let x := s.srv.traces[b]
  if x.slot ≠ n ∨ (x.st ≠ 1 ∧ x.st ≠ 2) then s
  else if x.skip ≠ 0 then setTrace b (fun x => { x with skip := x.skip - 1 }) s
  else
    let v := nodeVal s n x.node
    let step := s.srv.loops[n].div * x.dec
    let hit := x.st == 1 && triggered s x v
    let held := if x.st = 1 ∧ !hit then x.samples.take (x.pre - 1) else x.samples.take (if x.st = 1 then x.pre else 16384)
    let samples := if x.st = 1 ∧ !hit ∧ x.pre = 0 then [] else v :: held
    let full := decide (16384 ≤ samples.length)
    let x' : Trace := { x with
      samples := samples, skip := x.dec - 1, prevVal := some v, wasLatched := s.evt.latched x.event,
      tick := s.srv.tick - (samples.length - 1) * step,
      trigAt := if hit then samples.length - 1 else x.trigAt,
      st := if full then 3 else if hit then 2 else x.st }
    raiseIf full evSrvTraceDone (2 ^ b.val) (setTrace b (fun _ => x') s)

/-- A sample of a slot, completed, missed or without data, is captured by the buffers that watch it. -/
def traceSample (n : Fin 64) (s : State) : State :=
  (List.finRange 8).foldl (fun a b => capture n b a) s

/-! ## Ticks and deadlines (R305-R307, R312) -/

/-- A bank swap at a sample boundary: i is preset to u_out - p - d with the new coefficients (R312). -/
def swapBank (n : Fin 64) (s : State) : State :=
  let s1 := setLoop n (fun l => { l with live := other l.live, swapAt := none }) s
  let l := s1.srv.loops[n]
  if l.ty = 6 ∨ l.mode ≠ .auto then s1
  else
    let b := l.bank
    let p0 := prod (bkI b 0) l.e
    let p := sat32 p0
    let v1 := l.uOut - p
    let v2 := sat32 v1 - l.d
    let i0 := sat32 v2
    let i := clampI (bkI b 20) (outMaxEff s1 l b) i0
    let u1 := p + i
    let u2 := sat32 u1 + l.d
    let arith := decide (p ≠ p0) || decide (sat32 v1 ≠ v1) || decide (i0 ≠ v2) || decide (sat32 u1 ≠ u1) || decide (sat32 u2 ≠ u2)
    bumpFlag n (decide (i ≠ i0)) (satFlags n arith (decide (i ≠ i0)) false
      (setLoop n (fun l => { l with p := p, i := i, u := sat32 u2 }) s1))

/-- Tick `t` is a sample tick of the loop. -/
def sampleTick (l : Loop) (t : Nat) : Bool := l.ty != 0 && t % l.div == l.phase % l.div

/-- One loop at a tick: a swap that waits takes place, a sample is taken. -/
def tickLoop (inp : ServoIn) (n : Fin 64) (s : State) : State :=
  if !sampleTick s.srv.loops[n] s.srv.tick then s
  else
    let s1 : State := match s.srv.loops[n].swapAt with
      | some f => if f ≤ s.cmp.frameCount then swapBank n s else s
      | none => s
    let l : Loop := s1.srv.loops[n]
    if l.mode = .manual ∨ l.mode = .auto then
      let x := readSource s1 inp l
      let new : Sample := { y := sat32 x.1, data := x.2, rcmd := commandOf s1 n,
                            sat := decide (sat32 x.1 ≠ x.1) || (l.ty == 3 && (vertSet s1 l).2) }
      setLoop n (fun l => { l with samples := (l.samples ++ [new]).drop (l.samples.length - 1) }) s1
    else s1

/-- The vertical set-point in rows at this tick, in 1/65,536 row (R252): it ramps from t0 through the last row, then moves
back to -0.5 rows in equal steps within FLYBACK (log 72). -/
def rowsNow (s : State) (e : Fin 4) : Int :=
  let w := s.scn[e]
  match w.drawing, w.period, w.fly with
  | true, some p, _ => (((s.now - w.t0) * 2 * p.den * 65536 / p.num : Nat) : Int) - 32768
  | false, _, some (a, y) =>
    if s.now < a + flybackTaps w then y - (y + 32768) * (s.now - a : Nat) / flybackTaps w else -32768
  | _, _, _ => w.yRows

/-- The vertical position is more than 8 rows from its set-point: |y - r_cmd| > 8 |VSCALE| (R260 condition 5, R319). -/
def verticalOff (inp : ServoIn) (s : State) (e : Fin 4) : Bool :=
  match s.srv.loops.toList.find? fun l => l.ty == 3 && l.eng == e with
  | some l => (l.banks[l.live]).isSome
      && decide (8 * (bkI l.bank 56).natAbs < ((readSource s inp l).1 - (vertSet s l).1).natAbs)
  | none => false

/-- The Scan block at a tick: the set-point moves, and a deviation begins or ends (R252, R260). -/
def scanTick (inp : ServoIn) (e : Fin 4) (s : State) : State :=
  if !s.isLse e then s
  else
    let s1 := setScn e (fun w => { w with yRows := rowsNow s e }) s
    let off := s1.scn[e].excited && verticalOff inp s1 e
    setScn e (fun w => { w with devSince := if off then some (w.devSince.getD s1.now) else none }) s1

/-- SERVO_TICK: the 1 MHz tick, at which loops due for a sample read their inputs (R305). A sample's deadline
row comes before the tick row of the same tick, or after it: samples wait in order. -/
def execServoTick (t : Time) (inp : ServoIn) (s : State) : Out :=
  let s := s.at t
  if !s.srv.running then .next s
  else
    let s1 := forEng (scanTick inp) s
    let s2 := (List.finRange 64).foldl (fun a n => tickLoop inp n a) s1
    .next (setSrv (fun x => { x with tick := x.tick + 1 }) s2)

/-- A completed sample takes effect (R302-R304, R324, R325). -/
def sampleDone (n : Fin 64) (x : Sample) (s : State) : State :=
  let l := s.srv.loops[n]
  if l.ty = 6 then sampleColour n s
  else if !x.data then setLoop n (fun l => { l with nodata := true }) s
  else
    let s0 := setLoop n (fun l => { l with nodata := false }) s
    let s1 := if l.entering then s0 else superviseModel n x.y s0
    if s1.srv.loops[n].mode = .hold then s1
    else
      let s2 := if l.mode = .auto then sampleAuto n x s1 else sampleManual n x s1
      superviseError n (superviseWindow n (applyOut n s2))

/-- A missed sample (R307, R320, R325). -/
def sampleMissed (n : Fin 64) (s : State) : State :=
  let l := s.srv.loops[n]
  let run := l.missRun + 1
  let s1 := setLoop n (fun l => { l with miss := true, missed := satInc 16 l.missed, missRun := run }) (markFlags n 128 s)
  let s2 := raiseIf (!l.miss) evSrvMiss n.val s1
  let s3 := raiseIf (decide (run = 16)) evSrvMissRun n.val s2
  let s4 := if l.ty = 4 then windowFalls n s3 else s3
  if run = 16 ∧ privileged l.ty then plausTrip n s4 else s4

/-- LOOP_SAMPLE_DEADLINE: the oldest waiting sample of a slot applies, or counts as missed (R305, R307). -/
def execLoopSampleDeadline (t : Time) (slot : Fin 64) (done : Bool) (s : State) : Out :=
  let s := s.at t
  let l := s.srv.loops[slot]
  match l.samples with
  | [] => .next s
  | x :: rest =>
    if !s.srv.running ∨ !(l.mode == .auto || l.mode == .manual) then .next s
    else
      let s1 := setLoop slot (fun l => { l with samples := rest }) s
      .next (traceSample slot (if done then
          sampleDone slot x (setLoop slot (fun l => { l with missRun := 0 }) s1)
        else sampleMissed slot s1))

/-! ## The engine starts and stops (R317, R244) -/

/-- The engine starts: every loop re-enters the mode it held, from u_out = 0; corrections start at 1.0. -/
def servoStart (s : State) : State :=
  if s.srv.running then s
  else setSrv (fun x => { x with
    running := true,
    g := Vector.replicate 4 (Vector.replicate 3 (2 ^ 28)), gAt := Vector.replicate 4 (Vector.replicate 3 none),
    reading := Vector.replicate 4 none,
    loops := vmap (fun l => { l with entering := l.mode == .auto || l.mode == .manual }) x.loops }) s

/-- The running state of a loop zeroed; configuration, banks, mode, set-point and flags stay. -/
def zeroLoop (l : Loop) : Loop :=
  { l with rcmd := 0, r := 0, y := 0, yPrev := 0, e := 0, p := 0, i := 0, d := 0, u := 0, uOut := 0, model := 0,
           samples := [], entering := false, inWindow := false, nodata := false, missRun := 0, feRun := 0,
           plausRun := 0, winRun := 0 }

/-- The engine stops: destinations at 0.0, loop state and traces zeroed (R317, R56). -/
def servoStop (s : State) : State :=
  if !s.srv.running then s
  else
    let s1 := (List.finRange 64).foldl (fun a n => zeroOut n a) s
    setSrv (fun x => { x with
      running := false, loops := vmap zeroLoop x.loops, traces := Vector.replicate 8 {} }) s1

/-- The SCAN_AMP and SCAN_VERT loops of an engine (R317). -/
def isScanLoop (e : Fin 4) (l : Loop) : Bool := (l.ty == 2 || l.ty == 3) && l.eng == e

/-- Excitation stopped: those loops hold with output 0.0. -/
def scanLoopsHold (e : Fin 4) (s : State) : State :=
  (List.finRange 64).foldl (fun a n =>
    let l := a.srv.loops[n]
    if isScanLoop e l && (l.mode == .auto || l.mode == .manual) then
      setLoop n (fun l => { l with mode := .hold, held := .auto, uOut := 0, samples := [] }) (zeroOut n a)
    else a) s

/-- Loops held for an engine that satisfy `p` enter AUTO again (R315, R316). -/
def loopsResume (p : Loop → Bool) (s : State) : State :=
  setSrv (fun x => { x with loops := vmap (fun l =>
    if p l && l.mode == .hold && l.held == .auto then
      { l with mode := .auto, held := .off, entering := true } else l) x.loops }) s

/-! ## TRIP_RESET and status flags (R326, R299, R328) -/

/-- TRIP_RESET written 1 for one engine: refused until 1 s after the trip. -/
def tripResetOk (e : Fin 4) (s : State) : Bool :=
  match s.srv.trip[e] with
  | some a => decide (a + sec ≤ s.now)
  | none => true

def tripRelease (e : Fin 4) (s : State) : State :=
  match s.srv.trip[e] with
  | some _ => loopsResume (fun l => privileged l.ty && l.eng == e)
      (releaseCause e 3 (setSrv (fun x => { x with trip := upd x.trip e none }) s))
  | none => s

def tripResetWrite (e : Fin 4) (s : State) : Status × State :=
  if tripResetOk e s then (.ok, tripRelease e s) else (.wrongState, s)

def execTripReset (t : Time) (e : Fin 4) (s : State) : Out := regAnswer (tripResetWrite e) (s.at t)

/-- W1C of the flags of SRV_LOOP_Sn; a flag that hardware sets in the same cycle stays (R6); the fields above are RO, a 1
in them is refused (R5, R328). -/
def loopFlagWrite (n : Fin 64) (v : Word) (s : State) : Status × State :=
  let stays (l : Loop) (i : Nat) : Bool := !wb v i || (l.flagAt == some s.now && l.flagNow.toNat.testBit i)
  if 256 ≤ v.toNat then (.badParam, s)
  else (.ok, setLoop n (fun l => { l with
    miss := l.miss && stays l 7, satArith := l.satArith && stays l 6, satI := l.satI && stays l 5,
    satOut := l.satOut && stays l 4, bump := l.bump && stays l 3, fe := l.fe && stays l 2,
    plaus := l.plaus && stays l 1, gLimit := l.gLimit && stays l 0 }) s)

def execSrvLoopFlagClear (t : Time) (slot : Fin 64) (value : Word) (s : State) : Out :=
  regAnswer (loopFlagWrite slot value) (s.at t)

/-- SRV_LOOP_Sn. -/
def loopWord (l : Loop) : Nat :=
  let mode := match l.mode with | .off => 0 | .manual => 1 | .auto => 2 | .hold => 3
  l.ty * 2 ^ 28 + mode * 2 ^ 26 + l.live.val * 2 ^ 25 + b2n l.inWindow * 2 ^ 24 + b2n (l.r != l.rcmd) * 2 ^ 23
    + b2n l.nodata * 2 ^ 22 + b2n l.miss * 128 + b2n l.satArith * 64 + b2n l.satI * 32 + b2n l.satOut * 16
    + b2n l.bump * 8 + b2n l.fe * 4 + b2n l.plaus * 2 + b2n l.gLimit

/-! ## LOOP_CONFIGURE (R308, R309, R518) -/

/-- Kinds, indexes, divider and phase of a configuration (R308, R309). -/
def cfgOk (c : BitVec 64) : Bool :=
  let l : Loop := { cfg := c }
  let e := l.eng.val
  let srcOk := match l.srcKind with
    | 0 => l.srcIdx == 0 | 1 => decide (l.srcIdx < 16) | 2 => decide (l.srcIdx < 24) | 3 => decide (l.srcIdx < 8)
    | 4 => true | 5 => decide (l.srcIdx < 4) | _ => false
  let dstOk := match l.dstKind with
    | 0 => l.dstIdx == 0 | 1 => decide (l.dstIdx < 16) | 2 => decide (l.dstIdx < 24) | 3 => true
    | 4 => decide (l.dstIdx < 4) | _ => false
  let kinds := match l.ty with
    | 0 => l.srcKind == 0 && l.dstKind == 0
    | 1 => l.srcKind == 2 && l.dstKind == 2 && l.srcIdx == l.dstIdx && l.dstIdx / 6 == e
    | 2 => l.srcKind == 5 && l.dstKind == 4 && l.srcIdx == e && l.dstIdx == e
    | 3 => l.srcKind == 1 && l.dstKind == 1
    | 4 => l.srcKind == 1 && l.dstKind == 1
    | 5 => decide (1 ≤ l.srcKind) && decide (l.srcKind ≤ 4)
        && (l.dstKind == 0 || l.dstKind == 1 || l.dstKind == 3)
    | 6 => l.srcKind == 0 && l.dstKind == 0
    | _ => false
  srcOk && dstOk && kinds && cfgF c 0 6 == 0 && decide (l.phase < l.div)

/-- Two slots share a DAC output, a FULL or an excitation destination. -/
def dstClash (v : Vector Loop 64) (n : Fin 64) : Bool :=
  (List.finRange 64).any fun m => m != n && v[m].ty != 0 && v[n].ty != 0 && v[m].dstKind == v[n].dstKind
    && (v[n].dstKind == 1 || v[n].dstKind == 2 || v[n].dstKind == 4) && v[m].dstIdx == v[n].dstIdx

/-- The slots that write the set-point of slot `m`, the Scan block and the Thresher counted. -/
def spWriters (v : Vector Loop 64) (m : Fin 64) : Nat :=
  ((List.finRange 64).filter fun k => v[k].ty == 5 && v[k].dstKind == 3 && v[k].dstIdx == m.val).length
    + (if v[m].ty = 1 ∧ (List.finRange 64).any (fun k => v[k].ty == 6 && v[k].eng == v[m].eng) then 1 else 0)
    + (if v[m].ty = 3 ∨ v[m].ty = 4 then 1 else 0)

/-- A chain of set-point destinations returns to slot `n`. -/
def chainLoops (v : Vector Loop 64) (n : Fin 64) : Nat → Fin 64 → Bool
  | 0, _ => true
  | k + 1, m =>
    if v[m].ty = 5 ∧ v[m].dstKind = 3 then
      let d : Fin 64 := Fin.ofNat 64 v[m].dstIdx
      d == n || chainLoops v n k d
    else false

/-- The cascade rule between an outer and an inner loop (R318). -/
def cascadeOk (o i : Loop) : Bool := o.div % i.div == 0 && o.phase % i.div == i.phase

/-- Every cascade of the allocation keeps the rule. -/
def cascadesOk (v : Vector Loop 64) : Bool :=
  (List.finRange 64).all fun i => match outerOf v i with
    | some o => v[i].ty == 0 || cascadeOk v[o] v[i]
    | none => true

/-- The allocation after a change of slot `n` keeps R309. A set-point destination must be a slot whose
set-point can be written. -/
def allocationOk (v : Vector Loop 64) (n : Fin 64) : Bool :=
  !dstClash v n && (List.finRange 64).all (fun m => decide (spWriters v m ≤ 1))
    && decide (((List.finRange 64).filter fun m => v[m].ty == 6 && v[n].ty == 6 && v[m].eng == v[n].eng).length ≤ 1)
    && !chainLoops v n 64 n && cascadesOk v

/-- LOOP_CONFIGURE. -/
def loopConfigureBody (rq : Req) (s : State) : Ans :=
  let p := rq.payload
  let n : Fin 64 := Fin.ofNat 64 (byteAt p 0)
  let c : BitVec 64 := BitVec.ofNat 64 (leNat (slice p 4 8))
  let l := s.srv.loops[n]
  let v := updWith s.srv.loops n fun l => { zeroLoop l with cfg := c }
  let moved := cfgF c 38 22 != cfgF l.cfg 38 22 || cfgF c 60 4 != l.ty
  if 64 ≤ byteAt p 0 ∨ !zeroAt p 1 3 ∨ !cfgOk c then deny .badParam s
  else if l.mode ≠ .off then deny .wrongState s
  else if !allocationOk v n then deny .badParam s
  else if s.otp.lifecycle = 3 ∧ (privileged l.ty || privileged v[n].ty) ∧ moved then deny .deniedLifecycle s
  else if (Frac.ofNat 1000).lt (srvLoad v) then deny .resourceExceeded s
  else (setSrv (fun x => { x with loops := v }) s, .ok, leBytes 2 (srvLoadWord v))

def execLoopConfigure (t : Time) (rq : Req) (s : State) : Out := .next (serve 0x30 loopConfigureBody rq (s.at t))

/-! ## LOOP_BANK_WRITE and LOOP_BANK_SWAP (R310-R312, R321) -/

/-- |VSCALE| x 1.25 x max(2 F_MAX 1e-6, H / FLYBACK) <= SP_RATE of a SCAN_VERT bank (R319). -/
def vertRateOk (b : Bank) (hrange vert : Word) (h : Nat) : Bool :=
  let fmax := wfl hrange 16 16
  let fly := wfl vert 16 16
  let v : Int := (bkI b 56).natAbs
  let r := bkI b 28
  decide (5 * v * (2 * fmax : Nat) ≤ 4 * r * 1000000) && decide (5 * v * (h : Int) ≤ 4 * r * (fly : Int))

/-- Field ranges of a bank for a loop (R310, R311). -/
def bankFieldsOk (s : State) (l : Loop) (b : Bank) : Bool :=
  let dfilt := bkI b 16
  let outs := decide (bkI b 20 < bkI b 24)
    && (!(l.dstKind == 1 || l.dstKind == 2 || l.dstKind == 4) || (decide (0 ≤ bkI b 20) && decide (bkI b 24 ≤ one24)))
  let priv := if privileged l.ty then
      decide (1 ≤ byteAt b 43) && decide (0 < bkI b 44) && decide (0 < bkI b 48) && decide (bkI b 48 ≤ one28)
        && decide (bkN b 52 < 1024) && decide (1024 < bkN b 54)
    else zeroAt b 43 13
  let data := match l.ty with
    | 1 => decide (0 ≤ bkI b 56) && zeroAt b 60 20
    | 3 => zeroAt b 64 16 && vertRateOk b s.scn[l.eng].hrange s.scn[l.eng].vert s.eng[l.eng].h
    | 4 => decide (0 ≤ bkI b 64) && decide (1 ≤ bkN b 68) && decide (bkN b 68 ≤ 1000) && zeroAt b 70 10
    | _ => zeroAt b 56 24
  decide (0 ≤ dfilt) && decide (dfilt < one28) && outs && decide (0 < bkI b 28) && decide (0 < bkI b 32)
    && decide (0 ≤ bkI b 36) && (bkI b 36 == 0 || decide (1 ≤ bkN b 40)) && decide (byteAt b 42 < 2)
    && priv && data && zeroAt b 80 32

/-- Field ranges of a COLOUR bank (R321). -/
def colourBankOk (s : State) (e : Fin 4) (b : Bank) : Bool :=
  decide (bkN b 4 ≤ bkN b 6) && decide (bkN b 6 ≤ 32767) && zeroAt b 108 4
    && (List.range 6).all fun k =>
      bkI b (56 + 4 * k) != 0
        || !((List.finRange 64).any fun n => s.srv.loops[n].ty == 1 && s.srv.loops[n].dstIdx == 6 * e.val + k)

/-- A loop named by the armed commit (R113). -/
def armedLoop (s : State) (n : Fin 64) : Bool :=
  match s.cmp.armed with
  | some a => a.loops.toNat.testBit n.val
  | none => false

/-- LOOP_BANK_WRITE. A slot of type NONE has no bank layout and is refused (log 47). -/
def loopBankWriteBody (rq : Req) (s : State) : Ans :=
  let p := rq.payload
  let n : Fin 64 := Fin.ofNat 64 (byteAt p 0)
  let l := s.srv.loops[n]
  let b := slice p 4 112
  let ok := if l.ty = 0 then false else if l.ty = 6 then colourBankOk s l.eng b else bankFieldsOk s l b
  if 64 ≤ byteAt p 0 ∨ !zeroAt p 1 3 ∨ !ok then deny .badParam s
  else if armedLoop s n then deny .busy s
  else if s.otp.lifecycle = 3 ∧ privileged l.ty ∧ slice b 36 20 ≠ slice l.bank 36 20 then deny .deniedLifecycle s
  else (setLoop n (fun l => { l with banks := upd l.banks (other l.live) (some b) }) s, .ok, [])

def execLoopBankWrite (t : Time) (rq : Req) (s : State) : Out := .next (serve 0x31 loopBankWriteBody rq (s.at t))

/-- The field checks of LOOP_BANK_SWAP that do not need the clocks (R493). -/
def loopSwapPre (rq : Req) (_ : State) : Option (Status × List Byte) :=
  if 64 ≤ byteAt rq.payload 0 ∨ !zeroAt rq.payload 1 3 then some (.badParam, []) else none

/-- LOOP_BANK_SWAP runs: at once in OFF, else at the next sample boundary (R312, R518). -/
def loopSwapRun (rq : Req) (s : State) : Ans :=
  let n : Fin 64 := Fin.ofNat 64 (byteAt rq.payload 0)
  let l := s.srv.loops[n]
  if (l.banks[other l.live]).isNone then deny .badParam s
  else if armedLoop s n then deny .busy s
  else if l.mode = .off then (setLoop n (fun l => { l with live := other l.live, swapAt := none }) s, .ok, [])
  else (setLoop n (fun l => { l with swapAt := some 0 }) s, .ok, [])

def loopBankSwapBody (rq : Req) (s : State) : Ans :=
  match loopSwapPre rq s with
  | some r => (s, r.1, r.2)
  | none => deferrable loopSwapPre loopSwapRun rq s

def execLoopBankSwap (t : Time) (rq : Req) (s : State) : Out := .next (serve 0x32 loopBankSwapBody rq (s.at t))

/-- Element 0x40 + n of a commit (R313). -/
def loopReject (s : State) (n : Fin 64) : Option Reject :=
  let l := s.srv.loops[n]
  if l.ty = 0 then some ⟨0x40 + n.val, 0x41, n.val⟩
  else if (l.banks[other l.live]).isNone then some ⟨0x40 + n.val, 0x40, n.val⟩
  else none

/-- A flagged swap of a commit that applies at frame `f` (R112, R312). -/
def loopApply (f : Nat) (n : Fin 64) (s : State) : State :=
  setLoop n (fun l => { l with swapAt := some f }) s

/-! ## LOOP_MODE (R314, R316, R518) -/

/-- The mode of a loop set while the engine runs. -/
def enterMode (n : Fin 64) (m : LoopMode) (man : Option Int) (s : State) : State :=
  let l := s.srv.loops[n]
  match m with
  | .off => zeroOut n (setLoop n (fun l => { l with
      mode := .off, held := .off, i := 0, d := 0, model := 0, samples := [] }) (windowFalls n s))
  | .manual => setLoop n (fun l => { l with
      mode := .manual, held := .off, man := man.getD l.uOut, entering := l.mode != .auto && l.mode != .manual })
      (windowFalls n s)
  | .auto => if l.mode = .auto then s else setLoop n (fun l => { l with
      mode := .auto, held := .off, entering := true, feRun := 0 }) s
  | .hold => setLoop n (fun l => { l with mode := .hold, held := .off, samples := [] }) (windowFalls n s)

/-- LOOP_MODE. Where the Servo Engine does not run, the mode is recorded and entered on resuming. -/
def loopModeBody (rq : Req) (s : State) : Ans :=
  let p := rq.payload
  let n : Fin 64 := Fin.ofNat 64 (byteAt p 0)
  let mv := bit (byteAt p 2) 0
  let m : LoopMode := match byteAt p 1 with | 0 => .off | 1 => .manual | 2 => .auto | _ => .hold
  let l := s.srv.loops[n]
  if 64 ≤ byteAt p 0 ∨ 4 ≤ byteAt p 1 ∨ 2 ≤ byteAt p 2 ∨ !zeroAt p 3 1 ∨ (!mv ∧ le32 p 4 ≠ 0) then deny .badParam s
  else if (m = .manual ∨ m = .auto) ∧ (l.banks[l.live]).isNone then deny .wrongState s
  else if !s.srv.running then
    (setLoop n (fun l => { l with mode := m, held := .off, man := if mv then bkI p 4 else l.uOut }) s, .ok, [])
  else (enterMode n m (if mv then some (bkI p 4) else none) s, .ok, [])

def execLoopMode (t : Time) (rq : Req) (s : State) : Out := .next (serve 0x33 loopModeBody rq (s.at t))

/-! ## TRACE_ARM and TRACE_READ (R519, R520) -/

/-- TRACE_ARM. -/
def traceArmBody (rq : Req) (s : State) : Ans :=
  let p := rq.payload
  let tr := byteAt p 3
  let b : Fin 8 := Fin.ofNat 8 (byteAt p 0)
  if 8 ≤ byteAt p 0 ∨ 64 ≤ byteAt p 1 ∨ 13 ≤ byteAt p 2 ∨ 4 ≤ tr ∨ 16384 ≤ le16 p 6
      ∨ (tr = 1 ∧ !evDefined (le16 p 8)) ∨ (tr ≠ 1 ∧ le16 p 8 ≠ 0) ∨ !zeroAt p 10 2
      ∨ (tr < 2 ∧ le32 p 12 ≠ 0) then deny .badParam s
  else (setTrace b (fun _ => {
      st := 1, slot := Fin.ofNat 64 (byteAt p 1), node := byteAt p 2, dec := le16 p 4 + 1, trigger := tr,
      pre := le16 p 6, event := le16 p 8, level := bkI p 12, wasLatched := s.evt.latched (le16 p 8) }) s, .ok, [])

def execTraceArm (t : Time) (rq : Req) (s : State) : Out := .next (serve 0x34 traceArmBody rq (s.at t))

/-- TRACE_READ. -/
def traceReadBody (rq : Req) (s : State) : Ans :=
  let p := rq.payload
  let x := s.srv.traces[Fin.ofNat 8 (byteAt p 0)]
  let first := le16 p 2
  let n := le16 p 4
  let most := if portLimit rq.port = 1024 then 253 else 1021
  if 8 ≤ byteAt p 0 ∨ !zeroAt p 1 1 ∨ !zeroAt p 6 2 ∨ n = 0 ∨ most < n ∨ 16384 < first + n then deny .badParam s
  else if x.st ≠ 3 then deny .busy s
  else
    let l := x.samples.reverse
    (s, .ok, leBytes 8 x.tick ++ leBytes 2 x.trigAt ++ leBytes 2 n
      ++ (slice (l.flatMap fun v => leBytes 4 (unsext 32 v)) (4 * first) (4 * n)))

def execTraceRead (t : Time) (rq : Req) (s : State) : Out := .next (serve 0x35 traceReadBody rq (s.at t))

/-- SRV_TRACE_STATE (R328). -/
def traceStates (s : State) : Nat := sumN ((List.finRange 8).map fun b => s.srv.traces[b].st * 16 ^ b.val)

/-- SRV_TRIP (R328). -/
def tripWord (s : State) : Nat := maskOf 4 fun e => (s.srv.trip[Fin.ofNat 4 e]).isSome

end Sys2Proof.Machine
end

