-- ==== Sys2Proof/Machine/Scan.lean ====
section
/-! DEFINITION. The Scan block of an LSE engine: excitation (R244), pick-off edges (R245, R246), fit and table
checks (R250, R251, R257), the amplitude window (R259), scanner stops and restarts (R260-R262), rows and flyback
(R249, R252, R256), and the urgency of the real-time ports (R359, R360). -/

namespace Sys2Proof.Machine

/-! ## Parameters (R264) -/

def ScnEng.fMin (w : ScnEng) : Nat := wfl w.hrange 0 16
def ScnEng.fMax (w : ScnEng) : Nat := wfl w.hrange 16 16
def ScnEng.autoRestart (w : ScnEng) : Bool := wb w.config 2
def ScnEng.zigzag (w : ScnEng) : Bool := wb w.config 1

/-- A frequency given by a period in taps lies in [F_MIN, F_MAX] (1 s is 4 x 10^9 taps). -/
def freqIn (w : ScnEng) (p : Frac) : Bool :=
  decide (w.fMin * p.num ≤ sec * p.den) && decide (sec * p.den ≤ w.fMax * p.num)

/-- SCN_FREQ_En: the measured frequency in 1/16 Hz. -/
def scnFreq (s : State) (e : Fin 4) : Nat :=
  match s.scn[e].period with
  | some p => if s.isLse e && s.scn[e].excited then rdiv (16 * sec * p.den) p.num % 2 ^ 24 else 0
  | none => 0

/-- SCN_STATE. -/
def scnStCode : ScanSt → Nat
  | .off => 0 | .excite => 1 | .inWindow => 2 | .active => 3 | .stopped => 4 | .failed => 5
def scnStateWord (s : State) : Nat :=
  sumN ((List.finRange 4).map fun e => (scnStCode s.scn[e].st + 16 * s.scn[e].bank.val) * 256 ^ e.val)

/-! ## Fit and table checks (R250, R251, R257, R263) -/

/-- The fit condition of R257 at a frame rate in mHz: 1/F_MIN + H/(2 F_MIN) + FLYBACK + V_DELAY <= 1/f, or
0.986/f with an external reference (R342). -/
def lseFits (ext : Bool) (fmin h vert rate : Nat) : Bool :=
  fmin != 0 && decide (((2 + h) * 1000000 + 2 * fmin * (fld vert 16 16 + fld vert 0 16)) * rate
    ≤ (if ext then 986 else 1000) * 2 * fmin * 1000000)

/-- The fit condition of an engine as it stands, at a rate. -/
def engineFits (s : State) (e : Fin 4) (rate : Nat) : Bool :=
  lseFits (extRef s) s.scn[e].fMin s.eng[e].h s.scn[e].vert.toNat rate

/-- No column of a table is shorter than 8.0 ns at F_MAX (R251). -/
def columnsLong : List VctEntry → Nat → Bool
  | a :: b :: r, fmax => decide (8 * 2 ^ 21 * (fmax : Int) ≤ (b.phase - a.phase) * 1000000000) && columnsLong (b :: r) fmax
  | _, _ => true

/-- PHASE strictly increasing. -/
def phasesRise : List VctEntry → Bool
  | a :: b :: r => decide (a.phase < b.phase) && phasesRise (b :: r)
  | _ => true

/-- A completed table of an engine W columns wide (R251). -/
def vctCheck (l : List VctEntry) (w fmax : Nat) : Option Status :=
  let shape := l.length == w + 1 && phasesRise l
    && l.all (fun x => decide (-524288 ≤ x.phase) && decide (x.phase ≤ 524287))
    && (l[w]?.map (·.gain)).getD 1 == 0
  if !shape then some .badParam
  else if !columnsLong l fmax then some .resourceExceeded
  else none

/-- The live table. -/
def liveVct (w : ScnEng) : List VctEntry := w.vct[w.bank]

/-- A table of the engine's width is live (R251). -/
def vctReady (s : State) (e : Fin 4) : Bool := (liveVct s.scn[e]).length == s.eng[e].w + 1

/-! ## Excitation (R244, R262) -/

/-- Excitation starts afresh. -/
def exciteStart (st : ScanSt) (e : Fin 4) (s : State) : State :=
  loopsResume (isScanLoop e) (setScn e (fun w => { w with
    st := st, excited := true, excitedAt := s.now, edge := none, edgeWas := none, accepted := none, intervals := [], period := none,
    missed := 0, freqBad := 0, winRun := 0, ampLow := 0, slowRaised := false, drawing := false, line := none, fifo := [],
    fly := none, devSince := none, yRows := -32768, skip := false }) s)

/-- Excitation stops: loops S(24 + n) and S(28 + n) hold (R317). -/
def exciteStop (e : Fin 4) (s : State) : State :=
  scanLoopsHold e (setScn e (fun w => { w with
    excited := false, edge := none, edgeWas := none, accepted := none, intervals := [], period := none, drawing := false,
    line := none, fifo := [], fly := none, devSince := none, yRows := -32768 }) s)

/-- The scanner of an LSE engine starts on the way into READY or LIT (R244); not while an external reference
makes its timing unfit (R343). -/
def scanStart (e : Fin 4) (s : State) : State :=
  if s.isLse e ∧ !s.scn[e].excited ∧ s.scn[e].st = .off then
    if extRef s ∧ !engineFits s e s.tng.rate then raise evScnStartSlow e.val s else exciteStart .excite e s
  else s

/-- Entry to SLEEP, STANDBY, QUENCH or SAFE: OFF, and the counts of stops and automatic relights start at zero (R262). -/
def scanOff (e : Fin 4) (s : State) : State :=
  releaseCause e 6 (setScn e (fun w => { w with
    st := .off, relights := [], stopTimes := [], stoppedOnce := false, asked := false }) (exciteStop e s))

/-- A write of RESTART or a STATE_REQUEST into LIT starts a stopped or FAILED scanner again (R262). -/
def scanRestart (e : Fin 4) (s : State) : State :=
  if s.isLse e ∧ (s.scn[e].st = .stopped ∨ s.scn[e].st = .failed) then
    setScn e (fun w => { w with asked := true }) (exciteStart .excite e s)
  else s

def execScnRestart (t : Time) (e : Fin 4) (s : State) : Out :=
  regAnswer (fun s => (.ok, scanRestart e s)) (s.at t)

/-! ## Stops (R260, R262) -/

/-- A state in which the conditions of R260 are stops. -/
def stopsIn (w : ScnEng) : Bool := w.st == .excite || w.st == .inWindow || w.st == .active

/-- The automatic relights of the last 60 s (R262). -/
def recentRelights (s : State) (e : Fin 4) : List Time :=
  s.scn[e].relights.filter fun a => decide (s.now < a + 60 * sec)

/-- The stops of the last 60 s (R262, R265). -/
def recentStops (s : State) (e : Fin 4) : List Time :=
  s.scn[e].stopTimes.filter fun a => decide (s.now < a + 60 * sec)

/-- A scanner stop with its condition number: dark, counted, raised; excitation stops under conditions 1 and 5
and restarts with AUTO_RESTART = 1; the fourth stop within 60 s, or one after three automatic relights within
60 s, leaves the engine FAILED. -/
def scanStop (e : Fin 4) (cond : Nat) (s : State) : State :=
  if !stopsIn s.scn[e] then s
  else
    let was := recentStops s e
    let s1 := setScn e (fun w => { w with
      st := .stopped, stops := satInc 16 w.stops, stopTimes := s.now :: was, stoppedOnce := true, asked := false,
      winRun := 0, freqBad := 0, ampLow := 0, missed := 0 }) (darkCause e 6 s)
    let s2 := raise evScnStop (cond * 4 + e.val) s1
    let s3 := if cond = 1 ∨ cond = 5 then exciteStop e s2 else s2
    if 3 ≤ was.length ∨ 3 ≤ (recentRelights s3 e).length then
      raise evScnFailed e.val (setScn e (fun w => { w with st := .failed }) s3)
    else if s3.scn[e].autoRestart ∧ (cond = 1 ∨ cond = 5) then exciteStart .stopped e s3
    else s3

/-- The engine is back in its window: IN_WINDOW, and the scanner's dark cause is released (R259, R260). A stopped
engine with AUTO_RESTART = 0 stays stopped (R262). -/
def windowReached (e : Fin 4) (s : State) : State :=
  let w := s.scn[e]
  if w.st = .excite ∨ (w.st = .stopped ∧ w.autoRestart) then
    releaseCause e 6 (setScn e (fun w => { w with st := .inWindow }) s)
  else s

/-! ## Amplitude (R259, R260) -/

/-- The amplitude set-point of loop S(24 + n), S7.24. -/
def ampSet (s : State) (e : Fin 4) : Int := commandOf s (Fin.ofNat 64 (24 + e.val))

/-- The last amplitude is within AMP_WIN of the set-point. -/
def ampIn (s : State) (e : Fin 4) : Bool :=
  decide ((codeVal s.scn[e].amp - ampSet s e).natAbs * 1024 ≤ wfl s.scn[e].config 16 8 * (ampSet s e).toNat)

/-- AMPLITUDE_SAMPLE: condition 1 after four samples below the threshold (R260). -/
def execAmplitudeSample (t : Time) (e : Fin 4) (code : Nat) (s : State) : Out :=
  let s := s.at t
  if !s.isLse e ∨ !s.scn[e].excited then .next s
  else
    let s1 := setScn e (fun w => { w with amp := code }) s
    let low := decide (256 * codeVal code < (wfl s.scn[e].config 24 8 : Int) * ampSet s1 e)
    let inside := ampIn s1 e
    let s2 := setScn e (fun w => { w with
      ampLow := if low then w.ampLow + 1 else 0, winRun := if inside then w.winRun else 0 }) s1
    .next (if 4 ≤ s2.scn[e].ampLow then scanStop e 1 s2 else s2)

/-! ## The times of a row (R247, R248) -/

/-- CENTRE in effect, in 2^-21 period. -/
def centreOf (w : ScnEng) : Int := wfl w.centreLive 0 21

/-- A time of a row: its edge plus a part of T-hat in 2^-21 period plus taps, at the nearest tap (R247, R248). -/
def Line.time (l : Line) (part taps : Int) : Int :=
  l.edge + taps + rdivI (l.per.num * (2 ^ 21 * l.ahead + part)) (l.per.den * 2 ^ 21)

/-- Odd rows are drawn backward (R249). -/
def Line.back (l : Line) : Bool := l.row % 2 == 1

/-- The start of the row's half-period. -/
def halfStart (w : ScnEng) (l : Line) : Int := l.time (centreOf w - 2 ^ 19 + if l.back then 2 ^ 20 else 0) 0

/-- t(c) on a forward line, t'(c) on a backward one, for channel k (R247, R254). -/
def edgeTime (s : State) (e : Fin 4) (l : Line) (k : Fin 6) (c : Nat) : Int :=
  let w := s.scn[e]
  let phi := ((liveVct w)[c]?.map (·.phase)).getD 0
  let dly := sext 8 (wfl w.chDelayLive[k] 0 8)
  if l.back then l.time (centreOf w + 2 ^ 20 - phi) (sext 16 (wfl w.bidirLive 0 16) + dly)
  else l.time (centreOf w + phi) dly

/-- The i-th column of a row in the order of time: its DAC code from the line FIFO, its gate, each gate edge delayed as
R268 says (R247, R255, R277). -/
def lineCol (s : State) (e : Fin 4) (l : Line) (bytes : List Byte) (k : Fin 6) (i : Nat) : Col :=
  let c := if l.back then s.eng[e].w - 1 - i else i
  let a := edgeTime s e l k (if l.back then c + 1 else c)
  let b := edgeTime s e l k (if l.back then c else c + 1)
  let ch := chan e k.val
  let code := columnCode s ch (le16 bytes (12 * i + 2 * k.val) % 4096)
    (((liveVct s.scn[e])[c]?.map (·.gain)).getD 0) (lseLevel s e ch)
  let g := columnGate s e a b
  { dacAt := a, code := code,
    gate := if code = 0 then none else some (g.1 + gateDelay s ch, g.2 + gateDelay s ch) }

/-- What channel k drives in a row: nothing in a row drawn dark, by an engine that is not lit or by a channel that may not
be driven (R255, R256, R287). -/
def lineCols (s : State) (e : Fin 4) (l : Line) (k : Fin 6) : List Col :=
  if l.dark || !s.frg.eng[e].lit || !chanOk s (chan e k.val) then []
  else (List.range s.eng[e].w).map (lineCol s e l ((look s.scn[e].fifo l.row).getD []) k)

/-! ## The scan buffer's reader (R256) -/

/-- Where pixel (x, y) of the frame composed from frame start `f` stands (R256, R355). -/
def scanAddr (s : State) (e : Fin 4) (f x y : Nat) : Nat :=
  e.val * 0x40000000 + f % 2 * 0x10000000 + 12 * (y * s.eng[e].w + x)

/-- A row of the frame that is lit now as the port fetches it; odd rows are reversed. -/
def fetchRow (s : State) (e : Fin 4) (y : Nat) : List Byte :=
  let b := s.hbmReads (scanAddr s e (s.cmp.frameCount + 1) 0 y) (12 * s.eng[e].w)
  if y % 2 = 1 then ((List.range s.eng[e].w).reverse).flatMap fun x => slice b (12 * x) 12 else b

/-! ## Pick-off edges (R245, R246) -/

/-- Sixteen intervals each within 4 % of their mean; the mean. -/
def meanOf (l : List Nat) : Option Frac :=
  let m := sumN l
  if l.length = 16 ∧ l.all (fun d => decide (((16 * d : Nat) - (m : Int)).natAbs * 25 ≤ m)) then some ⟨m, 16⟩ else none

/-- An edge while T-hat is not yet formed. -/
def edgeForming (e : Fin 4) (s : State) : State :=
  setScn e (fun w =>
    let l := match w.edge with
      | some a => ((s.now - a) :: w.intervals).take 16
      | none => []
    { w with edge := some s.now, edgeWas := w.edge, accepted := some s.now, intervals := l, period := meanOf l, missed := 0 }) s

/-- The row being drawn counts from a new edge (R247): where its own edge was a predicted one, the columns still to come
take their times from the accepted edge and the new T-hat. -/
def lineFollows (e : Fin 4) (s : State) : State :=
  match s.scn[e].line, s.scn[e].edge, s.scn[e].period with
  | some l, some a, some p =>
    if l.ahead = 0 then s
    else
      let l' := { l with edge := a, ahead := l.ahead - 1, per := p }
      let new : Vector (List Col) 6 := tab 6 fun k => List.zipWith (fun (x y : Col) => if x.dacAt ≤ s.now then x else y)
        l.cols[k] (lineCols s e l' k)
      setScn e (fun w => { w with line := some { l' with cols := new } }) s
  | _, _, _ => s

/-- An accepted edge with its interval, when one counts: T-hat, conditions 3 and 4, the window (R245, R259-R261). -/
def edgeAccepted (e : Fin 4) (p : Frac) (s : State) : State :=
  let w := s.scn[e]
  let d := s.now - w.edge.getD s.now
  let counts := w.missed == 0 && !w.skip
  let jump := counts && decide (p.num < ((d * p.den : Nat) - (p.num : Int)).natAbs * 50)
  let l := if counts then (d :: w.intervals).take 16 else w.intervals
  let p' : Frac := if counts then ⟨sumN l, l.length⟩ else p
  let good := freqIn w p'
  let s1 := setScn e (fun w => { w with
    edge := some s.now, edgeWas := w.edge, accepted := some s.now, missed := 0, skip := false, intervals := l,
    period := some p', freqBad := if good then 0 else w.freqBad + 1,
    winRun := if good && ampIn s e then w.winRun + 1 else 0 }) s
  let s2 := lineFollows e s1
  if jump then scanStop e 3 s2
  else if 16 ≤ s2.scn[e].freqBad then scanStop e 4 s2
  else if 16 ≤ s2.scn[e].winRun then windowReached e s2
  else s2

/-- An edge outside +-4 % of the prediction is ignored (R245). -/
def edgeIgnored (e : Fin 4) (s : State) : State :=
  let first := !s.scn[e].spuriousRaised
  raiseIf first evScnEdgeSpurious e.val
    (setScn e (fun w => { w with spurious := w.spurious + 1, ignored := w.ignored + 1, spuriousRaised := true }) s)

/-- PICKOFF_EDGE. -/
def execPickoffEdge (t : Time) (e : Fin 4) (s : State) : Out :=
  let s := s.at t
  let w := s.scn[e]
  if !s.isLse e ∨ !w.excited then .next s
  else match w.period with
    | none => .next (edgeForming e s)
    | some p =>
      let d := s.now - w.edge.getD s.now
      if ((d * p.den : Nat) - (p.num : Int)).natAbs * 25 ≤ p.num then .next (edgeAccepted e p s)
      else .next (edgeIgnored e s)

/-- PREDICTED_EDGE_MISSED: once the window of +-4 % has closed the prediction stands in; the second in a row is
condition 2 (R245, R260). -/
def execPredictedEdgeMissed (t : Time) (e : Fin 4) (s : State) : Out :=
  let s := s.at t
  let w := s.scn[e]
  match w.period, w.edge with
  | some p, some a =>
    if !s.isLse e ∨ !w.excited ∨ 25 * (s.now - a) * p.den < 26 * p.num then .next s
    else
      let s1 := lineFollows e (setScn e (fun w => { w with
        edge := some (a + p.round), edgeWas := some a, missed := w.missed + 1 }) s)
      .next (if 2 ≤ s1.scn[e].missed then scanStop e 2 s1 else s1)
  | _, _ => .next s

/-- SCAN_START_TIMEOUT: 250 ms from excitation start without IN_WINDOW (R48, R259). -/
def execScanStartTimeout (t : Time) (e : Fin 4) (s : State) : Out :=
  let s := s.at t
  let w := s.scn[e]
  if s.isLse e && w.excited && (w.st == .excite || w.st == .stopped) && !w.slowRaised
      && decide (w.excitedAt + 250 * ms ≤ s.now) then
    .next (raise evScnStartSlow e.val (setScn e (fun w => { w with slowRaised := true }) s))
  else .next s

/-- VERTICAL_DEVIATION_TIMEOUT: condition 5, once the position has been off for 50 us (R260). -/
def execVerticalDeviationTimeout (t : Time) (e : Fin 4) (s : State) : Out :=
  let s := s.at t
  let due := match s.scn[e].devSince with
    | some a => decide (a + 50 * us ≤ s.now)
    | none => false
  if s.isLse e && s.scn[e].excited && due then .next (scanStop e 5 s) else .next s

/-! ## Real-time ports (R359, R360) -/

/-- A real-time port reports its level; GRN_PANIC at most once per frame. Starvation time is counted up to the change
(R484). -/
def portLevel (e : Fin 4) (u : Urg) (s : State) : State :=
  let m : BitVec 4 := BitVec.ofNat 4 (2 ^ e.val)
  let s1 := setGrn (fun g => { g with urg := upd g.urg e u }) (starveTick s)
  if u = .panic ∧ s.grn.panicRaised &&& m = 0 then
    raise evGrnPanic m.toNat (setGrn (fun g => { g with panicRaised := g.panicRaised ||| m }) s1)
  else s1

/-! ## Rows (R249, R252, R256) -/

/-- The scan-buffer reader's level from the bytes fetched behind the row that starts (R359, log 48). -/
def rowLevel (w fetched : Nat) : Urg :=
  if fetched < 12 * w then .panic else if fetched < 18 * w then .urgent else .normal

/-- A row drawn dark: SCN_UNDERRUN_En, and SCN_UNDERRUN once per frame (R256). -/
def rowDark (e : Fin 4) (s : State) : State :=
  let first := !s.scn[e].underRaised
  raiseIf first evScnUnderrun e.val
    (setScn e (fun w => { w with underrun := satInc 16 w.underrun, underRaised := true }) s)

/-- The row whose half-period runs now, with the edge it counts from (R247): half-periods are counted from the last
accepted edge; none where that edge is too far back. -/
def rowLine (s : State) (e : Fin 4) : Option Line :=
  let w := s.scn[e]
  match w.edge, w.period with
  | some a, some p =>
    let h : Int := 2 * (((s.now + 1 : Nat) - (a : Int)) * (p.den * 2 ^ 21 : Nat) - p.num * (centreOf w - 2 ^ 19))
      / (p.num * 2 ^ 21 : Nat)
    let l : Line := { row := w.row, edge := a, ahead := (h / 2).toNat, per := p }
    if !s.isLse e || !w.excited || p.num == 0 || decide (s.eng[e].h ≤ w.row) || h % 2 != w.row % 2 then none
    else if 0 ≤ h then some l
    else if -2 ≤ h then w.edgeWas.map fun b => { l with edge := b }
    else none
  | _, _ => none

/-- The half-period of that row is the one R249 gives it: for row 0 the first forward one that begins at or after the frame
start plus V_DELAY, for every other row the one that follows the row before. -/
def rowDue (s : State) (e : Fin 4) (l : Line) : Bool :=
  let w := s.scn[e]
  let hs := halfStart w l
  let from' : Int := s.tng.frameAt + us * wfl w.vert 0 16
  if l.row = 0 then decide (from' ≤ hs) && decide (hs < from' + l.per.round)
  else decide ((hs - w.rowAt - (l.per.round / 2 : Nat)).natAbs ≤ l.per.round / 4)

/-- Row `l.row` is drawn: the port has fetched up to row r + 2, the columns get their times (R252, R255, R256). -/
def rowDrawn (e : Fin 4) (l : Line) (complete : Bool) (s : State) : State :=
  let hs := (halfStart s.scn[e] l).toNat
  let want := [l.row, l.row + 1, l.row + 2].filter fun r => decide (r < s.eng[e].h)
  let rows := want.map fun r => (r, (look s.scn[e].fifo r).getD (fetchRow s e r))
  let l1 := { l with dark := !complete }
  let s1 := setScn e (fun w => { w with
    t0 := if l.row = 0 then hs else w.t0, rowAt := hs, row := l.row + 1, drawing := true, fly := none, fifo := rows }) s
  setScn e (fun w => { w with line := some { l1 with cols := tab 6 fun k => lineCols s1 e l1 k } }) s1

/-- ROW_START: the next row of the frame begins, at its half-period (R249); row 0 sets t0 (R252). -/
def execRowStart (t : Time) (e : Fin 4) (fetched : Nat) (complete : Bool) (s : State) : Out :=
  let s := s.at t
  match rowLine s e with
  | none => .next s
  | some l =>
    if !rowDue s e l then .next s
    else
      let s1 := portLevel e (rowLevel s.eng[e].w fetched) (rowDrawn e l complete s)
      .next (if s.frg.eng[e].lit && !complete then rowDark e s1 else s1)

/-- FLYBACK: the last row's half-period ends, the set-point moves back to -0.5 rows (R252). -/
def execFlyback (t : Time) (e : Fin 4) (s : State) : Out :=
  let s := s.at t
  let w := s.scn[e]
  match w.period with
  | none => .next s
  | some p =>
    if s.isLse e && w.drawing && decide (s.eng[e].h ≤ w.row) && decide (w.rowAt + p.floor / 2 ≤ s.now) then
      .next (setScn e (fun x => { x with
        drawing := false, line := none, fifo := [], yRows := rowsNow s e, fly := some (s.now, rowsNow s e) }) s)
    else .next s

/-! ## Frame start (R251, R254) -/

/-- What a frame start does for the Scan block of an engine. -/
def scnFrame (e : Fin 4) (s : State) : State :=
  setScn e (fun w =>
    let due := match w.vctDone with
      | some a => decide (a + 200 * us ≤ s.now)
      | none => false
    { w with
      centreLive := w.centre, bidirLive := w.bidir, chDelayLive := w.chDelay, spurious := 0, spuriousRaised := false,
      ignored := 0, underRaised := false, row := 0, bank := if due then other w.bank else w.bank,
      vctDone := if due then none else w.vctDone }) s

/-- The engine relights at a frame start after a stop: SCN_RESTART, and an automatic relight is counted (R262). -/
def scanRelit (e : Fin 4) (s : State) : State :=
  let w := s.scn[e]
  let s1 := setScn e (fun w => { w with st := .active, stoppedOnce := false, asked := false }) s
  if !w.stoppedOnce then s1
  else raise evScnRestart e.val (if w.asked then s1
    else setScn e (fun w => { w with relights := s.now :: recentRelights s e }) s1)

/-! ## Writes of SCN parameters (R257, R258, R319) -/

/-- The rule of R319 for the live banks of an engine's SCAN_VERT loops. -/
def vertLoopsOk (s : State) (e : Fin 4) (hrange vert : Word) (h : Nat) : Bool :=
  s.srv.loops.toList.all fun l => !(l.ty == 3 && l.eng == e)
    || match l.banks[l.live] with
      | some b => vertRateOk b hrange vert h
      | none => true

/-- A value pair for SCN_HRANGE_En and SCN_VERT_En (R257, R258, R264, R319). -/
def scnGeometry (s : State) (e : Fin 4) (hrange vert : Word) : Option Status :=
  let w := s.scn[e]
  let tablesOk := columnsLong (liveVct w) (wfl hrange 16 16)
    && (w.vctDone.isNone || columnsLong w.vct[other w.bank] (wfl hrange 16 16))
  if wfl hrange 16 16 < wfl hrange 0 16 then some .badParam
  else if !(w.st == .off || w.st == .stopped || w.st == .failed) then some .wrongState
  else if s.isLse e && !(lseFits (extRef s) (wfl hrange 0 16) s.eng[e].h vert.toNat (budgetRate s) && tablesOk
      && vertLoopsOk s e hrange vert s.eng[e].h) then some .resourceExceeded
  else none

end Sys2Proof.Machine
end

