-- ==== Sys2Proof/Machine/Swath.lean ====
section
/-! DEFINITION. The Swath link of a mirror-array engine: bring-up (R232, R233), link loss (R234, R235, R568),
the return-lane status frame (R230, R231), corrected-codeword statistics (R238), and lane budgets (R225). -/

namespace Sys2Proof.Machine

/-! ## Lane budget (R225) -/

/-- Rows of the largest band of an array H rows high (R220). -/
def largestBand (h : Nat) : Nat := maxN ((List.range 16).map fun k => h * (k + 1) / 16 - h * k / 16)

/-- N_flit of R225. -/
def flitsPerBand (w h : Nat) : Nat := cdiv (largestBand h * rowBytes w + 4) 99

/-- The lane count suffices: 16 x t_band at most 42,600 ns, with 105.82 Gbit/s a lane (R225). -/
def lanesSuffice (w h lanes : Nat) : Bool :=
  decide (16 * 800 * flitsPerBand w h * 100 ≤ 42600 * lanes * 10582)

/-! ## Bring-up (R232, R233) -/

/-- ALIGN flits and idle-blank flits go out, from now to the next slot epoch in turn (R229, R232). -/
def trainSent (w : SwtEng) : SwtEng := { w with sent := w.sent ++ [.train w.aligns 1], aligns := w.aligns + 1 }

/-- Bring-up starts on the stored taps: step 1. -/
def linkStart (e : Fin 4) (s : State) : State :=
  let s1 := storedTaps 1 (fun t => t / 8 == e.val) (storedTaps 0 (fun t => t / 24 == e.val) s)
  setSwt e (fun w => trainSent { w with
    link := .training, step := 1, attempts := 0, tapsDefault := false,
    blockLock := false, missing := 0, uncorrFrame := 0, laneOk := 0, soak := Vector.replicate 8 0, skew := [],
    corr := [], laneUnc := 0 }) s1

/-- The link is down: OFF, and the restart count of R235 starts again from zero (R232). -/
def linkOff (e : Fin 4) (s : State) : State :=
  releaseCause e 5 (setSwt e (fun w => { w with
    link := .off, step := 0, attempts := 0, tapsDefault := false, blockLock := false, missing := 0, uncorrFrame := 0,
    restarts := [], laneOk := 0, soak := Vector.replicate 8 0, sent := [], sentWas := [], flits := 0, aligns := 0,
    probes := 0, sync := none }) s)

/-- Bring-up may start: READY or LIT, or on the way into them; not in SAFE (R232). -/
def linkMayStart (s : State) (e : Fin 4) : Bool :=
  s.isMae e && (s.hth.pwr == .ready || s.hth.pwr == .lit ||
    match s.hth.trans with
    | some t => t.stepTo == .ready || t.stepTo == .lit
    | none => false)

/-- The link state FAILED with SWT_LINK_FAIL (R233, R235). -/
def linkFailed (e : Fin 4) (s : State) : State :=
  raise evSwtLinkFail e.val (setSwt e (fun w => { w with link := .failed, step := 0 }) s)

/-- The failing lanes of an attempt: the lanes in use that the last status frame did not show locked and deskewed, all of
them where it singles none out (R233 does not say how they are told; log 44). -/
def failingLanes (s : State) (e : Fin 4) : List Nat :=
  let used := List.range (swtLanes s.swt[e].config)
  let bad := used.filter fun m => !s.swt[e].laneOk.toNat.testBit m
  if bad.isEmpty then used else bad

/-- An attempt fails: the next adapts the failing lanes from defaults, SWT_RETRAIN; the third failure ends bring-up
(R233). -/
def attemptFailed (e : Fin 4) (s : State) : State :=
  let n := s.swt[e].attempts + 1
  let s1 := setSwt e (fun w => { w with attempts := n }) s
  if 3 ≤ n then linkFailed e s1
  else raise evSwtRetrain e.val (adaptLanes e (failingLanes s e) (setSwt e (fun w => trainSent { w with
    step := 1, tapsDefault := true, blockLock := false, missing := 0, laneOk := 0, soak := Vector.replicate 8 0 }) s1))

/-- Bring-up goes on: in SAFE the link keeps its STATE (R232). -/
def bringsUp (s : State) (e : Fin 4) : Bool := s.swt[e].link == .training && s.hth.pwr != .safe

/-- CFG_OK of 0: FAILED at once with SWT_CFG_MISMATCH, no automatic attempt (R233). -/
def cfgMismatch (e : Fin 4) (s : State) : State :=
  raise evSwtCfgMismatch e.val (setSwt e (fun w => { w with link := .failed, step := 0 }) s)

/-- RETRY written 1: bring-up of a FAILED or DOWN link starts again (R233, R240). -/
def swtRetryWrite (e : Fin 4) (s : State) : Status × State :=
  if (s.swt[e].link = .failed ∨ s.swt[e].link = .down) ∧ linkMayStart s e then (.ok, linkStart e s) else (.ok, s)

def execSwtRetry (t : Time) (e : Fin 4) (s : State) : Out := regAnswer (swtRetryWrite e) (s.at t)

/-! ## Link loss (R234, R235, R568) -/

/-- The losses of the last 10 s that restarted the link. -/
def recentRestarts (s : State) (e : Fin 4) : List Time :=
  s.swt[e].restarts.filter fun a => decide (s.now < a + 10 * sec)

/-- A link loss of a READY or lit link: the hardware path acts on a lit engine and raises SWT_LINK_DOWN; the
link restarts at once with AUTO_RETRY = 1, a fourth loss within 10 s fails it, in SAFE too; none restarts in SAFE. -/
def linkLoss (e : Fin 4) (s : State) : State :=
  let s1 := if s.frg.eng[e].lit then raise evSwtLinkDown e.val (darkCause e 5 s) else s
  let s2 := setSwt e (fun w => { w with link := .down, step := 0 }) s1
  let r := recentRestarts s2 e
  if !wb s2.swt[e].config 1 then s2
  else if 3 ≤ r.length then linkFailed e s2
  else if !linkMayStart s2 e then s2
  else linkStart e (setSwt e (fun w => { w with restarts := s2.now :: r }) s2)

/-- A condition of R234: a loss of a link that is READY or ACTIVE; before that, once the step that gained what is lost has
been passed (`from'`), a missed step of bring-up (R568). -/
def lossIfUp (from' : Nat) (e : Fin 4) (s : State) : State :=
  if s.swt[e].link = .ready ∨ s.swt[e].link = .active then linkLoss e s
  else if bringsUp s e && decide (from' ≤ s.swt[e].step) then attemptFailed e s
  else s

/-- No valid status frame in a slot: two in a row are a loss. -/
def frameMissing (e : Fin 4) (s : State) : State :=
  let s1 := setSwt e (fun w => { w with missing := w.missing + 1 }) s
  if 2 ≤ s1.swt[e].missing then lossIfUp 2 e s1 else s1

/-- The return lane runs. -/
def linkRuns (s : State) (e : Fin 4) : Bool :=
  s.fastUp && s.swt[e].link != .off && s.swt[e].link != .failed

def execStatusFrameMissing (t : Time) (e : Fin 4) (s : State) : Out :=
  let s := s.at t
  if !linkRuns s e then .next s else .next (frameMissing e s)

def execReturnLaneBlockLock (t : Time) (e : Fin 4) (s : State) : Out :=
  let s := s.at t
  if !linkRuns s e then .next s else .next (setSwt e (fun w => { w with blockLock := true }) s)

def execReturnLaneBlockLockLoss (t : Time) (e : Fin 4) (s : State) : Out :=
  let s := s.at t
  if !linkRuns s e then .next s
  else .next (lossIfUp (if s.swt[e].blockLock then 1 else 2) e (setSwt e (fun w => { w with blockLock := false }) s))

/-- LINK_BRINGUP_STEP_TIMEOUT: a step of bring-up missed its time (R233). -/
def execLinkBringupStepTimeout (t : Time) (e : Fin 4) (s : State) : Out :=
  let s := s.at t
  if bringsUp s e then .next (attemptFailed e s) else .next s

/-- LINK_SOAK_COMPLETE: the soak of step 6 passed, the link is READY (R232, R235). -/
def execLinkSoakComplete (t : Time) (e : Fin 4) (s : State) : Out :=
  let s := s.at t
  if bringsUp s e ∧ s.swt[e].step = 6 then
    .next (raise evSwtLinkUp e.val (releaseCause e 5 (setSwt e (fun w => { w with
      link := .ready, step := 7, uncorrFrame := 0 }) s)))
  else .next s

/-! ## The status frame (R230) -/

/-- MARK and CRC hold. -/
def statusFrameOk (b : List Byte) : Bool :=
  b.length == 64 && byteAt b 0 == 0xC3 && byteAt b 1 == 0x3C && crc32c (b.take 60) == leNat (slice b 60 4)

/-- Bands reported BLANK_CRC or BLANK_MISSING. -/
def badBands (b : List Byte) : Nat :=
  ((List.range 16).filter fun k => decide (2 ≤ fld (le32 b 8) (2 * k) 2)).length

/-- A slot of the lit frame whose bands were not all latched delivers nothing (R141, R231). -/
def slotReported (e : Fin 4) (b : List Byte) (s : State) : State :=
  let w := le16 b 2
  if le32 b 8 ≠ 0 ∧ w / 32768 = s.cmp.frameCount % 2 then slotUnlit e (w % 512) s else s

/-- What every valid frame records: TEMP, SKEW, ARRAY_ID follows in bring-up, codeword counts, band results,
SLACK; a FEC_LIMIT of 0 disables the sums and SLACK of R238 (R230, R231, R240). -/
def frameRecord (e : Fin 4) (b : List Byte) (s : State) : State :=
  let unc := sumN ((List.range 8).map fun m => if bit (laneMask s.swt[e].config) m then byteAt b (12 + m) else 0)
  let bad := badBands b
  let on := wfl s.swt[e].config 8 8 != 0
  let slow := on && decide (le16 b 44 < 100)
  let w := s.swt[e]
  let s1 := setSwt e (fun w => { w with
    missing := 0, arrayTemp := toW (le16 b 48), skew := (List.range 8).map fun m => sext 8 (byteAt b (36 + m)),
    corr := (((List.range 8).map fun m => le16 b (20 + 2 * m)) :: w.corr).take 16,
    laneUnc := BitVec.ofNat 8 (maskOf 8 fun m => byteAt b (12 + m) != 0),
    laneOk := BitVec.ofNat 8 (Nat.land (byteAt b 5) (byteAt b 6)),
    uncorr := satAdd 32 w.uncorr unc, uncorrFrame := w.uncorrFrame + unc,
    laneAcc := tab 8 fun m => if on && bit (laneMask w.config) m.val then w.laneAcc[m] + le16 b (20 + 2 * m.val) else 0,
    bandErr := satAdd 16 w.bandErr bad, bandRaised := w.bandRaised || bad != 0,
    slackRaised := w.slackRaised || slow }) s
  raiseIf (slow && !w.slackRaised) evSwtSlackLow e.val
    (raiseIf (bad != 0 && !w.bandRaised) evSwtBandCrc e.val (slotReported e b s1))

/-- Steps 2 to 4 of bring-up on a valid frame: the first frame after block lock identifies the array, whose
taps adapt from defaults when it is another (R411); then lane lock, then deskew and ARRAY_CFG. -/
def bringStep (b : List Byte) (e : Fin 4) (s : State) : State :=
  let used := laneMask s.swt[e].config
  let id := slice b 50 8
  let s1 := if s.swt[e].step = 1 ∧ s.swt[e].blockLock then
      let same := knownArray s e == some id
      let s2 := setSwt e (fun w => { w with arrayId := id, step := 2 }) s
      if same || s.swt[e].tapsDefault then s2
      else raise evSwtRetrain e.val (adaptSwath e (setSwt e (fun w => { w with tapsDefault := true }) s2))
    else s
  let s3 := if s1.swt[e].step = 2 ∧ Nat.land (byteAt b 5) used = used then
      setSwt e (fun w => { w with step := 3 }) s1 else s1
  if s3.swt[e].step = 3 ∧ Nat.land (byteAt b 6) used = used then
    setSwt e (fun w => { w with step := 4, sent := w.sent ++
      [.arrayCfg s3.eng[e].w s3.eng[e].h (swtLanes w.config) s3.thr.rate] }) s3
  else s3

/-- Steps 4 and 5: the echo of ARRAY_CFG, and PROBE with L_fwd in ns. The probe leaves with the sync edge
(log 44). -/
def bringCheck (b : List Byte) (e : Fin 4) (s : State) : State :=
  if s.swt[e].step = 4 then
    if bit (byteAt b 4) 1 then setSwt e (fun w => { w with
        step := 5, sent := w.sent ++ [.probe w.probes], probes := w.probes + 1 }) s
    else cfgMismatch e s
  else
    let ns := rdiv (le16 b 46) 4
    let s1 := setSwt e (fun w => { w with latency := ns }) s
    if 2000 * 4 < le16 b 46 then attemptFailed e s1 else setSwt e (fun w => { w with step := 6 }) s1

/-- The soak: an uncorrectable codeword, or corrected ones that reach FEC_LIMIT on a lane (unless it is 0), cost the
attempt, since the 20 ms no longer fit the step's time (R232). -/
def soakFrame (b : List Byte) (e : Fin 4) (s : State) : State :=
  let w := s.swt[e]
  let lim := wfl w.config 8 8 * 4096
  let used := List.range (swtLanes w.config)
  let soak : Vector Nat 8 := tab 8 fun m => w.soak[m] + le16 b (20 + 2 * m.val)
  let bad := used.any fun m => byteAt b (12 + m) != 0 || (lim != 0 && decide (lim ≤ soak[Fin.ofNat 8 m]))
  let s1 := setSwt e (fun w => { w with soak := soak }) s
  if bad then attemptFailed e s1 else s1

/-- What a status frame shows lost of what has been gained (R234): lane lock after step 3, deskew after step 4. -/
def frameLoss (s : State) (e : Fin 4) (b : List Byte) : Bool :=
  let used := laneMask s.swt[e].config
  let up := s.swt[e].link != .training
  let n := s.swt[e].step
  ((up || decide (3 ≤ n)) && (Nat.land (byteAt b 5) used != used || decide (64 < s.swt[e].uncorrFrame)))
    || ((up || decide (4 ≤ n)) && Nat.land (byteAt b 6) used != used) || bit (byteAt b 4) 2

/-- One valid frame during bring-up; once ARRAY_CFG was echoed, a CFG_OK of 0 fails the attempt at once (R233). -/
def bringFrame (b : List Byte) (e : Fin 4) (s : State) : State :=
  if 5 ≤ s.swt[e].step ∧ !bit (byteAt b 4) 1 then cfgMismatch e s
  else if frameLoss s e b then attemptFailed e s
  else if s.swt[e].step ≤ 3 then bringStep b e s
  else if s.swt[e].step ≤ 5 then bringCheck b e s
  else soakFrame b e s

/-- RETURN_STATUS_FRAME. -/
def execReturnStatusFrame (t : Time) (e : Fin 4) (bytes : List Byte) (s : State) : Out :=
  let s := s.at t
  if !linkRuns s e then .next s
  else if !statusFrameOk bytes then .next (frameMissing e s)
  else
    let s1 := frameRecord e bytes s
    if bringsUp s1 e then .next (bringFrame bytes e s1)
    else if frameLoss s1 e bytes then .next (lossIfUp 8 e s1)
    else .next s1

/-! ## Statistics (R238) -/

/-- One lane at the end of a second. -/
def laneSecond (e : Fin 4) (m : Fin 8) (s : State) : State :=
  let w := s.swt[e]
  let n := w.laneAcc[m]
  let lim := wfl w.config 8 8 * 4096
  let bitv : BitVec 8 := BitVec.ofNat 8 (2 ^ m.val)
  let was := w.fecRaised &&& bitv != 0
  let high := lim != 0 && decide (lim < n)
  let s1 := setSwt e (fun w => { w with
    laneCorr := upd w.laneCorr m n, laneAcc := upd w.laneAcc m 0,
    fecRaised := if high then w.fecRaised ||| bitv
      else if 2 * n < lim ∨ lim = 0 then w.fecRaised &&& ~~~bitv else w.fecRaised }) s
  raiseIf (high && !was) evSwtFecDegraded (8 * e.val + m.val) s1

/-- LANE_CORR_SECOND. -/
def execLaneCorrSecond (t : Time) (s : State) : Out :=
  let s := s.at t
  if !s.fastUp then .next s
  else .next (forEng (fun e a => (List.finRange 8).foldl (fun b m => laneSecond e m b) a) s)

/-- The per-frame counts restart at a frame start (R231, R234, R238). -/
def swtFrame (e : Fin 4) (s : State) : State :=
  setSwt e (fun w => { w with uncorrFrame := 0, bandRaised := false, slackRaised := false }) s

/-- The state codes of SWT_LINK_STATE, and the engine's byte (R240). -/
def Link.code : Link → Nat
  | .off => 0 | .training => 1 | .ready => 2 | .active => 3 | .down => 4 | .failed => 5

def linkByte (s : State) (e : Fin 4) : Nat := b2n s.swt[e].tapsDefault * 32 + b2n (idleBlank s e) * 16 + s.swt[e].link.code

end Sys2Proof.Machine
end

