-- ==== Sys2Proof/Machine/Slots.lean ====
section
/-! DEFINITION. The slots of a mirror-array engine: slot epochs (R205, R209, R211, R221), light windows (R206,
R210), band deadlines (R207, R223), bands whose data are late or bad (R187, R208), and what a frame start does
to them. -/

namespace Sys2Proof.Machine

/-! ## Entries and planes -/

/-- The entry of slot `n` of a Sheaf; none in the dark slot. -/
def slotEntry (sh : Sheaf) (n : Nat) : Option SheafEntry := sh.entries[n]?

/-- The slot shows no plane: a DARK entry or the dark slot (R211, R219). -/
def slotZero (sh : Sheaf) (n : Nat) : Bool :=
  match slotEntry sh n with
  | some x => x.dark
  | none => true

/-- The target slice at slot `n`: the DEPTH of the first entry at or after it that is not DARK, else that of the
next frame (R209). -/
def focusTarget (sh next : Sheaf) (n : Nat) : Option Nat :=
  match (sh.entries.drop n).find? fun x => !x.dark with
  | some x => some x.depth
  | none => (next.entries.find? fun x => !x.dark).map (·.depth)

/-- The frame parity of a slot (R219). -/
def frameParity (s : State) (ahead : Nat) : Bool := (s.cmp.frameCount + ahead) % 2 == 1

/-- Bytes of one plane of an engine (R189, R359). -/
def planeBytes (s : State) (e : Fin 4) : Nat := rowBytes s.eng[e].w * s.eng[e].h

/-- The plane reader's level from its lead in bytes (R359). -/
def planeLevel (p lead : Nat) : Urg :=
  if 2 * lead < p then .panic else if 4 * lead < 3 * p then .urgent else .normal

/-- The lanes carry the engine's planes (R232). -/
def transmits (s : State) (e : Fin 4) : Bool := s.swt[e].link == .active && lanesRun s e

/-! ## SLOT_EPOCH -/

/-- The entry `d` slots after slot `n`, past the dark slot one of the next frame, and the plane buffer it stands in:
planes lit in the current frame were composed in the frame before (R187). -/
def entryAfter (s : State) (e : Fin 4) (n d : Nat) : Option SheafEntry × Nat :=
  let t := s.thr.eng[e]
  if n + d ≤ t.s then (slotEntry t.read (n + d), (s.cmp.frameCount + 1) % 2)
  else (slotEntry t.next (n + d - t.s - 1), s.cmp.frameCount % 2)

/-- The index of the slot `d` slots after slot `n`. -/
def slotAfter (t : ThrEng) (n d : Nat) : Nat := if n + d ≤ t.s then n + d else n + d - t.s - 1

/-- The entry after slot `n` that carries data, with its plane buffer. -/
def nextEntry (s : State) (e : Fin 4) (n : Nat) : Option (SheafEntry × Nat) :=
  match entryAfter s e n 1 with
  | (some x, b) => if x.dark then none else some (x, b)
  | _ => none

/-- The plane of the next slot carries data. -/
def nextCarries (s : State) (e : Fin 4) (n : Nat) : Bool := (nextEntry s e n).isSome

/-- What the plane reader holds of the next slot's plane when slot `n` begins: the bands within its lead, read from the
plane store, at most 4 MiB (R190). -/
def fifoAt (s : State) (e : Fin 4) (n lead : Nat) : List (Nat × List Byte) :=
  match nextEntry s e n with
  | some (x, b) => (bandsWithin s e (min lead 4194304)).map fun k => (k, bandBytes s e b x.plane k)
  | none => []

/-- The lane time of slot `n`: PLANE_BEGIN of the next slot, its bands 0 to 15 back to back from the FIFO and the plane
store, ALIGN on every lane in the gap of the dark slot, IDLE flits to the end (R221, R229); a band that is known to be
dark is blanked by command (R208). Before the link is READY, ALIGN and idle-blank flits go out in turn; an engine that
is not lit sends idle-blank flits (R232). -/
def slotPlan (s : State) (e : Fin 4) (n : Nat) : List SwtCmd :=
  let t := s.thr.eng[e]
  let w := s.swt[e]
  let l := swtLanes w.config
  let cap := flitsIn l (slotTaps s e)
  let m := slotAfter t n 1
  if !lanesRun s e then []
  else if w.link = .training then [.train w.aligns (cap / (2 * l))]
  else if w.link ≠ .active then [.idle true cap]
  else
    let begin' := SwtCmd.planeBegin m (frameParity s (if n = t.s then 1 else 0)) (nextEntry s e n).isNone
    let bands := match nextEntry s e n with
      | some (x, b) => (List.range 16).map fun k =>
        let d := (look t.fifo k).getD (bandBytes s e b x.plane k)
        SwtCmd.band k d (bandFlits d.length)
      | none => []
    let gap := if n = t.s then [SwtCmd.align w.aligns 1] else []
    let c := begin' :: bands
    let all := c ++ gap ++ [.idle false (cap - sentFlits l (c ++ gap))]
    match t.nextDark.min? with
    | some k => if bands.isEmpty then all else cutBand l m k 0 all
    | none => all

/-- Rounds of ALIGN in a plan. -/
def alignRounds (c : List SwtCmd) : Nat :=
  sumN (c.map fun | .align _ r => r | .train _ r => r | _ => 0)

/-- The lanes go on with slot `n`: its plan leaves 0.5 us after the epoch less L_fwd, so that it arrives at 0.5 us (R221,
R228), with the band-sync pulse of the slot (R226). -/
def lanesSlot (e : Fin 4) (n : Nat) (s : State) : State :=
  let plan := slotPlan s e n
  setSwt e (fun w => { w with
    flits := w.flits + sentFlits (swtLanes w.config) w.sentWas, sentWas := w.sent, sent := plan,
    sentAt := s.now + 2000 - 4 * w.latency, aligns := w.aligns + alignRounds plan,
    sync := if w.link = .off then none else some (s.now - wfl w.config 16 14, if n = 0 then 128 else 64) }) s

/-- Bands of the slot's plane that were not written in time are dark in it, each counted (R187). -/
def lateInSlot (t : ThrEng) (n : Nat) : List Nat :=
  match slotEntry t.read n with
  | some x => if x.dark then [] else (t.lateBands.filter fun b => b.1 == x.plane).map (·.2)
  | none => []

/-- Slot `n` begins. -/
def slotBegins (e : Fin 4) (n lead : Nat) (s : State) : State :=
  let t := s.thr.eng[e]
  let late := lateInSlot t n
  let s1 := setThrE e (fun t => { t with
    slot := n, epochs := n + 1, epochAt := s.now, lit := false, nextDark := t.thenDark, thenDark := [],
    fifo := fifoAt s e n lead,
    darkBands := t.nextDark ++ late.filter (fun k => !t.nextDark.contains k),
    bandDark := satAdd 16 t.bandDark (if s.frg.eng[e].lit then late.length else 0) }) s
  let s2 := engChans e (fun c => { c with pulse := {} }) s1
  let s3 := lanesSlot e n s2
  let s4 := setTmp (fun x => { x with took01 := x.took01 &&& ~~~(BitVec.ofNat 4 (2 ^ e.val)) }) s3
  let s5 := match focusTarget t.read t.next n with
    | some j => setTarget e j s4
    | none => s4
  portLevel e (if transmits s e && nextCarries s e n then planeLevel (planeBytes s e) lead else .normal) s5

/-- SLOT_EPOCH: the next slot of the frame, from slot 0 at the frame start to the dark slot S (R205, R211). -/
def execSlotEpoch (t : Time) (e : Fin 4) (lead : Nat) (s : State) : Out :=
  let s := s.at t
  let n := s.thr.eng[e].epochs
  if !s.fastUp ∨ !s.isMae e ∨ s.thr.eng[e].s < n then .next s else .next (slotBegins e n lead s)

/-! ## LIGHT_WINDOW_OPEN -/

/-- The length of the light window in taps: the slot less 1,875 ns, SETTLE and GUARD (R205, R206). -/
def windowTaps (s : State) (e : Fin 4) : Nat :=
  slotTaps s e - 7500 - 500 * bandSettle s.thr.eng[e].timing - 500 * bandGuard s.thr.eng[e].timing

/-- The slot's light: focus-dark when focus is not in its window, else the pulse of its channel (R210, R272). -/
def openWindow (e : Fin 4) (x : SheafEntry) (s : State) : State :=
  let t := s.thr.eng[e]
  let c := chan e x.primary
  let w := litWeight s e t.read x
  let p := slotPulse s e w (windowTaps s e) c
  if w = 0 ∨ p.len = 0 then s
  else if focusUsed s e && !(t.target == x.depth && s.srv.loops[focusSlot s e].inWindow) then focusDark e x.depth s
  else setThrE e (fun t => { t with lit := true }) (setCh c (fun k => { k with pulse := p, litNow := true }) s)

/-- LIGHT_WINDOW_OPEN. -/
def execLightWindowOpen (t : Time) (e : Fin 4) (s : State) : Out :=
  let s := s.at t
  let th := s.thr.eng[e]
  if !s.fastUp || !s.isMae e || !s.frg.eng[e].lit || th.epochs == 0 then .next s
  else match slotEntry th.read th.slot with
    | some x => if x.dark then .next s else .next (openWindow e x s)
    | none => .next s

/-! ## BAND_LOAD_DEADLINE -/

/-- The deadline of band `k` belongs to the slot whose reset of that band comes next: the current slot within
1,875 ns of its epoch for the bands not yet reset, else the slot being loaded (R205, R223). -/
def deadlineCurrent (s : State) (e : Fin 4) (k : Nat) : Bool :=
  decide (s.now < s.thr.eng[e].epochAt + 500 * k)

/-- Which slot a dark band belongs to: the one lit now, the one being loaded, or the one after that. -/
inductive Ahead where
  | now | next | after
deriving DecidableEq, Repr

/-- How many slots after the current one. -/
def Ahead.slots : Ahead → Nat
  | .now => 0 | .next => 1 | .after => 2

/-- A slot that is to come, or is lit, delivers nothing (R141). -/
def slotLost (e : Fin 4) (a : Ahead) (s : State) : State :=
  let t := s.thr.eng[e]
  let m := slotAfter t t.slot a.slots
  if t.slot + a.slots ≤ t.s then slotUnlit e m s
  else setThrE e (fun t => { t with errNext := if t.errNext.contains m then t.errNext else t.errNext ++ [m] }) s

/-- Bands already dark in a slot. -/
def bandsDark (t : ThrEng) : Ahead → List Nat
  | .now => t.darkBands | .next => t.nextDark | .after => t.thenDark

/-- Bands `k` to 15 of a slot are blanked by command after `sent` flits of band `k`, each counted; the slot delivers
nothing (R207, R208, R141, R219, R223). Two slots ahead the command goes out with that slot's plane. -/
def blankBands (e : Fin 4) (a : Ahead) (k sent : Nat) (s : State) : State :=
  let t := s.thr.eng[e]
  let had := bandsDark t a
  let all := had ++ ((List.range 16).drop k).filter fun b => !had.contains b
  let m := slotAfter t t.slot a.slots
  let s1 := setThrE e (fun t => { t with
    bandDark := satAdd 16 t.bandDark (all.length - had.length), fifo := if a = .next then [] else t.fifo,
    darkBands := if a = .now then all else t.darkBands,
    nextDark := if a = .next then all else t.nextDark,
    thenDark := if a = .after then all else t.thenDark }) s
  slotLost e a (setSwt e (fun w =>
    let l := swtLanes w.config
    match a with
    | .now => { w with sentWas := cutBand l m k sent w.sentWas }
    | .next => { w with sent := cutBand l m k sent w.sent }
    | .after => w) s1)

/-- BAND_LOAD_DEADLINE: the transmitter's deadline for a band, of which `flits` have been sent (R223). A band sent in full
leaves the FIFO. -/
def execBandLoadDeadline (t : Time) (e : Fin 4) (band : Fin 16) (flits : Nat) (s : State) : Out :=
  let s := s.at t
  let th := s.thr.eng[e]
  let k := band.val
  let a : Ahead := if deadlineCurrent s e k then .now else .next
  let zero := if a = .now then slotZero th.read th.slot else !nextCarries s e th.slot
  let need := bandFlits ((s.eng[e].h * (k + 1) / 16 - s.eng[e].h * k / 16) * rowBytes s.eng[e].w)
  if !s.fastUp || !s.isMae e || !transmits s e || th.epochs == 0 || zero || (bandsDark th a).contains k then .next s
  else if need ≤ flits then .next (setThrE e (fun t => { t with fifo := t.fifo.filter fun x => x.1 != k }) s)
  else .next (raise evThrUnderrun (k * 2 ^ 11 + slotAfter th th.slot a.slots * 4 + e.val) (blankBands e a k flits s))

/-! ## Bad plane data (R208) -/

/-- The engine, plane and band of an address in a plane store (R189, R220, R355). -/
def planePlace (s : State) (addr : Nat) : Option (Fin 4 × Nat × Nat) :=
  let e : Fin 4 := Fin.ofNat 4 (addr / 0x40000000)
  let o := addr % 0x40000000
  let row := o % 530841600 % 4147200 / rowBytes s.eng[e].w
  if 0x100000000 ≤ addr ∨ 1061683200 ≤ o ∨ !s.isMae e ∨ s.eng[e].h ≤ row then none
  else some (e, o % 530841600 / 4147200, ((List.range 16).find? fun k => decide (row < s.eng[e].h * (k + 1) / 16)).getD 15)

/-- The slot that a read of band `k` of plane `p` in plane buffer `b` serves: the next slot's plane is fetched during the
slot before it and the one before that (R190), so it is the next slot, unless its plane is another one or the band
stands in the FIFO already. -/
def readFor (s : State) (e : Fin 4) (b p k : Nat) : Option Ahead :=
  let t := s.thr.eng[e]
  let fits (a : Ahead) : Bool := match entryAfter s e t.slot a.slots with
    | (some x, c) => !x.dark && x.plane == p && c == b
    | _ => false
  if fits .next && (look t.fifo k).isNone then some .next
  else if fits .after then some .after
  else none

/-- A band of plane data returned an error: blanked by command in the slot it was read for, and only in that slot (R208). -/
def bandErr (addr : Nat) (s : State) : State :=
  match planePlace s addr with
  | none => s
  | some (e, p, k) =>
    let t := s.thr.eng[e]
    match readFor s e (addr % 0x40000000 / 530841600) p k with
    | none => s
    | some a =>
      if !transmits s e || (bandsDark t a).contains k then s
      else raise evThrBandErr (k * 2 ^ 18 + p * 2 ^ 11 + slotAfter t t.slot a.slots * 4 + e.val) (blankBands e a k 0 s)

/-! ## Frame start -/

/-- Bands of the frame just composed whose rows are not all in the plane store: halves of 8 lines (R186, R187). -/
def unwritten (h halves : Nat) : List Nat :=
  (List.range 16).filter fun k => decide (8 * halves < h * (k + 1) / 16)

/-- What a frame start does to the slots of an engine; `composed`: the frame period that ends composed a frame. -/
def slotFrame (composed : Bool) (e : Fin 4) (s : State) : State :=
  let t := s.thr.eng[e]
  let late := if s.isMae e && composed then
      t.write.planes.flatMap fun p => ((List.range 16).filter fun k =>
        (unwritten s.eng[e].h t.halves).contains k || t.writeBad.contains (p.2.2.2, k)).map fun k => (p.2.2.2, k)
    else []
  let s1 := setThrE e (fun t => { t with
    epochs := 0, halves := 0, writeBad := [], lateBands := late, countsLit := t.counts, counts := [], focusRaised := false,
    lit := false }) s
  let s2 := engChans e (fun c => { c with lit := c.litNow, litNow := false, pulse := {} }) s1
  raiseIf (!late.isEmpty) evThrWriteLate (2 ^ e.val) s2

end Sys2Proof.Machine
end

