-- ==== Sys2Proof/Machine/Power.lean ====
section
/-! DEFINITION. What every power-state change shares: the PLLs' switching, the loss of the PCIe link (R567), the
end of an armed commit (R114) and of deferred commands (R493), entry to SAFE (R42) and the quench (R392-R396). -/

namespace Sys2Proof.Machine

/-- The records of the Hearth, the Tongs, the Compositor, the Granary, the thermal monitors, Brugo Link, the host
interfaces, self-test and security changed. -/
def setHth (f : Hth → Hth) (s : State) : State := { s with hth := f s.hth }
def setTng (f : Tng → Tng) (s : State) : State := { s with tng := f s.tng }
def setCmp (f : Cmp → Cmp) (s : State) : State := { s with cmp := f s.cmp }
def setThm (f : Thm → Thm) (s : State) : State := { s with thm := f s.thm }
def setBrg (f : Brg → Brg) (s : State) : State := { s with brg := f s.brg }
def setHst (f : Hst → Hst) (s : State) : State := { s with hst := f s.hst }
def setSec (f : Sec → Sec) (s : State) : State := { s with sec := f s.sec }
/-- One PLL changed: 0 CORE, 1 MEM, 2 SERDES, 3 HOST (R346). -/
def setPll (p : Fin 4) (f : Pll → Pll) (s : State) : State := setTng (fun x => { x with pll := updWith x.pll p f }) s

/-! ## PLLs switched by a power state (R45, R346, R392) -/

/-- A PLL is switched off: no loss of lock. -/
def pllOff (p : Fin 4) (s : State) : State :=
  setPll p (fun x => { x with locked := false, bypass := true, off := true, leaving := false }) s

/-- A PLL is switched on and locks, unless REFCLK is absent or its partition failed the start-up logic BIST. -/
def pllOn (p : Fin 4) (s : State) : State :=
  setPll p (fun x =>
    let ok := s.tng.refclk && !x.lbist
    { x with locked := ok, bypass := !ok, off := false, lost := !ok, leaving := false }) s

/-- `f` on all four PLLs. -/
def allPlls (f : Fin 4 → State → State) (s : State) : State := f 3 (f 2 (f 1 (f 0 s)))

/-- A Brugo port is in use (R392, R394). -/
def brgInUse (s : State) : Bool := wb s.brg.config 0 || wb s.brg.config 1

/-- The PLLs that a quench switches off. -/
def quenchPlls (s : State) : State :=
  let s1 := pllOff 1 (pllOff 0 s)
  if brgInUse s then s1 else pllOff 2 s1

/-! ## The PCIe link goes down (R34, R567) -/

/-- The mailbox returns to its reset values; unread replies are lost. -/
def pcieDown (s : State) : State :=
  setHst (fun h => { h with
    linkUp := false, linkGen := 0, linkWidth := 0, linkDue := none, mbxBusy := 0, mbxDone := 0, mbxErr := 0,
    mbxReq := Vector.replicate 4 [], mbxReply := Vector.replicate 4 [] }) s

/-! ## The mirror's main link (R124) -/

/-- The mirror transmitter is trained again with ENABLE = 1 (R124). -/
def mirrorTrain (ok : Bool) (s : State) : State :=
  if wb s.ing.dptxConfig 0 then
    raiseIf (!ok) evIngDptxLinkFail 0 { s with ing := { s.ing with dptxTrained := ok } }
  else s

/-- The mirror's main link, when it is not trained, is trained as soon as it may run: READY, LIT or SAFE with the HOST
PLL on its clock. How the training ends the row does not carry: a free value (R124, log 11). -/
def mirrorEnable (s : State) : State :=
  if (s.hth.pwr = .ready ∨ s.hth.pwr = .lit ∨ s.hth.pwr = .safe) ∧ !s.ing.dptxTrained
      ∧ s.tng.pll[(3 : Fin 4)].locked ∧ !s.tng.pll[(3 : Fin 4)].bypass then
    mirrorTrain (s.fresh.1 % 2 == 0) s.fresh.2
  else s

/-! ## Commits and deferred commands -/

/-- A snapshot is discarded: ABORTED and CMP_COMMIT_ABORTED with SEQ (R114). -/
def abortCommit (s : State) : State :=
  match s.cmp.armed with
  | none => s
  | some _ => raise evCmpCommitAborted s.cmp.seq
      (setCmp (fun c => { c with armed := none, phase := .idle, result := 3 }) s)

/-- Deferred commands end with WRONG_STATE (R493). -/
def dropDeferred (s : State) : State :=
  (s.hst.deferred).foldl (fun a r => cmdDone (reqKey r) .wrongState a)
    (setHst (fun h => { h with deferred := [] }) s)

/-! ## The end of a transition (R35, R41, R546) -/

/-- HTH_STATE_CHANGE. -/
def stateChange (cause : Nat) (prev new : PState) (s : State) : State :=
  raise evHthStateChange (cause * 256 + prev.code * 16 + new.code) s

/-- A state is entered as the end of a transition that began in `start`. -/
def enterState (cause : Nat) (start new : PState) (s : State) : State :=
  stateChange cause start new (setHth (fun h => { h with
    pwr := new, prev := start, cause := cause, trans := none,
    runSince := if new = .ready ∨ new = .lit then (if h.pwr = .ready ∨ h.pwr = .lit then h.runSince else some s.now)
      else none }) s)

/-- The state before a transition that is cut short: OFF for the cold start, whose end is the first transition out of
power-on or PORST_N (R35), else the state now held. -/
def priorState (s : State) : PState :=
  match s.hth.trans with
  | some t => if t.start = .off then .off else s.hth.pwr
  | none => s.hth.pwr

/-- A running transition is abandoned: its STATE_REQUEST completes with a status (R42). -/
def abandonTrans (st : Status) (s : State) : State :=
  match s.hth.trans with
  | some t =>
    let s1 := setHth (fun h => { h with trans := none }) s
    match t.cmd with
    | some k => cmdDone k st s1
    | none => s1
  | none => s

/-- Every engine goes dark. -/
def allDark (s : State) : State := forEng engineDark s

/-- A transition to QUENCH runs. -/
def quenchRuns (s : State) : Bool :=
  match s.hth.trans with
  | some t => t.stepTo == .quench
  | none => false

/-! ## SAFE (R42, R46, R232, R244) -/

/-- The opcodes of the status, event and recovery set (R33). -/
def recoverySet : List Nat :=
  [0x00, 0x01, 0x02, 0x03, 0x04, 0x05, 0x06, 0x08, 0x09, 0x19, 0x29, 0x40, 0x41, 0x58, 0x59, 0x68, 0x70]

/-- SAFE entered from STANDBY: all that is able to run starts, the HBM becomes active, and the link is available 40 ms
later (table of states, R34; log 25). -/
def safeFromStandby (s : State) : State :=
  setHst (fun h => { h with linkDue := some (s.now + 40 * ms) })
    (setGrn (fun g => { g with selfRefresh := false }) (allPlls pllOn s))

/-- SAFE is entered with a cause: running transitions are abandoned (R42), PENDING commands outside the recovery set
end with WRONG_STATE (R69). A quench that runs or holds the device continues there (R395). In SAFE it abandons a
transition that was leaving. -/
def enterSafe (cause : Nat) (s : State) : State :=
  if s.hth.pwr = .off then s
  else if s.hth.pwr = .safe then
    if s.hth.trans.isNone then s
    else judgeHolder (forEng scanOff (setHth (fun h => { h with cause := cause }) (abandonTrans .hwFault s)))
  else
    let hot : Bool := s.hth.pwr == .quench || s.thm.quenching || quenchRuns s
    let s1 := dropDeferred (abortCommit (abandonTrans .hwFault s))
    let s2 := doneAll (fun k => !k.fwd && !recoverySet.contains k.opcode) .wrongState s1
    let s3 := forEng scanOff (allDark s2)
    let s4 := setThm (fun x => { x with quenching := false, safeQuench := x.safeQuench || hot }) s3
    let s5 := if hot ∧ s.hth.pwr ≠ .quench then setGrn (fun g => { g with selfRefresh := true }) (quenchPlls s4)
      else if s.hth.pwr = .standby then safeFromStandby s4 else s4
    judgeHolder (mirrorEnable (enterState cause (priorState s) .safe (setHth (fun h => { h with held := none }) s5)))

/-- ESTOP_N goes low (R46, R285). -/
def execEstopAssert (t : Time) (s : State) : Out :=
  let s := s.at t
  let s1 := setHth (fun h => { h with estopLow := true }) s
  if s.hth.boot = .hold then .next s1
  else
    let s2 := forEng (fun e a => darkCause e 0 a) s1
    .next (if s.hth.pwr = .lit then enterSafe 0x20 s2 else s2)

/-! ## Quench (R392-R396) -/

/-- Step 4: dark, so that the lanes send IDLE flits with BLANK = 1, excitation and the Servo Engine stopped. -/
def quenchDark (s : State) : State :=
  judgeHolder (servoStop (forEng scanOff (setThm (fun x => { x with q := 0 }) (allDark s))))

/-- The quench that arises in SAFE: steps 5 and 6 run, the state stays (R395). A transition that was leaving SAFE is
abandoned with what it had started (R42). -/
def quenchInSafe (s : State) : State :=
  let s1 := if s.hth.trans.isSome then servoStop (forEng linkOff (forEng scanOff (abandonTrans .thermalInhibit s))) else s
  quenchPlls (setGrn (fun g => { g with selfRefresh := true }) (setThm (fun x => { x with safeQuench := true }) s1))

/-- No quench arises: in OFF, in SLEEP but for a wake whose fast domains are up (R42, R395; log 52), while a quench in
SAFE holds the domains down, and in QUENCH. -/
def quenchIgnored (s : State) : Bool :=
  s.hth.pwr == .off || (s.hth.pwr == .sleep && !(s.hth.trans.isSome && s.fastUp)) || s.thm.safeQuench
    || (s.hth.pwr == .quench && s.hth.trans.isNone)

/-- Quenches declared within 600 s, this one included (R396). -/
def recentQuenches (s : State) : List Time := s.now :: s.thm.quenches.filter fun a => decide (s.now < a + 600 * sec)

/-- A quench is declared: on the immediate path the lasers are dark at once. THM_QUENCH is raised by the declarations
of R387 and R393; a TRIP raises THM_TRIP alone (R388). One that is declared while recovery runs
holds the device in QUENCH (R42). -/
def declareQuench (immediate : Bool) (cause : Nat) (s : State) : State :=
  if quenchIgnored s then s
  else if s.hth.pwr = .quench then
    let times := recentQuenches s
    let s1 := setThm (fun x => { x with quenches := times, repeated := decide (3 ≤ times.length), q := 0 })
      (setHth (fun h => { h with trans := none, cause := cause }) s)
    raiseIf (decide (3 ≤ times.length)) evThmQuenchRepeat 0 (raiseIf (cause != 0x11) evThmQuench (b2n immediate) s1)
  else if quenchRuns s then
    if immediate then quenchDark (setHth (fun h =>
        { h with trans := h.trans.map fun (t : Trans) => { t with cause := cause } })
      (setThm (fun x => { x with slopeStop := true }) s))
    else s
  else
    let times := recentQuenches s
    let third := decide (3 ≤ times.length)
    let s1 := setThm (fun x => { x with quenches := times, repeated := third, slopeStop := immediate }) s
    let s2 := raiseIf third evThmQuenchRepeat 0 (raiseIf (cause != 0x11) evThmQuench (b2n immediate) s1)
    let s3 := abortCommit s2
    if s.hth.pwr = .safe then quenchInSafe s3
    else
      let s4 := dropDeferred (abandonTrans .thermalInhibit s3)
      let s5 := setHth (fun h => { h with
        beforeQuench := h.pwr,
        trans := some { start := priorState s, target := .quench, leaving := h.pwr, stepTo := .quench, cause := cause,
                        cmd := none } }) s4
      let s6 := judgeHolder (setThm (fun x => { x with quenching := s.hth.pwr == .lit }) s5)
      if immediate ∨ s.hth.pwr ≠ .lit then quenchDark s6 else s6

/-- The quench runs its course: composition stops, self-refresh, PLLs off, links down; QUENCH (steps 5 and 6). -/
def quenchReached (t : Trans) (s : State) : State :=
  let s1 := forEng linkOff (servoStop (forEng scanOff (allDark s)))
  let s2 := quenchPlls (setGrn (fun g => { g with selfRefresh := true }) s1)
  judgeHolder (setThm (fun x => { x with quenching := false })
    (enterState t.cause t.start .quench s2))

/-- QUENCH_RAMP_STEP: q falls by 1/16 each millisecond (R392); at 0 the lasers are dark. -/
def execQuenchRampStep (t : Time) (s : State) : Out :=
  let s := s.at t
  if s.thm.quenching ∧ s.thm.q ≠ 0 then
    let s1 := setThm (fun x => { x with q := x.q - 1 }) s
    .next (if s1.thm.q = 0 then quenchDark s1 else s1)
  else .next s

end Sys2Proof.Machine
end

