-- ==== Sys2Proof/Machine/Tongs.lean ====
section
/-! DEFINITION. The Tongs and the Bellows: the aligners (R334-R341), frame periods and ramps (R331, R344, R345),
the multiplying PLLs (R346-R349), and the timing profile of one device (R515). -/

namespace Sys2Proof.Machine

/-! ## Aligners -/

def aligner (a : Aligner) (s : State) : AlignerSt := match a with | .clock => s.tng.clk | .frame => s.tng.frm
def setAligner (a : Aligner) (f : AlignerSt → AlignerSt) (s : State) : State :=
  match a with
  | .clock => setTng (fun x => { x with clk := f x.clk }) s
  | .frame => setTng (fun x => { x with frm := f x.frm }) s

/-- Codes of the DETAIL fields: 0 clock, 1 frame (R546). -/
def alNo : Aligner → Nat | .clock => 0 | .frame => 1

/-- The nominal frame period in taps, nearest (R331). -/
def ratePeriod (f : Nat) : Nat := rdiv (1000 * sec) f

/-- The period of the frame reference: on BRUGO the one the last TIME_MARK announced (R443), else 1/f. -/
def markPeriod (s : State) : Option Nat :=
  if wfl s.tng.config 30 2 = 2 then s.brg.mark.map fun m => m.2.1 else none
def nominal (s : State) : Nat := (markPeriod s).getD (ratePeriod s.tng.rate)

/-- The reference period in taps: 40 of REFCLK, the frame reference's. -/
def refPeriod (a : Aligner) (s : State) : Nat := match a with | .clock => 40 | .frame => nominal s

/-- `d` wrapped into (-T/2, T/2]. -/
def wrapPhase (d : Int) (t : Nat) : Int :=
  let m := d % (t : Int)
  if t < 2 * m then m - t else m

/-- REF_OFS in taps (R350), ignored on BRUGO (R443). -/
def refOfs (s : State) : Nat := if wfl s.tng.config 30 2 = 2 then 0 else 4 * wfl s.tng.config 0 24

/-- The phase error of an edge: the frame start that should follow it by REF_OFS against the running epoch, or
the REFCLK edge against the count (R339). -/
def phaseOf (a : Aligner) (s : State) : Int :=
  match a with
  | .clock => wrapPhase ((s.now : Int) - ((s.tng.clk.edge.getD s.now : Nat) : Int)) 40
  | .frame => wrapPhase ((s.now + refOfs s : Nat) - (s.tng.frameAt : Int)) (nominal s)

/-- A phase error is joined: slewed up to T/16, else stepped at the next frame start (R340, R341). -/
def joinPhase (a : Aligner) (d : Int) (st : AlSt) (s : State) : State :=
  let t := refPeriod a s
  let s1 := match a with
    | .frame => setTng (fun x => { x with phaseErr := d }) s
    | .clock => s
  if 16 * d.natAbs ≤ t then
    setAligner a (fun x => { x with slew := d, step := none, st := if st = .locked ∧ d ≠ 0 then .slewing else st }) s1
  else setAligner a (fun x => { x with slew := 0, step := some d, st := st }) s1

/-- An edge fits the window of a reference period around its prediction, in 1/n of the period. -/
def edgeFits (t d n : Nat) : Bool := decide (((d : Int) - t).natAbs * n ≤ t)

/-- An ignored edge (R334). -/
def edgeSpurious (a : Aligner) (s : State) : State :=
  raiseIf (!(aligner a s).spuriousRaised) evTngRefSpurious (alNo a) (setAligner a (fun x => { x with spuriousRaised := true }) s)

/-- An edge that acquisition or RETURNING cannot use starts its count again. -/
def restartRun (a : Aligner) (s : State) : State := setAligner a (fun x => { x with run := 0, edge := some s.now }) s

/-- An accepted edge: lock after 64 periods in a row (R335, R339), tracking while LOCKED (R340). -/
def edgeAccept (a : Aligner) (s : State) : State :=
  let x := aligner a s
  let d := phaseOf a s
  let s1 := setAligner a (fun x => { x with edge := some s.now, run := x.run + 1 }) s
  match x.st with
  | .acquiring => if 64 ≤ x.run + 1 then raise evTngLocked (alNo a) (joinPhase a d .locked s1) else s1
  | .returning => if 64 ≤ x.run + 1 then setAligner a (fun x => { x with st := if x.slew = 0 then .locked else .slewing }) s1
      else s1
  | .locked => match a with
    | .frame => setTng (fun y => { y with phaseErr := d }) (setAligner a (fun x => { x with slew := d }) s1)
    | .clock => setAligner a (fun x => { x with slew := d }) s1
  | _ => s1

/-- An edge of a lost reference: the fourth in a row whose intervals fit within 1/64 is its return (R339, R349). -/
def edgeReturn (a : Aligner) (s : State) : State :=
  let x := aligner a s
  let fits := match x.lastAny with
    | some p => edgeFits (refPeriod a s) (s.now - p) 64
    | none => false
  let n := if fits then x.fit + 1 else 1
  let s1 := setAligner a (fun x => { x with lastAny := some s.now, fit := n }) s
  if n < 4 then s1
  else
    let d := phaseOf a s
    let s2 := joinPhase a d .returning (setAligner a (fun x => { x with
      edge := some s.now, run := 0, fit := 0, lostAt := none, long := false }) s1)
    let s3 := match a with
      | .clock => setTng (fun y => { y with refclk := true }) s2
      | .frame => s2
    raise evTngRefReturn (unsext 24 (rdivI d 4)) s3

/-- A reference edge arrives at an aligner (R334-R341). -/
def refEdge (a : Aligner) (s : State) : State :=
  let x := aligner a s
  let t := refPeriod a s
  match x.st with
  | .internal => s
  | .coasting => edgeReturn a s
  | st =>
    match x.edge with
    | none => setAligner a (fun x => { x with edge := some s.now, run := 0 }) s
    | some p =>
      if !edgeFits t (s.now - p) 16 then
        if st = .locked ∨ st = .slewing then edgeSpurious a s else restartRun a (edgeSpurious a s)
      else if a = .frame ∧ !edgeFits t (s.now - p) 100 then
        let s1 := raise evTngRefRange 0 s
        if st = .locked ∨ st = .slewing then s1 else restartRun a s1
      else edgeAccept a s

/-- The cold start runs: it is completed on the internal frame epoch (R50). -/
def coldStarts (s : State) : Bool :=
  match s.hth.trans with
  | some t => t.start == .off
  | none => false

/-- REFERENCE_EDGE: REFCLK, or FRAME_REF_IN while it is selected and the cold start has ended (R50, R350). -/
def execReferenceEdge (t : Time) (al : Aligner) (s : State) : Out :=
  let s := s.at t
  if !s.fastUp ∨ (al = .frame ∧ (wfl s.tng.config 30 2 ≠ 1 ∨ coldStarts s)) then .next s else .next (refEdge al s)

/-- A PLL's lock is lost: what R346 and R347 do to lasers, lanes, loops and the link. -/
def pllLanes (p : Fin 4) (e : Fin 4) (s : State) : State :=
  let hit := s.used e && (decide (p.val < 2) || s.isMae e)
  if hit then darkCause e 4 s else s

/-- The Servo loops of the CORE domain enter HOLD. -/
def loopsHoldAll (s : State) : State :=
  setSrv (fun x => { x with loops := vmap (fun l =>
    if l.mode = .auto ∨ l.mode = .manual then { l with mode := .hold, held := l.mode, samples := [] } else l) x.loops }) s

/-- The attempts are used up: TNG_PLL_FAIL and SAFE with cause 0x21 (R347, R348). -/
def pllFailed (p : Fin 4) (s : State) : State := enterSafe 0x21 (raise evTngPllFail (2 ^ p.val) s)

/-- A loss of lock (R347, R348). -/
def pllLoss (p : Fin 4) (s : State) : State :=
  let x := s.tng.pll[p]
  if x.off ∨ !x.locked then s
  else
    let goesOn := match x.relockAt with
      | some a => decide (s.now < a + 10 * sec)
      | none => false
    let c := if goesOn then x.attempts else 0
    let s1 := setPll p (fun x => { x with
      locked := false, bypass := true, lost := true, leaving := false, attempts := c }) s
    let s2 := forEng (pllLanes p) (raise evTngPllUnlock (2 ^ p.val) s1)
    let s3 := if p = 0 then loopsHoldAll s2 else s2
    let s4 := if p.val < 2 then setHth (fun h => { h with composed := 0 }) s3 else s3
    let s5 := if p = 3 then { pcieDown s4 with ing := { s4.ing with dptxTrained := false } } else s4
    if 3 ≤ c then pllFailed p s5 else s5

/-- PLL_LOSS_OF_LOCK. -/
def execPllLossOfLock (t : Time) (pll : Fin 4) (s : State) : Out :=
  let s := s.at t
  if s.hth.boot = .loading ∨ s.hth.boot = .on then .next (pllLoss pll s) else .next s

/-- PLL_RELOCK_ATTEMPT_EXPIRY: an attempt ended without lock; the third is the last (R347). -/
def execPllRelockAttemptExpiry (t : Time) (pll : Fin 4) (s : State) : Out :=
  let s := s.at t
  let x := s.tng.pll[pll]
  if !x.lost ∨ x.off ∨ x.lbist ∨ 3 ≤ x.attempts then .next s
  else
    let s1 := setPll pll (fun x => { x with attempts := x.attempts + 1 }) s
    .next (if 3 ≤ x.attempts + 1 then pllFailed pll s1 else s1)

/-- The PLL has locked again: its domain leaves bypass at the next frame start (R348). -/
def pllLocks (p : Fin 4) (s : State) : State :=
  setPll p (fun x => { x with locked := true, lost := false, leaving := true, relockAt := some s.now }) s

/-- PLL_RELOCK: the attempt that locks counts as used. -/
def execPllRelock (t : Time) (pll : Fin 4) (dptxTrained : Bool) (s : State) : Out :=
  let s := s.at t
  let x := s.tng.pll[pll]
  if !x.lost ∨ x.off ∨ x.lbist ∨ !s.tng.refclk then .next s
  else
    let s1 := pllLocks pll (setPll pll (fun x => { x with attempts := min 3 (x.attempts + 1) }) s)
    .next (if pll = 3 then mirrorTrain dptxTrained (setHst (fun h => { h with linkDue := some s.now }) s1) else s1)

/-- SAFE_PLL_ATTEMPT: one attempt for each unlocked PLL every 100 ms (R348, R349); whether the mirror trains is open
(log 11). -/
def execSafePllAttempt (t : Time) (locked : BitVec 4) (s : State) : Out :=
  let s := s.at t
  let one (p : Fin 4) (s : State) : State :=
    let x := s.tng.pll[p]
    if x.lost && !x.off && !x.lbist && s.tng.refclk && locked.toNat.testBit p.val then
      let s1 := pllLocks p s
      if p = 3 then mirrorTrain (s1.fresh.1 % 2 == 0) (setHst (fun h => { h with linkDue := some s.now }) s1.fresh.2)
      else s1
    else s
  if s.hth.pwr = .safe then .next (allPlls one s) else .next s

/-- A PLL that darkens the engine is not back on its clock. -/
def pllDarkens (s : State) (e : Fin 4) : Bool :=
  (List.finRange 4).any fun p => s.tng.pll[p].bypass && (decide (p.val < 2) || s.isMae e)

/-- A loop that the loss of CORE put into HOLD enters the mode it held, but for those a trip or a stopped scanner
holds (R348, R326, R317). -/
def loopReturns (s : State) (l : Loop) : Loop :=
  let tripped := privileged l.ty && (s.srv.trip[l.eng]).isSome
  let still := (l.ty == 2 || l.ty == 3) && !s.scn[l.eng].excited
  if l.mode = .hold ∧ (l.held = .auto ∨ l.held = .manual) ∧ !tripped ∧ !still then
    { l with mode := l.held, held := .off, entering := true }
  else l

/-- At a frame start a relocked domain leaves bypass: TNG_PLL_RELOCK, held loops return, lanes run, the dark cause
of an engine ends with the last of its PLLs (R348). -/
def pllFrame (s : State) : State :=
  let one (p : Fin 4) (s : State) : State :=
    if !s.tng.pll[p].leaving then s
    else
      let s1 := raise evTngPllRelock (2 ^ p.val) (setPll p (fun x => { x with bypass := false, leaving := false }) s)
      if p = 0 then
        setSrv (fun x => { x with loops := vmap (loopReturns s) x.loops }) s1
      else s1
  let s1 := allPlls one s
  forEng (fun e a => if a.frg.eng[e].cause.toNat.testBit 4 && !pllDarkens a e then releaseCause e 4 a else a) s1

/-- An aligner that has lost its reference coasts (R337). -/
def loseRef (al : Aligner) (s : State) : State :=
  raise evTngRefLost (alNo al) (setAligner al (fun x => { x with
    st := .coasting, lostAt := some s.now, run := 0, fit := 0, lastAny := none, slew := 0, step := none }) s)

/-- The aligner tracks a reference that it can lose. -/
def hasRef (x : AlignerSt) : Bool := x.st == .locked || x.st == .slewing || x.st == .returning

/-- REFERENCE_LOSS: no accepted edge within 1.5 periods: coasting (R337); losing REFCLK unlocks all four PLLs
(R349). -/
def execReferenceLoss (t : Time) (al : Aligner) (s : State) : Out :=
  let s := s.at t
  let x := aligner al s
  let due := match x.edge with
    | some p => decide (3 * refPeriod al s ≤ 2 * (s.now - p))
    | none => true
  if s.fastUp && due && hasRef x then
    let s1 := loseRef al s
    match al with
    | .clock => .next (allPlls pllLoss (setTng (fun y => { y with refclk := false }) s1))
    | .frame => .next s1
  else .next s

/-- HOLDOVER_LONG_EXPIRY (R338). -/
def execHoldoverLongExpiry (t : Time) (al : Aligner) (s : State) : Out :=
  let s := s.at t
  let x := aligner al s
  match x.lostAt with
  | some a => if x.st = .coasting ∧ a + sec ≤ s.now ∧ !x.long then
      .next (raise evTngHoldoverLong (alNo al) (setAligner al (fun x => { x with long := true }) s)) else .next s
  | none => .next s

/-! ## Frame periods (R331, R340, R341, R344) -/

/-- The share of a phase that one frame takes: at most T/256. -/
def slewShare (d : Int) (t : Nat) : Int := clampI (-((t / 256 : Nat) : Int)) ((t / 256 : Nat) : Int) d

/-- The clock aligner at a frame start: a step moves the timebase by at most 5 ns; its slew ends within the frame. -/
def clockFrame (s : State) : State :=
  let s1 := setAligner .clock (fun x => { x with
    spuriousRaised := false, slew := 0, st := if x.st = .slewing then .locked else x.st }) s
  match s1.tng.clk.step with
  | some d => raise evTngPhaseStep (unsext 24 (rdivI d 4)) (setAligner .clock (fun x => { x with step := none }) s1)
  | none => s1

/-- The frame aligner at a frame start: what its step or slew adds to the period that begins (R340, R341). -/
def alignFrame (t : Nat) (s : State) : State × Int :=
  let x := s.tng.frm
  let s0 := setAligner .frame (fun x => { x with spuriousRaised := false }) s
  match x.step with
  | some d =>
    (raise evTngPhaseStep (unsext 24 (rdivI d 4)) (setAligner .frame (fun x => { x with step := none, slew := 0 }) s0),
      if 0 < d then d else t + d)
  | none =>
    let k := slewShare x.slew t
    let left := x.slew - k
    (setAligner .frame (fun x => { x with
      slew := left, st := if x.st = .slewing ∧ left = 0 then .locked else x.st }) s0, k)

/-- The period of ramp frame j in taps (R344). -/
def rampPeriod (b : Bellows) (j : Nat) : Nat :=
  let t1 : Int := (1000 * sec : Nat)
  let num (f : Nat) : Int := t1 / f
  if j = b.n then ratePeriod b.f2
  else if b.profile = 0 then
    (rdivI ((1000 * sec * (b.f2 * (b.n - j) + b.f1 * j) : Nat) : Int) (b.f1 * b.f2 * b.n)).toNat
  else (num b.f1 + rdivI ((num b.f2 - num b.f1) * (2 ^ 32 - Config.cosPi j b.n)) (2 ^ 33)).toNat

/-- FRAME_SYNC_OUT rises with the frame start while SYNC_OUT_EN is 1 outside SLEEP and OFF (R333). -/
def syncFrame (s : State) : State :=
  let on := wb s.tng.config 26 && s.hth.pwr != .sleep && s.hth.pwr != .off
  setTng (fun x => { x with syncOut := if on then some s.now else none }) s

/-- The level of FRAME_SYNC_OUT: high for 10 us from its rise (R333). -/
def syncHigh (s : State) : Bool :=
  match s.tng.syncOut with
  | some a => decide (s.now < a + 10 * us) && wb s.tng.config 26 && s.hth.pwr != .sleep && s.hth.pwr != .off
  | none => false

/-- The ramp begins at this frame start: 200 us after acceptance, or at its barrier's apply frame (R344, R446). -/
def rampBegins (s : State) (b : Bellows) : Bool :=
  match b.applyAt with
  | some f => decide (f ≤ s.brg.frame)
  | none => decide (b.accepted + 200 * us ≤ s.now)

/-- The frame aligner, the Bellows and the period of the frame that begins now (R331, R344). -/
def periodFrame (s : State) : State :=
  let fin (p0 : Nat) (s : State) : State :=
    let p := (markPeriod s).getD p0
    let a := alignFrame p s
    setTng (fun x => { x with framePeriod := (p + a.2).toNat, frameAt := s.now }) a.1
  match s.tng.bellows with
  | some b =>
    if b.j = 0 ∧ !rampBegins s b then fin (ratePeriod s.tng.rate) s
    else
      let j := b.j + 1
      if b.n ≤ j then
        raise evTngRampDone 0 (fin (ratePeriod b.f2) (setTng (fun x => { x with bellows := none, rate := b.f2 }) s))
      else fin (rampPeriod b j) (setTng (fun x => { x with bellows := some { b with j := j } }) s)
  | none => fin (ratePeriod s.tng.rate) s

/-- The frame rate for which the budget of the next frame is reassessed: the larger rate through a ramp, the new
one when the next frame is the first at it (R204). -/
def nextRate (s : State) : Nat :=
  match s.tng.bellows with
  | some b =>
    let runs : Bool := decide (0 < b.j) || match b.applyAt with
      | some f => decide (f ≤ s.brg.frame + 1)
      | none => decide (b.accepted + 200 * us ≤ s.tng.frameAt + s.tng.framePeriod)
    if runs ∧ b.n ≤ b.j + 1 then b.f2 else max b.f1 b.f2
  | none => s.tng.rate

/-! ## TIMING_PROFILE on one device (R515) -/

/-- The compositor limit of R25 in pixel-mHz. -/
def pixelLimit : Nat := 92160000000 * 1000

/-- A valid zone reaches beyond a size (R130). -/
def zoneOutside (s : State) (e : Fin 4) (w h : Nat) : Bool :=
  (engZones s e).any fun z => decide (w < z.x + z.w) || decide (h < z.y + z.h)

/-- The checks of ENGINE in the order R515 lists them. -/
def engineRefused (s : State) (e : Fin 4) (c : EngCfg) : Option Status :=
  let s' : State := { s with eng := upd s.eng e c }
  let w := s.scn[e]
  let sizeOk := match c.kind with
    | .unused => true
    | .mae => decide (1920 ≤ c.w) && decide (c.w ≤ 7680) && decide (1080 ≤ c.h) && decide (c.h ≤ 4320)
    | .lse => decide (320 ≤ c.w) && decide (c.w ≤ 4096) && decide (240 ≤ c.h) && decide (c.h ≤ 2160)
  if !sizeOk then some .badParam
  else if c.kind = .lse ∧ !(engineFits s' e (budgetRate s) && columnsLong (liveVct w) w.fMax) then some .resourceExceeded
  else if c.kind ≠ .unused ∧ zoneOutside s e c.w c.h then some .badParam
  else if c.kind = .mae ∧ !lanesSuffice c.w c.h (swtLanes s.swt[e].config) then some .resourceExceeded
  else if pixelLimit < pixelDemand s' s.clw.depths (budgetRate s) then some .resourceExceeded
  else if c.kind = .lse ∧ !vertLoopsOk s e w.hrange w.vert c.h then some .resourceExceeded
  else none

/-- An engine takes a kind and a size: its warp slots are judged (R170), the link of an array and the scanner start
again where they run (R233, R244). -/
def engineSet (e : Fin 4) (c : EngCfg) (s : State) : State :=
  let old := s.eng[e]
  if old = c then s
  else
    let s1 := if old.kind = .mae then linkOff e s else if old.kind = .lse ∧ c.kind ≠ .lse then scanOff e s else s
    let s2 := warpFallback e { s1 with eng := upd s1.eng e c }
    if c.kind = .mae then
      let s3 := if old.kind = .mae then s2 else sheafWorks (s2.cmp.frameCount + 1) s2.thr.eng[e].live e s2
      if linkMayStart s3 e then linkStart e s3 else s3
    else if c.kind = .lse ∧ (s2.hth.pwr = .ready ∨ s2.hth.pwr = .lit) then scanStart e s2
    else s2

/-- OP ENGINE. -/
def profileEngine (p : List Byte) (s : State) : Ans :=
  let e : Fin 4 := Fin.ofNat 4 (byteAt p 1)
  let c : EngCfg := match byteAt p 2 with
    | 0 => {}
    | 1 => { kind := .mae, w := le16 p 4, h := le16 p 6 }
    | _ => { kind := .lse, w := le16 p 4, h := le16 p 6 }
  if 4 ≤ byteAt p 1 ∨ 3 ≤ byteAt p 2 ∨ !zeroAt p 3 1 then deny .badParam s
  else match engineRefused s e c with
    | some st => deny st s
    | none => (engineSet e c s, .ok, [])

/-- Field ranges of RATE (R344, R490, R515). -/
def rateFieldsOk (p : List Byte) : Bool :=
  decide (byteAt p 1 < 2) && decide (1 ≤ le16 p 2) && decide (le16 p 2 ≤ 256) && decide (60000 ≤ le32 p 4)
    && decide (le32 p 4 ≤ 240000)

/-- A device's own check of a frame-rate change (R345); `barrier`: it comes with the manager's barrier. -/
def rateRefused (s : State) (barrier : Bool) (f2 : Nat) : Option Status :=
  let f := max s.tng.rate f2
  let sel := wfl s.tng.config 30 2
  if sel = 1 ∨ (sel = 2 ∧ !barrier) then some .wrongState
  else if s.tng.bellows.isSome then some .busy
  else if pixelLimit < pixelDemand s s.clw.depths f then some .resourceExceeded
  else if wb s.ing.dptxConfig 0 ∧ !mirrorLinkOk s f then some .resourceExceeded
  else if (List.finRange 4).any (fun e => s.isLse e && !engineFits s e f) then some .resourceExceeded
  else none

/-- A ramp is set; when it begins at the next frame start the budget is reassessed for it now (R204, R344). -/
def rateAccept (profile n f2 : Nat) (applyAt : Option Nat) (s : State) : State :=
  let b : Bellows := { f1 := s.tng.rate, f2 := f2, profile := profile, n := n, j := 0, accepted := s.now, applyAt := applyAt }
  let s1 := setTng (fun x => { x with bellows := some b }) s
  let soon := match applyAt with
    | some _ => false
    | none => decide (s.now + 200 * us ≤ s.tng.frameAt + s.tng.framePeriod)
  if soon then reassess (nextRate s1) s1 else s1

/-- OP RATE on a device without workers. -/
def profileRate (p : List Byte) (s : State) : Ans :=
  if !rateFieldsOk p then deny .badParam s
  else match rateRefused s false (le32 p 4) with
    | some st => deny st s
    | none => (rateAccept (byteAt p 1) (le16 p 2) (le32 p 4) none s, .ok, [])

/-- Entry i of a VCT payload (R250). -/
def vctEntry (p : List Byte) (i : Nat) : VctEntry :=
  { phase := sext 20 (le32 p (8 + 4 * i) / 4096), gain := le32 p (8 + 4 * i) % 4096 }

/-- OP VCT. -/
def profileVct (p : List Byte) (s : State) : Ans :=
  let e : Fin 4 := Fin.ofNat 4 (byteAt p 1)
  let first := le16 p 4
  let n := le16 p 6
  let w := s.scn[e]
  let had := if first = 0 then [] else w.part.getD []
  if 4 ≤ byteAt p 1 ∨ !zeroAt p 2 2 then deny .badParam s
  else if !s.isLse e then deny .wrongState s
  else if first = 0 ∧ w.vctDone.isSome then deny .busy s
  else if had.length ≠ first ∨ s.eng[e].w + 1 < first + n then deny .badParam s
  else
    let l := had ++ (List.range n).map (vctEntry p)
    if l.length < s.eng[e].w + 1 then (setScn e (fun w => { w with part := some l }) s, .ok, [])
    else match vctCheck l s.eng[e].w w.fMax with
      | some st => deny st s
      | none => (setScn e (fun w => { w with
          part := none, vct := upd w.vct (other w.bank) l, vctDone := some s.now }) s, .ok, [])

end Sys2Proof.Machine
end

