-- ==== Sys2Proof/Machine/Granary.lean ====
section
/-! DEFINITION. The Granary: placement (R353), the error log (R370), mapping out (R376-R379), refresh and its
windows (R361-R364), parity and ECC errors (R365-R369), training (R371-R375), MEM_TRAIN and MEM_STATUS (R521,
R522), and the BAR2 window (R357). -/

namespace Sys2Proof.Machine

/-- One pseudo-channel changed. -/
def setPc (c : Fin 64) (f : Pc → Pc) (s : State) : State := setGrn (fun g => { g with pc := updWith g.pc c f }) s

/-! ## The error log (R370) -/

/-- An entry is logged; a full log loses its oldest. -/
def logPush (addr ty port : Nat) (c : Fin 64) (syndrome : Nat) (s : State) : State :=
  let x : LogEntry := { frame := s.cmp.frameCount, addr := addr, ty := ty, port := port, pc := c.val, syndrome := syndrome }
  if s.grn.log.length < 64 then setGrn (fun g => { g with log := g.log ++ [x] }) s
  else raiseIf (!s.grn.logOver) evGrnLogOverflow 0
    (setGrn (fun g => { g with log := g.log.drop 1 ++ [x], logOver := true }) s)

/-- The address field of refresh, check and failure entries, and the port field of entries without a port. -/
def noAddr : Nat := 0xFFFFFFFF
def noPort : Nat := 0xFF

/-- The 16 bytes of an entry. -/
def logBytes (x : LogEntry) : List Byte :=
  leBytes 16 (x.frame * 2 ^ 96 + x.addr * 2 ^ 64 + x.ty * 2 ^ 56 + x.port * 2 ^ 48 + x.pc / 32 * 2 ^ 47
    + x.pc % 32 * 2 ^ 40 + x.syndrome * 2 ^ 32)

/-! ## Mapping out (R376-R379) -/

/-- Failed pseudo-channels of a stack. -/
def failedOf (s : State) (stack : Nat) : Nat :=
  ((List.finRange 64).filter fun c => s.grn.pc[c].failed && c.val / 32 == stack).length

/-- The failed pseudo-channels of a stack as a mask (GRN_PC_FAILED_S0-S1), and the suspect ones (R522). -/
def failedMask (s : State) (stack : Nat) : Nat := maskOf 32 fun i => s.grn.pc[ix 63 (32 * stack + i)].failed
def suspectMask (s : State) (stack : Nat) : Nat :=
  maskOf 32 fun i => s.grn.pc[ix 63 (32 * stack + i)].suspect.isSome

/-- The granules of a stack's failed pseudo-channels are redirected anew: their written bits are clear, all of them read
zero (R377, R378). -/
def redirect (stack : Nat) (s : State) : State :=
  setGrn (fun g => { g with
    hbm := Mem.erase g.hbm fun a => (pcOf g.stacksUsed a).val / 32 == stack && g.pc[pcOf g.stacksUsed a].failed,
    written := g.written.filter fun k => (pcOf g.stacksUsed (4096 * k)).val / 32 != stack }) s

/-- More than 4 pseudo-channels of a stack in use are failed (R379). -/
def tooManyFailed (s : State) : Bool :=
  decide (4 < failedOf s 0) || (s.grn.stacksUsed == 3 && decide (4 < failedOf s 1))

/-- A pseudo-channel fails and is mapped out; a fifth of its stack takes the device to SAFE (R376-R379). -/
def failPc (c : Fin 64) (s : State) : State :=
  let s1 := setPc c (fun p => { p with failed := true, suspect := none, retraining := false, owed := 0,
                                       ce := [], ue := [], parity := [] }) s
  let s2 := raise evGrnPcFailed c.val (logPush noAddr 5 noPort c 0 (redirect (c.val / 32) s1))
  if tooManyFailed s2 then enterSafe 0x22 (setGrn (fun g => { g with sound := false }) s2) else s2

/-! ## Suspicion, retraining and its end (R369, R372, R374, R375) -/

/-- The times of `l` within the last second, and the time now. -/
def withinSec (s : State) (l : List Time) : List Time := s.now :: l.filter fun a => decide (s.now < a + sec)

/-- The pseudo-channel becomes suspect. -/
def makeSuspect (c : Fin 64) (s : State) : State :=
  if s.grn.pc[c].suspect.isSome ∨ s.grn.pc[c].retraining then s
  else setPc c (fun p => { p with suspect := some 0 }) s

/-- Its suspicion ends and its counts start again. -/
def clearSuspect (p : Pc) : Pc := { p with suspect := none, ce := [], ue := [], parity := [] }

/-- Retraining begins. -/
def retrain (c : Fin 64) (s : State) : State := setPc c (fun p => { clearSuspect p with retraining := true }) s

/-- A data check of a suspect pseudo-channel in its refresh window (R369, R373, R375). -/
def dataCheck (c : Fin 64) (ok : Bool) (s : State) : State :=
  match s.grn.pc[c].suspect with
  | none => s
  | some n =>
    if ok then setPc c clearSuspect s
    else
      let s1 := logPush noAddr 4 noPort c 0 s
      if n + 1 < 3 then setPc c (fun p => { p with suspect := some (n + 1) }) s1
      else if s.hth.pwr = .lit then failPc c s1
      else retrain c s1

/-- A MEM_TRAIN with nothing left to wait for completes (R521). -/
def trainSettle (s : State) : State :=
  match s.grn.train with
  | some (k, [], bad) => cmdDone k (if bad then .hwFault else .ok) (setGrn (fun g => { g with train := none }) s)
  | _ => s

/-- A pseudo-channel of a running MEM_TRAIN has been retrained or failed. -/
def trainTick (c : Fin 64) (s : State) : State :=
  match s.grn.train with
  | none => s
  | some (k, l, bad) =>
    if l.contains c.val then
      trainSettle (setGrn (fun g => { g with train := some (k, l.erase c.val, bad || g.pc[c].failed) }) s)
    else s

/-- The DQ and command taps of a pseudo-channel, as training sets them (R371, R405). -/
def trainTaps (c : Fin 64) (taps : List (Nat × Int)) (s : State) : State :=
  forceTaps 2 (taps.filter fun p => p.1 / 10 == c.val) s

/-- RETRAIN_COMPLETE (R374). -/
def execRetrainComplete (t : Time) (pc : Fin 64) (found checkOk : Bool) (taps : List (Nat × Int)) (s : State) : Out :=
  let s := s.at t
  if !s.grn.pc[pc].retraining then .next s
  else
    let s1 := setPc pc (fun p => { p with retraining := false }) s
    let s2 := if found then trainTaps pc taps s1
      else if checkOk then raise evGrnTrainKept pc.val s1
      else failPc pc s1
    .next (trainTick pc s2)

/-! ## Refresh (R361-R364) -/

/-- The multiplier that the stacks' levels ask for (R361, R390). -/
def refreshTarget (s : State) : Nat :=
  if s.thm.stackFailed ≠ 0 then 2 else max s.thm.stackLevel[0] s.thm.stackLevel[1]

/-- A rise takes effect at once, a fall at the next frame start. -/
def refreshFollow (s : State) : State :=
  let t := refreshTarget s
  setGrn (fun g => { g with refresh := max g.refresh t, refreshNext := t }) s

/-- A fall takes effect (R361). -/
def refreshFrame (s : State) : State := setGrn (fun g => { g with refresh := g.refreshNext }) s

/-- Some real-time port is in PANIC. -/
def anyPanic (s : State) : Bool := (List.finRange 4).any fun e => s.grn.urg[e] == .panic

/-- One refresh is issued: the 256th since the last window is the refresh window, where data checks run (R362). -/
def issueRefresh (c : Fin 64) (ok : Bool) (s : State) : State :=
  let n := s.grn.pc[c].interval + 1
  let s1 := setPc c (fun p => { p with interval := n % 256 }) s
  if n = 256 then dataCheck c ok s1 else s1

/-- REFRESH_INTERVAL (R362, R363), where patrol scrub and the starvation times are brought up to date (logs 73, 74). -/
def execRefreshInterval (t : Time) (pc : Fin 64) (checkOk : Bool) (s : State) : Out :=
  let s := starveTick (scrubTick (s.at t))
  let owed := s.grn.pc[pc].owed
  if !pcWorks s pc then .next s
  else if anyPanic s then
    if owed < 8 then .next (setPc pc (fun p => { p with owed := p.owed + 1 }) s)
    else .next (issueRefresh pc checkOk (raise evGrnRefreshForced pc.val (logPush noAddr 6 noPort pc 0
      (setGrn (fun g => { g with forcedCount := satInc 32 g.forcedCount }) s))))
  else if owed = 0 then .next (issueRefresh pc checkOk s)
  else .next (issueRefresh pc checkOk (issueRefresh pc checkOk (setPc pc (fun p => { p with owed := p.owed - 1 }) s)))

/-! ## Error responses (R366) -/

/-- The engine of a reader or writer port. -/
def portEngine (port : Nat) : Fin 4 := Fin.ofNat 4 (port % 4)

/-- The requester of a port receives an error response. -/
def errorResponse (port addr : Nat) (write : Bool) (s : State) : State :=
  let e := portEngine port
  if port < 4 then
    if s.isLse e then (if s.frg.eng[e].lit then rowDark e s else s) else bandErr addr s
  else if port < 8 then
    match planePlace s addr with
    | some (e, p, k) => setThrE e (fun t => { t with
        writeBad := if t.writeBad.contains (p, k) then t.writeBad else t.writeBad ++ [(p, k)] }) s
    | none => s
  else if port = 8 then setGrn (fun g => { g with fetchErr := addr / 64 :: g.fetchErr }) s
  else if port = 9 then
    if write then raise evGrnBarViolation 0 s else setGrn (fun g => { g with barData := [], barStatus := 2 }) s
  else if port = 10 ∨ port = 11 then setDp (Fin.ofNat 2 port) (fun d => { d with bad := true }) s
  else s

/-- The parity replays of a command are exhausted: an error response, a log entry, a refresh counted as owed; the
second within 1 s makes the pseudo-channel suspect (R365, R369). -/
def replaysExhausted (c : Fin 64) (addr port : Nat) (write : Bool) (s : State) : State :=
  let l := withinSec s s.grn.pc[c].parity
  let refresh := port = noPort
  let s1 := setPc c (fun p => { p with parity := l, owed := if refresh then min 8 (p.owed + 1) else p.owed }) s
  let s2 := logPush (if refresh then noAddr else addr / 64) 3 port c 0 s1
  let s3 := if refresh then s2 else errorResponse port addr write s2
  if 2 ≤ l.length then makeSuspect c s3 else s3

/-- PARITY_ERROR (R365); port 0xFF is a refresh. -/
def execParityError (t : Time) (pc : Fin 64) (addr : Nat) (port : Nat) (write replaysFailed : Bool) (s : State) : Out :=
  let s := s.at t
  if !pcWorks s pc then .next s
  else
    let first := !s.grn.parityRaised
    let s1 := raiseIf first evGrnParity pc.val
      (setGrn (fun g => { g with parityCount := satInc 32 g.parityCount, parityRaised := true }) s)
    .next (if replaysFailed then replaysExhausted pc addr port write s1 else s1)

/-! ## ECC errors (R367-R369) -/

/-- A corrected error: on a demand read the scrub port writes the location back at its next service (R367), on its own read
at once. -/
def eccCorrected (c : Fin 64) (addr port syndrome : Nat) (s : State) : State :=
  let l := withinSec s s.grn.pc[c].ce
  let limit := wfl s.grn.config 24 8
  let s1 := logPush (addr / 64) 1 port c syndrome
    (setPc c (fun p => { p with ce := l }) (setGrn (fun g => { g with ceCount := satInc 32 g.ceCount }) s))
  let s2 := if port = 12 then s1 else setGrn (fun g => { g with scrubBack := (g.scrubBack ++ [addr / 64]).dedup }) s1
  if l.length = limit + 1 then makeSuspect c (raise evGrnEccCeRate c.val s2)
  else if limit < l.length then makeSuspect c s2
  else s2

/-- An uncorrectable error. -/
def eccUncorrectable (c : Fin 64) (addr port syndrome : Nat) (s : State) : State :=
  let l := withinSec s s.grn.pc[c].ue
  let s1 := logPush (addr / 64) 2 port c syndrome
    (setPc c (fun p => { p with ue := l }) (setGrn (fun g => { g with ueCount := satInc 32 g.ueCount }) s))
  let s2 := errorResponse port addr false (raise evGrnEccUe (port * 64 + c.val) s1)
  if 4 ≤ l.length then makeSuspect c s2 else s2

/-- ECC_ERROR. Patrol scrub, port 12, reads no location that it skips (R368). -/
def execEccError (t : Time) (pc : Fin 64) (addr : Nat) (port : Nat) (uncorrectable : Bool) (syndrome : Byte)
    (s : State) : Out :=
  let s := s.at t
  if !pcWorks s pc || (port == 12 && scrubSkips s addr) then .next s
  else if uncorrectable then .next (eccUncorrectable pc addr port syndrome.toNat s)
  else .next (eccCorrected pc addr port syndrome.toNat s)

/-! ## BAR2 (R357) -/

/-- The bytes from `addr` lie in the surface region (R355). -/
def inSurface (s : State) (addr n : Nat) : Bool := decide (surfaceStart ≤ addr) && decide (addr + n ≤ surfaceEnd s)

/-- BAR2_WRITE. -/
def execBar2Write (t : Time) (addr : Nat) (bytes : List Byte) (s : State) : Out :=
  let s := s.at t
  if 2 ^ 34 < addr + bytes.length then .fault (.outsideBar2 addr)
  else if !s.hst.linkUp then .next s
  else if inSurface s addr bytes.length && grnServes s then
    .next (setGrn (fun g => g.store addr bytes) s)
  else .next (raise evGrnBarViolation 0 s)

/-- BAR2_READ: data, Unsupported Request, or Completer Abort. -/
def execBar2Read (t : Time) (addr len : Nat) (s : State) : Out :=
  let s := s.at t
  if 2 ^ 34 < addr + len then .fault (.outsideBar2 addr)
  else if !s.hst.linkUp then .next s
  else if !inSurface s addr len then .next (setGrn (fun g => { g with barData := [], barStatus := 1 }) s)
  else if !grnServes s then .next (setGrn (fun g => { g with barData := [], barStatus := 2 }) s)
  else .next (setGrn (fun g => { g with barData := s.hbmReads addr len, barStatus := 0 }) s)

/-! ## MEM_TRAIN, MEM_STATUS (R521, R522) -/

/-- The check of MEM_TRAIN that needs no clocks. -/
def memTrainPre (rq : Req) (_ : State) : Option (Status × List Byte) :=
  if leNat rq.payload = 0 then some (.badParam, []) else none

/-- MEM_TRAIN: the named working pseudo-channels are retrained. -/
def memTrainRun (rq : Req) (s : State) : Ans :=
  let named := (List.finRange 64).filter fun c => bit (leNat rq.payload) c.val && pcInUse s c && !s.grn.pc[c].failed
  match memTrainPre rq s with
  | some r => (s, r.1, r.2)
  | none => (setGrn (fun g => { g with train := some (reqKey rq, named.map (·.val), false) })
      (named.foldl (fun a c => retrain c a) s), .pending, [])

def execMemTrain (t : Time) (rq : Req) (s : State) : Out :=
  .next (trainSettle (serve 0x40 (deferrable memTrainPre memTrainRun) rq (s.at t)))

/-- GRN_STATUS (R380). -/
def grnStatus (s : State) : Nat :=
  failedOf s 1 * 2 ^ 24 + failedOf s 0 * 2 ^ 16
    + (maskOf 4 fun n => s.grn.urg[ix 3 n] == .panic) * 2 ^ 12
    + (maskOf 4 fun n => s.grn.urg[ix 3 n] != .normal) * 2 ^ 8
    + s.grn.refresh * 16 + b2n s.grn.sound * 8 + s.grn.stacksUsed

/-- Free bytes, for reply bytes whose value the manual does not state (log 10, log 11). -/
def freshBytes : Nat → State → List Byte × State
  | 0, s => ([], s)
  | n + 1, s => ((BitVec.ofNat 8 s.fresh.1 :: (freshBytes n s.fresh.2).1), (freshBytes n s.fresh.2).2)

/-- MEM_STATUS: entries beyond those held are free values. -/
def memStatusBody (rq : Req) (s : State) : Ans :=
  let p := rq.payload
  let n := byteAt p 1
  let most := if portLimit rq.port = 1024 then 62 else 64
  if most < n ∨ 1 < byteAt p 2 ∨ !zeroAt p 3 1 then deny .badParam s
  else
    let held := ((s.grn.log.drop (byteAt p 0)).take n).map logBytes
    let head := leBytes 4 (grnStatus s) ++ leBytes 4 s.grn.grant ++ leBytes 4 (failedMask s 0)
      ++ leBytes 4 (failedMask s 1) ++ leBytes 4 (suspectMask s 0) ++ leBytes 4 (suspectMask s 1)
      ++ leBytes 4 s.grn.log.length
    let rest := freshBytes (16 * (n - held.length)) s
    let s1 := if byteAt p 2 = 1 then setGrn (fun g => { g with log := [], logOver := false }) rest.2 else rest.2
    (s1, .ok, head ++ held.flatten ++ rest.1)

def execMemStatus (t : Time) (rq : Req) (s : State) : Out := .next (serve 0x41 memStatusBody rq (s.at t))

end Sys2Proof.Machine
end

