-- ==== Sys2Proof/Machine/Thermal.lean ====
section
/-! DEFINITION. Temperature and process health: sensors, suspicion and replacement (R382-R386), junction levels and
their dwells (R387-R390), throttling (R391), the prediction of R393 and the hardware TRIP (R388), process monitors
(R400), and THERMAL_POLICY (R523). Temperatures are in 1/16 degree C. -/

namespace Sys2Proof.Machine

/-- The die, stack and NTC sensors run: the fast domains are powered (R382). -/
def sensorsRun (s : State) : Bool := s.hth.boot == .loading || s.hth.boot == .on

/-- 250 ms, the dwell of R384, R387 and R390. -/
def dwell : Nat := 250 * ms

/-- A dwell that began at `a` is complete. -/
def dwellDone (s : State) (a : Option Time) : Bool :=
  match a with
  | some x => decide (x + dwell ≤ s.now)
  | none => false

/-- A condition that holds keeps the time since when it has held. -/
def since (s : State) (c : Bool) (a : Option Time) : Option Time := if c then some (a.getD s.now) else none

/-! ## Die sensors (R383-R385) -/

/-- The neighbours of a die sensor in the grid of 8 columns and 5 rows (R384). -/
def dieNeighbours (i : Fin 40) : List (Fin 40) :=
  (List.finRange 40).filter fun j => j != i && decide (((i.val / 8 : Nat) : Int) - (j.val / 8 : Nat) ≤ 1)
    && decide (((j.val / 8 : Nat) : Int) - (i.val / 8 : Nat) ≤ 1) && decide (((i.val % 8 : Nat) : Int) - (j.val % 8 : Nat) ≤ 1)
    && decide (((j.val % 8 : Nat) : Int) - (i.val % 8 : Nat) ≤ 1)

def dieFailed (s : State) (i : Fin 40) : Bool := s.thm.dieFailed.toNat.testBit i.val
/-- A die sensor is working: neither suspect nor failed. -/
def dieWorks (s : State) (i : Fin 40) : Bool := !dieFailed s i && (s.thm.suspect[i]).isNone

/-- The largest of a list of integers, none of an empty one. -/
def maxI? : List Int → Option Int
  | [] => none
  | x :: l => some (l.foldl max x)

/-- The condition of R384 on the readings. -/
def looksSuspect (s : State) (i : Fin 40) : Bool :=
  let l := ((dieNeighbours i).filter fun j => !dieFailed s j).map fun j => s.thm.die[j]
  !dieFailed s i && decide (3 ≤ l.length) && l.all (fun a => l.all fun b => decide (a - b ≤ 96))
    && l.all fun a => decide (128 < (a - s.thm.die[i]).natAbs)

/-- The replacement value of a suspect or failed sensor (R384). -/
def replacement (s : State) (i : Fin 40) : Int :=
  match maxI? (((dieNeighbours i).filter (dieWorks s)).map fun j => s.thm.die[j]) with
  | some v => v + 64
  | none => match maxI? (((List.finRange 40).filter (dieWorks s)).map fun j => s.thm.die[j]) with
    | some v => v + 64
    | none => 2240

/-- The contribution of a sensor to Tj (R385). -/
def contribution (s : State) (i : Fin 40) : Int :=
  if dieWorks s i then s.thm.die[i]
  else if dieFailed s i then replacement s i
  else max s.thm.die[i] (replacement s i)

/-- A die sensor fails: THM_SENSOR_FAILED; the hold of R389 begins when it set Tj as it became suspect. -/
def dieFail (i : Fin 40) (s : State) : State :=
  raise evThmSensorFailed i.val (setThm (fun x => { x with
    dieFailed := x.dieFailed ||| BitVec.ofNat 40 (2 ^ i.val), suspect := upd x.suspect i none,
    tripRun := upd x.tripRun i 0,
    holdDue := if x.holdSensor = some i.val then some (s.now + sec) else x.holdDue,
    holdSensor := if x.holdSensor = some i.val then none else x.holdSensor }) s)

/-- Readings outside -70 to +175 degrees C fail their sensors at once (R383). -/
def dieRange (s : State) : State :=
  (List.finRange 40).foldl (fun a i =>
    if !dieFailed a i && (decide (a.thm.die[i] < -1120) || decide (2800 < a.thm.die[i])) then dieFail i a else a) s

/-- Suspicion is judged anew for every sensor. The sensor that set Tj holds the level when it becomes suspect at
THROTTLE or higher, until it is working again (R384, R389). -/
def dieSuspicion (s : State) : State :=
  let sus := tab 40 fun i => since s (looksSuspect s i) s.thm.suspect[i]
  let was (i : Nat) : Bool := (s.thm.suspect[ix 39 i]).isSome
  let now' (i : Nat) : Bool := (sus[ix 39 i]).isSome
  let k := s.thm.tjSensor
  setThm (fun x => { x with
    suspect := sus,
    holdSensor := match x.holdSensor with
      | some i => if now' i then some i else none
      | none => if !was k && now' k && decide (2 ≤ x.level) then some k else none }) s

/-- Tj, the sensor that sets it (the lowest-numbered of several), and the histories (R385, R393). -/
def dieJunction (s : State) : State :=
  let v := tab 40 (contribution s)
  let best : Fin 40 := (List.finRange 40).foldl (fun b i => if v[b] < v[i] then i else b) 0
  setThm (fun x => { x with
    tj := v[best], tjSensor := best.val, hist := tab 40 fun i => (v[i] :: x.hist[i]).take 10 }) s

/-! ## Levels (R387, R389) -/

/-- OFFSET in 1/16 K (R401). -/
def thmOffset (s : State) : Int := ((16 * wfl s.thm.policy 10 6 : Nat) : Int)

/-- Enter values of WARN, THROTTLE, QUENCH, and leave values of WARN, THROTTLE, QUENCH, TRIP. -/
def enterAt (s : State) (k : Nat) : Int := [1952, 2048, 2144].getD k 0 - thmOffset s
def leaveAt (s : State) (k : Nat) : Int := if k = 3 then 2192 else [1904, 2000, 2096].getD k 0 - thmOffset s

/-- The level may not fall: the hold of R389. -/
def levelHeld (s : State) : Bool := s.thm.holdSensor.isSome || s.thm.holdDue.isSome

/-- The dwells after a reading. -/
def dieDwells (s : State) : State :=
  setThm (fun x => { x with
    above := tab 3 fun k => since s (decide (enterAt s k.val ≤ x.tj)) x.above[k],
    below := tab 4 fun k => since s (decide (x.tj < leaveAt s k.val) && !levelHeld s) x.below[k],
    coolSince := since s (decide (x.tj < 1904 - thmOffset s)) x.coolSince }) s

/-- A new level, with the events of the levels entered and left (R402). -/
def setLevel (n : Nat) (s : State) : State :=
  let old := s.thm.level
  let s1 := setThm (fun x => { x with level := n }) s
  let s2 := raiseIf (decide (old < 1) && decide (1 ≤ n)) evThmWarn 0 s1
  let s3 := raiseIf (decide (old < 2) && decide (2 ≤ n)) evThmThrottle 1 s2
  raiseIf (decide (2 ≤ old) && decide (n < 2)) evThmThrottle 0 s3

/-! ## The prediction of R393 -/

/-- 165 times the least-squares slope, in 1/16 K per ms, of the last 10 contributions of the sensor that sets Tj;
none before it has 10. -/
def slope165 (s : State) : Option Int :=
  let l := s.thm.hist[ix 39 s.thm.tjSensor]
  if l.length < 10 then none
  else some (sumI ((List.range 10).map fun (k : Nat) => (9 - 2 * (k : Int)) * l.getD k 0))

/-- t_pred is below `n` ms. -/
def tpredBelow (s : State) (n : Nat) : Bool :=
  match slope165 s with
  | some k => decide (0 < k) && decide ((2240 - s.thm.tj) * 165 < n * k)
  | none => false

/-- The cases of the immediate path that a reading can bring (R393). -/
def slopeCheck (s : State) : State :=
  if s.thm.quenching && s.thm.q != 0 then
    if tpredBelow s s.thm.q then declareQuench true 0x10 s else s
  else if (s.thm.above[2]).isSome && decide (s.thm.level < 3) && tpredBelow s 20 then
    declareQuench true 0x10 (setLevel 3 s)
  else s

/-! ## TRIP (R388) -/

/-- A hardware TRIP: level TRIP, every engine dark through its TRIP cause, QUENCH by the immediate path. -/
def hardwareTrip (i : Nat) (s : State) : State :=
  if s.thm.level = 4 then s
  else declareQuench true 0x11 (forEng (fun e a => darkCause e 1 a) (raise evThmTrip i (setLevel 4 s)))

/-- DIE_SENSOR_SAMPLE: two samples in a row at or above 140 degrees C of a working sensor. -/
def execDieSensorSample (t : Time) (i : Fin 40) (value : Int) (s : State) : Out :=
  let s := s.at t
  if !sensorsRun s then .next s
  else
    let n := if dieWorks s i && decide (2240 ≤ value) then s.thm.tripRun[i] + 1 else 0
    let s1 := setThm (fun x => { x with tripRun := upd x.tripRun i n }) s
    .next (if 2 ≤ n then hardwareTrip i.val s1 else s1)

/-- DIE_SENSOR_READING, every 1 ms; with no working sensor the device acts as at a TRIP (R385). -/
def execDieSensorReading (t : Time) (values : Vector Int 40) (s : State) : Out :=
  let s := s.at t
  if !sensorsRun s then .next s
  else
    let s1 := dieRange (setThm (fun x => { x with die := values }) s)
    let s2 := dieDwells (dieJunction (dieSuspicion s1))
    if (List.finRange 40).any (dieWorks s2) then .next (slopeCheck s2)
    else .next (hardwareTrip s2.thm.tjSensor s2)

/-- SENSOR_SUSPECT_EXPIRY (R384). -/
def execSensorSuspectExpiry (t : Time) (i : Fin 40) (s : State) : Out :=
  let s := s.at t
  if dwellDone s s.thm.suspect[i] then .next (dieFail i s) else .next s

/-- The level that completed dwells lead up to, and down to. -/
def levelUp (s : State) : Nat :=
  (List.finRange 3).foldl (fun n k => if dwellDone s s.thm.above[k] then max n (k.val + 1) else n) s.thm.level
def levelDown (s : State) : Nat → Nat
  | 0 => 0
  | n + 1 => if dwellDone s s.thm.below[ix 3 n] then levelDown s n else n + 1

/-- LEVEL_DWELL_EXPIRY (R387): entry to QUENCH declares a quench. -/
def execLevelDwellExpiry (t : Time) (s : State) : Out :=
  let s := s.at t
  let up := levelUp s
  if !sensorsRun s then .next s
  else if s.thm.level < up then
    let s1 := setLevel up s
    .next (if up = 3 then declareQuench (tpredBelow s1 20) 0x10 s1 else s1)
  else
    let down := levelDown s s.thm.level
    .next (if down < s.thm.level then setLevel down s else s)

/-- THROTTLE_HOLD_EXPIRY: the hold ends and the dwells for leaving start (R389). -/
def execThrottleHoldExpiry (t : Time) (s : State) : Out :=
  let s := s.at t
  match s.thm.holdDue with
  | some d => if d ≤ s.now then .next (dieDwells (setThm (fun x => { x with holdDue := none }) s)) else .next s
  | none => .next s

/-- THROTTLE_STEP, every 100 ms (R391). -/
def execThrottleStep (t : Time) (s : State) : Out :=
  let s := s.at t
  let lo := wfl s.thm.policy 24 8
  let f := s.thm.throttle
  let g := if 2 ≤ s.thm.level then (if f ≤ lo then f else max lo (f - 8)) else min 256 (f + 8)
  if s.fastUp then .next (setThm (fun x => { x with throttle := g }) s) else .next s

/-! ## Stack sensors and NTCs (R383, R386, R390) -/

/-- STACK_SENSOR_READING. -/
def execStackSensorReading (t : Time) (k : Fin 2) (value : Int) (s : State) : Out :=
  let s := s.at t
  if !sensorsRun s || s.thm.stackFailed.toNat.testBit k.val then .next s
  else
    let up := if 1680 < value then 2 else if 1360 < value then 1 else 0
    .next (refreshFollow (setThm (fun x => { x with
      stack := upd x.stack k value, stackAt := upd x.stackAt k s.now,
      stackLevel := upd x.stackLevel k (max x.stackLevel[k] up),
      stackBelow := upd x.stackBelow k
        (since s (decide (value < 1312)) (x.stackBelow[k]).1, since s (decide (value < 1632)) (x.stackBelow[k]).2) }) s))

/-- STACK_LEVEL_DWELL_EXPIRY: the level falls. -/
def execStackLevelDwellExpiry (t : Time) (k : Fin 2) (s : State) : Out :=
  let s := s.at t
  let b := s.thm.stackBelow[k]
  let n := if dwellDone s b.1 then 0 else if dwellDone s b.2 then min 1 s.thm.stackLevel[k] else s.thm.stackLevel[k]
  if !sensorsRun s || s.thm.stackFailed.toNat.testBit k.val then .next s
  else .next (refreshFollow (setThm (fun x => { x with stackLevel := upd x.stackLevel k n }) s))

/-- STACK_SENSOR_TIMEOUT: no valid reading for 10 ms: failed; the stack counts as above 105 degrees C (R386). -/
def execStackSensorTimeout (t : Time) (k : Fin 2) (s : State) : Out :=
  let s := s.at t
  if !sensorsRun s || s.thm.stackFailed.toNat.testBit k.val || decide (s.now < s.thm.stackAt[k] + 10 * ms) then .next s
  else .next (raise evThmSensorFailed (64 + k.val) (refreshFollow (setThm (fun x => { x with
    stackFailed := x.stackFailed ||| BitVec.ofNat 2 (2 ^ k.val), stackLevel := upd x.stackLevel k 2 }) s)))

/-- NTC_READING: the reading is the mean of the last 10 samples. -/
def execNtcReading (t : Time) (m : Fin 8) (value : Int) (s : State) : Out :=
  let s := s.at t
  if !sensorsRun s || s.thm.ntcFailed.toNat.testBit m.val then .next s
  else
    let l := (value :: s.thm.ntcHist[m]).take 10
    let s1 := setThm (fun x => { x with
      ntcHist := upd x.ntcHist m l, ntc := upd x.ntc m (rdivI (sumI l) l.length) }) s
    if value < -960 ∨ 2560 < value then
      .next (raise evThmSensorFailed (128 + m.val)
        (setThm (fun x => { x with ntcFailed := x.ntcFailed ||| BitVec.ofNat 8 (2 ^ m.val) }) s1))
    else .next s1

/-! ## Process monitors (R400) -/

/-- PROCESS_MONITOR_MEASURE, ratios in 1/4,096: 1.08 is 4,423.68. -/
def execProcessMonitorMeasure (t : Time) (ratios : Vector Nat 8) (s : State) : Out :=
  let s := s.at t
  if !sensorsRun s then .next s
  else
    let s1 := setThm (fun x => { x with process := ratios }) s
    match (List.finRange 8).find? fun m => decide (4423 < ratios[m]) with
    | some m => if s.thm.aged then .next s1
        else .next (raise evThmAging m.val (setThm (fun x => { x with aged := true }) s1))
    | none => .next s1

/-! ## THM_POLICY and the status words (R401, R523) -/

/-- A value that THM_POLICY takes. -/
def policyOk (v : Word) : Bool :=
  decide (0x40 ≤ wfl v 24 8) && wfl v 16 8 == 0 && decide (wfl v 10 6 ≤ 20) && wfl v 0 10 == 0

/-- THERMAL_POLICY. -/
def thermalPolicyBody (rq : Req) (s : State) : Ans :=
  let v := toW (le32 rq.payload 0)
  if policyOk v then (setThm (fun x => { x with policy := v }) s, .ok, []) else deny .badParam s

def execThermalPolicy (t : Time) (rq : Req) (s : State) : Out := .next (serve 0x48 thermalPolicyBody rq (s.at t))

/-- THM_STATUS. -/
def thmStatus (s : State) : Nat :=
  s.thm.ntcFailed.toNat * 2 ^ 24 + ((List.finRange 40).filter (dieFailed s)).length * 2 ^ 18
    + s.thm.stackFailed.toNat * 2 ^ 16 + b2n s.thm.slopeStop * 2 ^ 11 + b2n s.thm.holdDue.isSome * 2 ^ 10
    + b2n (writeRefused s).isSome * 2 ^ 9 + max s.thm.stackLevel[0] s.thm.stackLevel[1] * 16 + s.thm.level

/-- THM_JUNCTION and THM_STACK_TEMP. -/
def thmJunction (s : State) : Nat := s.thm.tjSensor * 65536 + unsext 16 s.thm.tj
def thmStackTemp (s : State) : Nat := unsext 16 s.thm.stack[1] * 65536 + unsext 16 s.thm.stack[0]

end Sys2Proof.Machine
end

