-- ==== Sys2Proof/Machine/SelfTest.lean ====
section
/-! DEFINITION. Self-test and repair: the in-service march (R419-R424), results (R425), soft repairs and the repair
record (R429-R431), BIST_RUN and its kinds (R418, R432, R433, R526), BIST_RESULT (R527), and starvation (R484-R486). -/

namespace Sys2Proof.Machine

/-! ## Result records (R425) -/

def resultOf (s : State) (i : Nat) : ResultRec := (s.bst.results.find? fun r => r.inst == i).getD { inst := i }

/-- The record of an instance changed. -/
def setResult (i : Nat) (f : ResultRec → ResultRec) (s : State) : State :=
  setBst (fun b => { b with results := b.results.filter (fun r => r.inst != i) ++ [f (resultOf s i)] }) s

/-- REPAIR: spares exhausted, soft repair pending, applied, fused, none. -/
def repairCode (s : State) (i : Nat) : Nat :=
  if s.bst.spent.contains i then 4
  else if s.bst.repairs.any (fun r => r.inst == i && !s.bst.applied.contains r) then 1
  else if s.bst.applied.any (fun r => r.inst == i) then 2
  else if s.otp.fusedRepairs.any (fun r => r.inst == i) then 3
  else 0

/-- RESULT as BIST_RESULT shows it: a running pass, a logic partition of the start-up test, else the record's. -/
def resultCode (s : State) (i : Nat) : Nat :=
  let r := resultOf s i
  if s.bst.march.any (fun m => m.inst == i) then 4
  else if 0x40 ≤ i ∧ i ≤ 0x43 then
    if s.bst.lbist.toNat.testBit (i - 0x40) then 2 else if r.result ≠ 0 then r.result else b2n s.bst.lbistRan
  else r.result

/-- The 16 bytes of a record. -/
def resultBytes (s : State) (i : Nat) : List Byte :=
  let r := resultOf s i
  leBytes 16 (i * 2 ^ 120 + resultCode s i * 2 ^ 116 + repairCode s i * 2 ^ 112 + r.slicesDone * 2 ^ 96
    + slicesOf i * 2 ^ 80 + r.failAddr % 2 ^ 24 * 2 ^ 56 + r.failBit % 256 * 2 ^ 48 + min r.fails 0xFFFF * 2 ^ 32
    + r.passes * 2 ^ 16 + r.aborts)

/-- BST_STATUS (R434). -/
def bstStatus (s : State) : Nat :=
  let under := match s.bst.slice with
    | some i => i
    | none => ((s.bst.march.map (·.inst)).mergeSort).headD 0
  under * 2 ^ 24 + (allInsts.filter fun i => (resultOf s i).result == 2).length * 256
    + (allInsts.filter fun i => (resultOf s i).result == 3).length

/-! ## Repairs (R429) -/

/-- Spares of a kind already used in a bank: soft and fused. -/
def sparesUsed (s : State) (i bank kind : Nat) : Nat :=
  ((s.bst.repairs ++ s.otp.fusedRepairs).filter fun r => r.inst == i && r.bank == bank && r.kind == kind).length

/-- A pending assignment already covers a failing bit. -/
def covered (s : State) (i bank row col : Nat) : Bool :=
  s.bst.repairs.any fun r => r.inst == i && r.bank == bank && r.index == (if r.kind = 0 then row else col)
    && !s.bst.applied.contains r

/-- A failing bit is assigned a spare: a column when the column holds a confirmed failure in another row, else a row;
the other kind when that is used up (R429). -/
def assignSpare (i addr row col : Nat) (s : State) : State :=
  let bank := addr / 32768
  let colWanted := s.bst.failures.any fun f => f.1 == i && f.2.1 == bank && f.2.2.2 == col && f.2.2.1 != row
  let s1 := setBst (fun b => { b with failures := (i, bank, row, col) :: b.failures }) s
  let has (k : Nat) : Bool := decide (sparesUsed s i bank k < if k = 0 then 4 else 2) && decide (s.bst.repairs.length < 64)
  let kind : Option Nat :=
    if colWanted then (if has 1 then some 1 else if has 0 then some 0 else none)
    else (if has 0 then some 0 else if has 1 then some 1 else none)
  if covered s i bank row col then s1
  else match kind with
    | some k => setBst (fun b => { b with
        repairs := b.repairs ++ [⟨i, bank, k, if k = 0 then row else col, sparesUsed s i bank k⟩],
        repairDue := some (b.repairDue.getD (s.now + sec)) }) s1
    | none => raise evBstRepairExhausted i
        (setBst (fun b => { b with spent := if b.spent.contains i then b.spent else b.spent ++ [i] }) s1)

/-! ## The march (R420-R424) -/

/-- The pass of an instance. -/
def passOf (s : State) (i : Nat) : Option March := s.bst.march.find? fun m => m.inst == i

/-- MARCH_SLICE_START: the owner has been idle for 16 cycles, 4 in a guaranteed slot (R421, R485). -/
def execMarchSliceStart (t : Time) (inst : Nat) (idle : Nat) (free : Bool) (s : State) : Out :=
  let s := s.at t
  let starved := s.bst.starved.contains (0x100 + inst)
  let on := (wb s.bst.config 0 || s.bst.asked.contains inst) && marchState s inst && instRuns s inst
  if slicesOf inst = 0 || !on || s.bst.slice.isSome || (isFifo inst && !free)
      || decide (idle < if starved then 4 else 16) then .next s
  else .next (slotTaken (0x100 + inst) (setBst (fun b => { b with
    slice := some inst,
    march := if (passOf s inst).isSome then b.march else b.march ++ [{ inst := inst, began := s.now }] }) s))

/-- A pass ends with a RESULT; `whole`: every slice has completed (R424). -/
def passEnds (m : March) (whole : Bool) (s : State) : State :=
  let res := if m.failed then 2 else if whole then 1 else 3
  let s1 := setResult m.inst (fun r => { r with
    result := res, slicesDone := m.done, failAddr := m.firstFail.1, failBit := m.firstFail.2, fails := m.failBits,
    passes := if whole then satInc 16 r.passes else r.passes }) s
  let s2 := setBst (fun b => { b with
    march := b.march.filter (fun x => x.inst != m.inst), asked := b.asked.filter (· != m.inst) }) s1
  if res = 2 then raise evBstSramFail m.inst s2
  else if res = 3 then raise evBstIncomplete m.inst s2
  else s2

/-- MARCH_SLICE_COMPLETE: the two signatures are compared; `fail` gives address, bit, row and column. -/
def execMarchSliceComplete (t : Time) (inst : Nat) (predicted actual : Nat) (fail : Option (Nat × Nat × Nat × Nat))
    (s : State) : Out :=
  let s := s.at t
  match passOf s inst with
  | none => .next s
  | some m =>
    if s.bst.slice ≠ some inst then .next s
    else
      let bad := predicted != actual
      let m1 : March := { m with
        done := m.done + 1, failed := m.failed || bad, failBits := if bad then satInc 16 m.failBits else m.failBits,
        firstFail := match fail with
          | some f => if bad && !m.failed then (f.1, f.2.1) else m.firstFail
          | none => m.firstFail }
      let s1 := setBst (fun b => { b with
        slice := none, march := b.march.map fun x => if x.inst = inst then m1 else x }) s
      let s2 := match fail with
        | some f => if bad then assignSpare inst f.1 f.2.2.1 f.2.2.2 s1 else s1
        | none => s1
      .next (if slicesOf inst ≤ m1.done then passEnds m1 true s2 else s2)

/-- A slice in progress is abandoned (R422, R423). -/
def sliceAbandon (s : State) : State :=
  match s.bst.slice with
  | none => s
  | some i => setResult i (fun r => { r with aborts := satInc 16 r.aborts }) (setBst (fun b => { b with slice := none }) s)

/-- MARCH_SLICE_ABORT. -/
def execMarchSliceAbort (t : Time) (inst : Nat) (s : State) : Out :=
  let s := s.at t
  if s.bst.slice = some inst then .next (sliceAbandon s) else .next s

/-- PASS_LIMIT_EXPIRY: PASS_LIMIT seconds since the first slice (R424). -/
def execPassLimitExpiry (t : Time) (inst : Nat) (s : State) : Out :=
  let s := s.at t
  match passOf s inst with
  | none => .next s
  | some m =>
    if s.now < m.began + wfl s.bst.config 16 8 * sec then .next s
    else .next (passEnds m false (if s.bst.slice = some inst then setBst (fun b => { b with slice := none }) s else s))

/-! ## The repair record (R430, R431) -/

/-- The record as a write programs it. -/
def repairImage (s : State) : RepairRec :=
  { seq := if s.bst.newest.isSome then s.bst.seq + 1 else 1, repairs := s.bst.repairs, results := s.bst.resultSec,
    kind := s.bst.kind, rows := s.bst.rows }

/-- The slot a write targets. -/
def repairTarget (s : State) : Fin 2 :=
  match s.bst.newest with
  | some n => other n
  | none => 0

/-- Instances with an assignment that the newest record does not hold. -/
def newlyPending (s : State) : List Nat :=
  let held := match s.bst.newest with
    | some n => match s.flash.repair[n] with
      | some r => r.repairs
      | none => []
    | none => []
  ((s.bst.repairs.filter fun r => !held.contains r && !s.bst.applied.contains r).map (·.inst)).dedup

/-- A record is written and read back: BST_REPAIR_PENDING for the soft repairs it records. -/
def repairWrite (ok : Bool) (s : State) : State :=
  let k := repairTarget s
  let r := repairImage s
  if ok then
    let s1 : State := { s with flash := { s.flash with repair := upd s.flash.repair k (some r) } }
    (newlyPending s).foldl (fun a i => raise evBstRepairPending i a)
      (setBst (fun b => { b with newest := some k, seq := r.seq, repairDue := none, writeFails := 0 }) s1)
  else
    let n := s.bst.writeFails + 1
    setBst (fun b => { b with writeFails := n, repairDue := if n < 3 then some (s.now + sec) else none })
      { s with flash := { s.flash with repair := upd s.flash.repair k none } }

/-- REPAIR_RECORD_WRITE. -/
def execRepairRecordWrite (t : Time) (readBackOk : Bool) (s : State) : Out :=
  let s := s.at t
  if s.bst.repairDue.isNone ∨ 3 ≤ s.bst.writeFails ∨ s.hth.trans.isSome then .next s
  else match writeRefused s with
    | some _ => .next (setBst (fun b => { b with repairDue := some (s.now + sec) }) s)
    | none => .next (repairWrite readBackOk s)

/-- The record read at cold-start step 2: repairs are applied, results are loaded, and the HBM rows enter the error
log (R430, R431, R522). -/
def repairLoad (s : State) : State :=
  let a := s.flash.repair[(0 : Fin 2)]
  let b := s.flash.repair[(1 : Fin 2)]
  let pick : Option (Fin 2 × RepairRec) := match a, b with
    | some x, some y => if x.seq < y.seq then some (1, y) else some (0, x)
    | some x, none => some (0, x)
    | none, some y => some (1, y)
    | none, none => none
  match pick with
  | none => s
  | some (k, r) =>
    let s1 := setBst (fun x => { x with
      repairs := r.repairs, applied := r.repairs, results := r.results, resultSec := r.results, kind := r.kind,
      rows := r.rows, seq := r.seq, newest := some k }) s
    r.rows.foldl (fun x h => logPush noAddr 4 noPort (Fin.ofNat 64 (32 * h.stack + h.index)) 0 x) s1

/-! ## BIST_RUN and its completion -/

/-- BIST_RUN (R526). HBM_FULL destroys the content of the HBM from its acceptance on (log 64). -/
def bistRunBody (rq : Req) (s : State) : Ans :=
  let k := byteAt rq.payload 0
  let mask := leNat (slice rq.payload 4 8)
  let named := (List.range 64).filter fun i => bit mask i
  if k = 0 ∨ 6 < k ∨ !zeroAt rq.payload 1 3 ∨ (k ≠ 1 ∧ mask ≠ 0)
      ∨ named.any (fun i => slicesOf i == 0) then deny .badParam s
  else if k = 1 then
    (setBst (fun b => { b with
      march := b.march.filter (fun m => !named.contains m.inst) ++ named.map fun i => { inst := i, began := s.now },
      slice := match b.slice with
        | some i => if named.contains i then none else some i
        | none => none,
      asked := (b.asked ++ named).dedup }) s, .ok, [])
  else
    let no := if 5 ≤ k then writeRefused s else none
    match no with
    | some st => deny st s
    | none =>
      let s1 := setBst (fun b => { b with run := some (k, reqKey rq) }) s
      (if k = 4 then setGrn (fun g => { g with spoilt := some s.free }) s1.fresh.2 else s1, .pending, [])

def execBistRun (t : Time) (rq : Req) (s : State) : Out := .next (serve 0x58 bistRunBody rq (s.at t))

/-- The instances a destructive kind tests. -/
def kindInsts (k : Nat) : List Nat :=
  if k = 2 then marchInsts else if k = 3 then [0x40, 0x41, 0x42, 0x43] else [0x50, 0x51]

/-- The results of a destructive kind from what it found: (instance, failing bits or rows, address, bit). -/
def kindResults (k : Nat) (fails : List (Nat × Nat × Nat × Nat)) : List ResultRec :=
  (kindInsts k).map fun i => match fails.find? fun f => f.1 == i with
    | some f => { inst := i, result := 2, slicesDone := slicesOf i, fails := min f.2.1 0xFFFF, failAddr := f.2.2.1,
                  failBit := f.2.2.2 }
    | none => { inst := i, result := 1, slicesDone := slicesOf i }

/-- A destructive kind ends: the record is written, the command completes, and 10 ms later the device resets (R418). -/
def destructiveEnds (k : Nat) (key : PendKey) (ok : Bool) (fails rows : List (Nat × Nat × Nat × Nat)) (s : State) : State :=
  let l := kindResults k fails
  let s0 := setHth (fun h => { h with resetDue := some (s.now + 10 * ms) }) (setBst (fun b => { b with run := none }) s)
  match writeRefused s with
  | some _ => cmdDone key .thermalInhibit s0
  | none =>
    let s1 := setBst (fun b => { b with
      resultSec := l, kind := k, results := b.results.filter (fun r => !(kindInsts k).contains r.inst) ++ l,
      rows := if k = 4 then (rows.take 64).map fun h => ⟨h.1, h.2.1, h.2.2.1, h.2.2.2⟩ else b.rows }) s0
    cmdDone key (if ok then .ok else .hwFault) (repairWrite ok s1)

/-- FUSE_REPAIR: applied soft repairs are burnt and leave the record (R432). -/
def fuseRepair (key : PendKey) (ok : Bool) (s : State) : State :=
  let s0 := setBst (fun b => { b with run := none }) s
  if !ok then cmdDone key .hwFault s0
  else
    let s1 : State := { s0 with otp := { s0.otp with fusedRepairs := s0.otp.fusedRepairs ++ s0.bst.applied } }
    cmdDone key .ok (setBst (fun b => { b with
      repairs := b.repairs.filter (fun r => !b.applied.contains r), applied := [],
      repairDue := some (b.repairDue.getD (s.now + sec)) }) s1)

/-- HBM_PPR: `rows` are those without a spare resource; the others leave the record (R431, R433). -/
def hbmPpr (key : PendKey) (rows : List (Nat × Nat × Nat × Nat)) (s : State) : State :=
  let left : List HbmRow := rows.map fun h => ⟨h.1, h.2.1, h.2.2.1, h.2.2.2⟩
  cmdDone key (if left.isEmpty then .ok else .hwFault) (setBst (fun b => { b with
    run := none, rows := b.rows.filter (fun r => left.contains r),
    repairDue := some (b.repairDue.getD (s.now + sec)) }) s)

/-- BIST_RUN_COMPLETE. -/
def execBistRunComplete (t : Time) (readBackOk : Bool) (fails rows : List (Nat × Nat × Nat × Nat)) (s : State) : Out :=
  let s := s.at t
  match s.bst.run with
  | none => .next s
  | some (k, key) =>
    if k = 5 then .next (fuseRepair key readBackOk s)
    else if k = 6 then .next (hbmPpr key rows s)
    else .next (destructiveEnds k key readBackOk fails rows s)

/-- BIST_RESULT (R527). -/
def bistResultBody (rq : Req) (s : State) : Ans :=
  let n := byteAt rq.payload 1
  if n = 0 ∨ 64 < n ∨ !zeroAt rq.payload 2 2 then deny .badParam s
  else (s, .ok, (((allInsts.filter fun i => decide (byteAt rq.payload 0 ≤ i)).take n).map (resultBytes s)).flatten)

def execBistResult (t : Time) (rq : Req) (s : State) : Out := .next (serve 0x59 bistResultBody rq (s.at t))

/-! ## Starvation (R484-R486) -/

/-- STARVATION_EXPIRY: an activity that has starved for its maximum time waits for its guaranteed slot: a port of the
Granary (12-15) for the first free cycle, a march instance or a Temper quantity for its next opportunity. -/
def execStarvationExpiry (t : Time) (activity : Nat) (s : State) : Out :=
  let s := starveTick (s.at t)
  match starveMax activity with
  | none => .next s
  | some m =>
    if (look s.bst.starving activity).getD 0 < m ∨ s.bst.starved.contains activity then .next s
    else .next (portSlots (setBst (fun b => { b with starved := b.starved ++ [activity] }) s))

end Sys2Proof.Machine
end

