-- ==== Sys2Proof/Machine/Commit.lean ====
section
/-! DEFINITION. Commits on one device: the flags of a COMMIT (R507), validation in ascending element code (R109,
R110), the armed snapshot (R111), its application at a frame start (R112, R115), and COMMIT_STATUS (R508). -/

namespace Sys2Proof.Machine

/-- The banks a COMMIT names (R507). -/
structure Flags where
  warp : BitVec 4
  gamut : BitVec 4
  sheaf : BitVec 4
  loops : BitVec 64

def commitFlags (p : List Byte) : Flags :=
  { warp := BitVec.ofNat 4 (byteAt p 0), gamut := BitVec.ofNat 4 (byteAt p 0 / 16), sheaf := BitVec.ofNat 4 (byteAt p 1),
    loops := BitVec.ofNat 64 (leNat (slice p 4 8)) }

/-- The field checks of a COMMIT that need no clocks (R4, R493). -/
def commitPre (rq : Req) (_ : State) : Option (Status × List Byte) :=
  if 16 ≤ byteAt rq.payload 1 ∨ !zeroAt rq.payload 2 2 then some (.badParam, []) else none

/-- Element 0x30: the compositor budget of R25, the engine rectangles and the zones' depths (R130). -/
def engineReject (s : State) : Option Reject :=
  let px := pixelDemand s s.clw.depthsSh (budgetRate s)
  if pixelLimit < px then some ⟨0x30, 0x01, sat16 (cdiv px (10000000 * 1000))⟩
  else if (List.finRange 4).any (fun e => s.used e && (decide (16384 < canvasX s.cmp.canvasSh[e] + s.eng[e].w)
      || decide (16384 < canvasY s.cmp.canvasSh[e] + s.eng[e].h))) then some ⟨0x30, 0x07, 0⟩
  else ((List.finRange 4).find? fun e =>
      s.used e && (engZones s e).any fun z => decide (depthsOf s s.clw.depthsSh e ≤ z.depth)).map fun e => ⟨0x30, 0x08, e.val⟩

/-- Element 0x31, while the mirror is enabled (R489). -/
def mirrorReject (s : State) : Option Reject :=
  if !wb s.ing.dptxConfig 0 then none
  else match mirrorWindow s s.ing.winOrgSh s.ing.winSizeSh s.cmp.canvasSh with
    | some x => some ⟨0x31, x.1, x.2⟩
    | none => if mirrorLinkOk s (budgetRate s) then none else some ⟨0x31, 0x09, 0⟩

/-- The first engine element that fails, of those `f` includes. -/
def engElements (inc : Fin 4 → Bool) (f : Fin 4 → Option Reject) : Option Reject :=
  (List.finRange 4).findSome? fun e => if inc e then f e else none

/-- Validation: elements in ascending code, the first failure (R110). -/
def commitReject (f : Flags) (s : State) : Option Reject :=
  let d := s.clw.depthsSh
  let layers := (List.finRange 16).map fun n => (n.val, s.cmp.shadow[n])
  (layersReject s d (budgetRate s) layers 0).or <|
  (engElements (fun e => f.warp.toNat.testBit e.val) (warpReject s)).or <|
  (engElements (fun e => f.gamut.toNat.testBit e.val) (gamutReject s)).or <|
  (engElements (fun e => f.sheaf.toNat.testBit e.val || s.isMae e)
    (fun e => sheafReject s d (f.sheaf.toNat.testBit e.val) (f.gamut.toNat.testBit e.val) e)).or <|
  (engineReject s).or <|
  (mirrorReject s).or <|
  (List.finRange 64).findSome? fun n => if f.loops.toNat.testBit n.val then loopReject s n else none

/-- A rejection is recorded (R110, R508). -/
def commitRejected (r : Reject) (s : State) : Ans :=
  (setCmp (fun c => { c with result := 2, rejection := r.bytes }) s, .commitRejected, r.bytes)

/-- Frame starts from now until the first at least `d` taps away: 1 is the next. -/
def framesUntil (s : State) (d : Nat) : Nat :=
  let next := s.tng.frameAt + s.tng.framePeriod
  if s.now + d ≤ next then 1 else 1 + cdiv (s.now + d - next) (max 1 s.tng.framePeriod)

/-- The shadow set is copied into the armed snapshot and SEQ rises; flagged Sheafs are compiled and the trial solves of flagged
gamut banks kept (R111, R162, R212). -/
def commitArm (f : Flags) (frames : Nat) (inBarrier : Bool) (s : State) : State :=
  let apply := (s.cmp.frameCount + frames) % 2 ^ 32
  let s0 := forEng (fun e a => if f.gamut.toNat.testBit e.val then gamutValidated (flaggedBank a e) e a else a) s
  let s1 := forEng (fun e a => sheafValidated a.clw.depthsSh (f.sheaf.toNat.testBit e.val) e a) s0
  let snap : Snapshot := {
    layers := s.cmp.shadow, canvas := s.cmp.canvasSh, depths := s.clw.depthsSh, dither := s.clw.ditherSh,
    slotRate := s.thr.slotRateSh, bandTiming := vmap (fun (t : ThrEng) => t.timingSh) s.thr.eng,
    focus := vmap (fun (t : ThrEng) => t.focusSh) s.thr.eng, fRef := vmap (fun (x : FrgEng) => x.fRefSh) s.frg.eng,
    winOrg := s.ing.winOrgSh, winSize := s.ing.winSizeSh, warp := f.warp, gamut := f.gamut, sheaf := f.sheaf,
    loops := f.loops, accepted := s.now, applyFrame := apply, inBarrier := inBarrier }
  setCmp (fun c => { c with
    armed := some snap, seq := (c.seq + 1) % 65536, phase := if inBarrier then .barrier else .armed,
    applyFrame := apply }) s1

/-- A local COMMIT (R111, R113, R507). -/
def commitLocal (rq : Req) (s : State) : Ans :=
  let f := commitFlags rq.payload
  match commitPre rq s with
  | some r => (s, r.1, r.2)
  | none =>
    if s.cmp.armed.isSome then deny .busy s
    else match commitReject f s with
      | some r => commitRejected r s
      | none =>
        let s1 := commitArm f (framesUntil s (200 * us)) false s
        (s1, .ok, leBytes 2 s1.cmp.seq ++ leBytes 4 s1.cmp.applyFrame)

/-- Whether bit `e` of an engine mask is set. -/
def engBit (m : BitVec 4) (e : Fin 4) : Bool := m.toNat.testBit e.val

/-- The snapshot enters the live set at frame start `f` (R112, R115). -/
def commitApply (x : Snapshot) (f : Nat) (s : State) : State :=
  let old := s.clw.depths
  let s1 : State := { s with
    ing := { s.ing with winOrg := x.winOrg, winSize := x.winSize },
    clw := { s.clw with depths := x.depths, dither := x.dither },
    frg := { s.frg with eng := tab 4 fun e => { s.frg.eng[e] with fRef := x.fRef[e] } },
    thr := { s.thr with
      slotRate := x.slotRate,
      eng := tab 4 fun e => { s.thr.eng[e] with timing := x.bandTiming[e], focus := x.focus[e] } },
    cmp := { s.cmp with
      live := x.layers, canvas := x.canvas, armed := none, phase := .idle, result := 1, applyFrame := f } }
  let s2 := forEng (fun e a => if engBit x.warp e then warpApply e a else a) s1
  let s3 := forEng (fun e a => if engBit x.gamut e then gamutApply e a else a) s2
  let s4 := forEng (fun e a => sheafApply f (engBit x.sheaf e) (depthsOf a old e != depthsOf a x.depths e) e a) s3
  let s5 := (List.finRange 64).foldl (fun a n => if x.loops.toNat.testBit n.val then loopApply (f + 1) n a else a) s4
  raise evCmpCommitApplied s5.cmp.seq s5

/-- At a frame start an armed local commit applies once 200 us have passed since its acceptance (R112). -/
def commitFrame (s : State) : State :=
  match s.cmp.armed with
  | some x => if !x.inBarrier ∧ x.accepted + 200 * us ≤ s.now then commitApply x s.cmp.frameCount s else s
  | none => s

/-- CMP_COMMIT_STATE (R114). -/
def phaseCode : Phase → Nat
  | .idle => 0 | .armed => 1 | .barrier => 2
def commitState (s : State) : Nat := s.cmp.seq * 65536 + s.cmp.result * 256 + phaseCode s.cmp.phase

/-- COMMIT_STATUS (R508). -/
def commitStatusBody (_ : Req) (s : State) : Ans :=
  (s, .ok, leBytes 4 (commitState s) ++ leBytes 4 s.cmp.applyFrame ++ s.cmp.rejection
    ++ s.brg.lastStatuses.map (BitVec.ofNat 8))

def execCommitStatus (t : Time) (rq : Req) (s : State) : Out := .next (serve 0x13 commitStatusBody rq (s.at t))

end Sys2Proof.Machine
end

