-- ==== Sys2Proof/Machine/Brugo.lean ====
section
/-! DEFINITION. Brugo Link: ports and enumeration (R437-R441), the timebase (R442-R444), membership (R447), the
barrier (R446, R448, R449), shared values (R451, R452), the Anvil mirror (R453, R454), loss of the manager (R455,
R456), forwarded events (R457), and COMMIT and TIMING_PROFILE with their forwarded forms. -/

namespace Sys2Proof.Machine

/-! ## Flits (R439-R441) -/

def setPort (p : Fin 2) (f : BrgPort → BrgPort) (s : State) : State := setBrg (fun b => { b with ports := updWith b.ports p f }) s

/-- A message leaves the device: the record of what it sent, newest first. -/
def sendMsg (m : BrgMsg) (s : State) : State := setBrg (fun b => { b with sent := m :: b.sent }) s

/-- Some port is up. -/
def anyPortUp (s : State) : Bool := s.brg.ports[(0 : Fin 2)].st == .up || s.brg.ports[(1 : Fin 2)].st == .up

/-- The flit is for this device: a worker without a number takes broadcasts only. -/
def forMe (f : Flit) (s : State) : Bool :=
  f.dst == 15 || (f.dst == s.brg.devnum && (s.hth.role == 1 || s.brg.numbered))

/-- The first copy of a message: not the device's own, not one already acted on (R441). -/
def firstCopy (f : Flit) (s : State) : Bool :=
  !(s.hth.role == 1 && f.src == 0) && !(s.brg.numbered && f.src == s.brg.devnum) && !s.brg.seen.contains (f.src, f.msgno)

/-- Late acknowledgements that a received flit settles. -/
def ackSettles (f : Flit) (s : State) : State :=
  setPort f.port (fun p => { p with unacked := p.unacked.filter fun u => decide (128 ≤ (f.ack + 256 - u.1) % 256) }) s

/-- A flit is forwarded out of the other port, HOPS raised (R441). -/
def forwardFlit (f : Flit) (s : State) : State :=
  let q := other f.port
  if f.dst ≠ s.brg.devnum ∧ f.hops < 7 ∧ s.brg.ports[q].st = .up then
    setBrg (fun b => { b with forwarded := (q, { f with hops := f.hops + 1 }) :: b.forwarded }) s
  else s

/-- A received flit: acknowledged, forwarded, and acted on once. `open'`: the port takes it before it is up. -/
def receive (open' : Bool) (f : Flit) (act : State → State) (s : State) : State :=
  let st := s.brg.ports[f.port].st
  if s.hth.role = 0 ∨ !(st == .up || (open' && st == .training)) then s
  else
    let first := firstCopy f s
    let s1 := ackSettles f s
    if !first then s1
    else
      let s2 := forwardFlit f (setBrg (fun b => { b with seen := ((f.src, f.msgno) :: b.seen).take 64 }) s1)
      if forMe f s2 then act s2 else s2

/-! ## Ports -/

/-- The active port of a worker: the port with fewer hops to the manager, ties to P0 (R441); TOPO from the hops. -/
def portsJudge (s : State) : State :=
  let hop (p : Fin 2) : Option Nat := if s.brg.ports[p].st = .up then s.brg.ports[p].hops else none
  if s.hth.role = 2 then
    match hop 0, hop 1 with
    | some a, some b => setBrg (fun x => { x with active := if a ≤ b then 1 else 2, topo := 2 }) s
    | some _, none => setBrg (fun x => { x with active := 1, topo := 1 }) s
    | none, some _ => setBrg (fun x => { x with active := 2, topo := 1 }) s
    | none, none => setBrg (fun x => { x with active := 0, topo := 0 }) s
  else s

/-- Records that wait for the manager beyond 16 are dropped (R455). -/
def capEvents (s : State) : State :=
  let n := s.evt.brugo.length
  if s.hth.role = 2 ∧ s.brg.mgrLost ∧ 16 < n then
    let s1 := raise evBrgEventsLost (n - 16) s
    { s1 with evt := { s1.evt with brugo := s1.evt.brugo.drop (s1.evt.brugo.length - 16) } }
  else s

/-- A worker has lost the manager (R455). -/
def managerLost (s : State) : State :=
  if s.hth.role ≠ 2 ∨ s.brg.mgrLost then s
  else
    let s1 := raise evBrgManagerLost 0 (setBrg (fun b => { b with mgrLost := true }) s)
    capEvents (if hasRef s1.tng.frm then loseRef .frame s1 else s1)

/-- A port goes down: BRG_PORT_DOWN, bring-up restarts at once (R440). -/
def portDown (p : Fin 2) (s : State) : State :=
  if s.brg.ports[p].st ≠ .up then s
  else
    let next : PortSt := if s.tng.pll[2].locked then .training else .down
    let s1 := raise evBrgPortDown (2 ^ p.val)
      (setPort p (fun x => { x with st := next, hops := none, asked := none, unacked := [] }) s)
    let s2 := portsJudge s1
    if s2.hth.role = 2 ∧ s.brg.active ≠ 0 ∧ s2.brg.active = 0 then managerLost s2
    else if s2.hth.role = 1 ∧ !anyPortUp s2 then setBrg (fun b => { b with topo := 0 }) s2
    else s2

/-- The ports follow the power state: they run in READY, LIT, QUENCH and SAFE (R439). -/
def portsFollow (s : State) : State :=
  let runs : Bool := s.hth.pwr == .ready || s.hth.pwr == .lit || s.hth.pwr == .quench || s.hth.pwr == .safe
  let one (p : Fin 2) (s : State) : State :=
    let x := s.brg.ports[p]
    let on := s.hth.role != 0 && wb s.brg.config p.val && runs
    if x.st = .disabled then s
    else if !on then setPort p (fun x => { x with st := .off, hops := none, asked := none, unacked := [] }) s
    else if x.st = .off then setPort p (fun x => { x with st := .training }) s
    else s
  portsJudge (one 1 (one 0 s))

/-- BRUGO_PORT_UP: bring-up is complete; the device makes itself known (R439). -/
def execBrugoPortUp (t : Time) (port : Fin 2) (s : State) : Out :=
  let s := s.at t
  let st := s.brg.ports[port].st
  if (st = .training ∨ st = .down) ∧ s.tng.pll[2].locked then
    .next (portsJudge (sendMsg .enumSelf (setPort port (fun x => { x with st := .up }) s)))
  else .next s

/-- BRUGO_PORT_SILENCE and BRUGO_CODEWORD_LOCK_LOSS. -/
def execBrugoPortSilence (t : Time) (port : Fin 2) (s : State) : Out := .next (portDown port (s.at t))
def execBrugoCodewordLockLoss (t : Time) (port : Fin 2) (s : State) : Out := .next (portDown port (s.at t))

/-- FLIT_RESEND_TIMEOUT: a reliable flit is resent; after its eighth sending the port is down (R440). -/
def execFlitResendTimeout (t : Time) (port : Fin 2) (seq : Nat) (s : State) : Out :=
  let s := s.at t
  let n := (look s.brg.ports[port].unacked (seq % 256)).getD 1
  if s.brg.ports[port].st ≠ .up then .next s
  else if 8 ≤ n then .next (portDown port s)
  else .next (setPort port (fun x => { x with unacked := put x.unacked (seq % 256) (n + 1) }) s)

/-! ## Enumeration (R437, R438) -/

/-- The lowest free device number 1-7. -/
def freeNumber (l : List Worker) : Option Nat := ((List.range 8).drop 1).find? fun n => !(l.any fun w => w.number == n)

/-- EXPECTED (R458). -/
def expected (s : State) : Nat := wfl s.brg.config 27 3

/-- The manager numbers a worker, or finds another manager. -/
def enumManager (f : Flit) (en : EnumMsg) (s : State) : State :=
  if en.isManager then
    raise evBrgRoleConflict (2 ^ f.port.val) (setPort f.port (fun x => { x with st := .disabled, hops := none }) s)
  else
    let s1 := match s.brg.workers.find? fun w => w.uid == en.uid with
      | some w =>
        let ring := w.port != f.port && s.brg.ports[w.port].st == .up
        sendMsg (.enum w.number) (setBrg (fun b => { b with
          topo := if ring then 2 else max b.topo 1,
          workers := b.workers.map fun x => if x.uid = en.uid ∧ !ring then { x with port := f.port } else x }) s)
      | none => match freeNumber s.brg.workers with
        | some n => sendMsg (.enum n) (setBrg (fun b => { b with
            topo := max b.topo 1,
            workers := b.workers ++ [⟨en.uid, n, f.port, false, false, s.now, 256, 0⟩] }) s)
        | none => s
    raiseIf (en.count != 0 && en.count != expected s + 1) evBrgTopologyMismatch (en.count % 16) s1

/-- A worker takes its number from the first manager that gives it one. -/
def enumWorker (f : Flit) (en : EnumMsg) (s : State) : State :=
  let mine := match s.brg.manager with
    | some m => m == en.uid
    | none => true
  if !en.isManager ∨ !mine ∨ en.number = 0 ∨ 7 < en.number then s
  else portsJudge (setPort f.port (fun x => { x with hops := some (f.hops + 1) })
    (setBrg (fun b => { b with manager := some en.uid, devnum := en.number, numbered := true }) s))

/-- ENUM_RECEIVE. -/
def execEnumReceive (t : Time) (f : Flit) (en : EnumMsg) (s : State) : Out :=
  .next (receive true f (fun a => if a.hth.role = 1 then enumManager f en a else enumWorker f en a) (s.at t))

/-! ## Timebase (R442-R444) -/

/-- A worker counts as a member: numbered, its aligner LOCKED or SLEWING, its active port up (R447). -/
def isMember (s : State) : Bool :=
  s.hth.role == 1 || (s.hth.role == 2 && s.brg.numbered && (s.tng.frm.st == .locked || s.tng.frm.st == .slewing)
    && s.brg.active != 0 && !s.brg.mgrLost)

/-- Shared values come into force; a new LIGHT_LEVEL starts its ramp at the next ramp step (R451, R452). -/
def shareApply (v : Shared) (s : State) : State :=
  let s1 := match v.light with
    | some l => if s.brg.shared.light = some l then s else setLightLevel l.1 l.2 s
    | none => s
  setBrg (fun b => { b with shared := v }) s1

/-- TIME_MARK_RECEIVE: the mark is a reference edge at its reception less delay and CORRECTION (R443); its interval is
measured (R442); it brings the shared values (R451). -/
def markAccept (f : Flit) (tm : TimeMark) (s : State) : State :=
  let edge := s.now - s.brg.ports[f.port].comp - tm.correction
  let bad := match s.brg.mark with
    | some m => decide (16 < (((edge : Int) - m.1) - m.2.1).natAbs)
    | none => false
  let s1 := { refEdge .frame { s with now := edge } with now := s.now }
  let s2 := setBrg (fun b => { b with
    mark := some (edge, tm.period, tm.frame), frame := tm.frame, mismatch := if bad then b.mismatch + 1 else 0,
    mgrLost := false, sharedPend := tm.pendingShared }) s1
  if isMember s2 then shareApply tm.shared s2 else s2

def execTimeMarkReceive (t : Time) (f : Flit) (tm : TimeMark) (s : State) : Out :=
  .next (receive false f (fun a => if a.hth.role = 2 ∧ !a.brg.refuse then markAccept f tm a else a) (s.at t))

/-- REFCLK_MISMATCH_COUNT: eight frames in a row; marks are refused until reset and the worker coasts (R442). -/
def execRefclkMismatchCount (t : Time) (s : State) : Out :=
  let s := s.at t
  if s.hth.role = 2 ∧ 8 ≤ s.brg.mismatch ∧ !s.brg.refuse then
    .next (managerLost (raise evBrgRefclkMismatch 0 (setBrg (fun b => { b with refuse := true }) s)))
  else .next s

/-- DELAY_REQ_RECEIVE: the neighbour's question is answered. -/
def execDelayReqReceive (t : Time) (port : Fin 2) (_t1 : Time) (s : State) : Out :=
  let s := s.at t
  .next (if s.brg.ports[port].st = .up then sendMsg (.delayResp s.now s.now) s else s)

/-- DELAY_RESP_RECEIVE: one measurement (R444). -/
def execDelayRespReceive (t : Time) (port : Fin 2) (t2 t3 : Time) (s : State) : Out :=
  let s := s.at t
  match s.brg.ports[port].asked with
  | some t1 => .next (setPort port (fun x => { x with
      asked := none, delays := (((s.now - t1) - (t3 - t2)) / 2 :: x.delays).take 16 }) s)
  | none => .next s

/-- DELAY_MEASURE_TIMER, every 10 ms. -/
def execDelayMeasureTimer (t : Time) (s : State) : Out :=
  let s := s.at t
  let ask (p : Fin 2) (s : State) : State :=
    if s.brg.ports[p].st = .up then sendMsg (.delayReq s.now) (setPort p (fun x => { x with asked := some s.now }) s) else s
  .next (ask 1 (ask 0 s))

/-- The mean of the measurements, nearest: the target of the compensation (R444). -/
def delayMean (x : BrgPort) : Nat := rdiv (sumN x.delays) x.delays.length

/-- BRG_DELAY. -/
def brgDelay (s : State) : Nat :=
  delayMean s.brg.ports[(1 : Fin 2)] % 65536 * 65536 + delayMean s.brg.ports[(0 : Fin 2)] % 65536

/-! ## Membership (R447, R456) -/

/-- One worker's record changed. -/
def setWorker (n : Nat) (f : Worker → Worker) (s : State) : State :=
  setBrg (fun b => { b with workers := b.workers.map fun w => if w.number = n then f w else w }) s

/-- BRG_MEMBERS follows the records of the workers. -/
def membersFollow (s : State) : State :=
  setBrg (fun b => { b with
    members := BitVec.ofNat 8 (1 + sumN ((b.workers.filter (·.member)).map fun w => 2 ^ w.number)) }) s

/-- A worker leaves membership: BRG_WORKER_LOST. -/
def dropMember (n : Nat) (s : State) : State :=
  if s.brg.workers.any fun w => w.number == n && w.member then
    raise evBrgWorkerLost (2 ^ n) (membersFollow (setWorker n (fun w => { w with member := false }) s))
  else s

/-- A STATUS on the manager. -/
def statusTake (n : Nat) (ws : WorkerStatus) (s : State) : State :=
  match s.brg.workers.find? fun w => w.number == n with
  | none => s
  | some w =>
    let s1 := setWorker n (fun w => { w with lastStatus := s.now, throttle := ws.throttle, cmpSeq := ws.cmpSeq }) s
    if !ws.alignerOk then dropMember n s1
    else if w.member then s1
    else
      let s2 := membersFollow (setWorker n (fun w => { w with member := true, was := true }) s1)
      raiseIf w.was evBrgWorkerJoined (ws.cmpSeq % 65536 * 256 + n) s2

def execBrugoStatusReceive (t : Time) (f : Flit) (ws : WorkerStatus) (s : State) : Out :=
  .next (receive false f (fun a => if a.hth.role = 1 then statusTake f.src ws a else a) (s.at t))

/-- MEMBER_STATUS_TIMEOUT: no STATUS for 2 frame periods. -/
def execMemberStatusTimeout (t : Time) (dev : Fin 8) (s : State) : Out :=
  let s := s.at t
  let late := s.brg.workers.any fun w => w.number == dev.val && decide (w.lastStatus + 2 * s.tng.framePeriod ≤ s.now)
  .next (if s.hth.role = 1 ∧ late then dropMember dev.val s else s)

/-- MANAGER_LOSS: no mark accepted for 1.5 frame periods (R455). -/
def execManagerLoss (t : Time) (s : State) : Out :=
  let s := s.at t
  let late : Bool := match s.brg.mark with
    | some m => decide (3 * m.2.1 ≤ 2 * (s.now - m.1))
    | none => true
  .next (if s.hth.role = 2 ∧ s.brg.numbered ∧ late then managerLost s else s)

/-! ## Commands, replies and events of workers (R79, R439, R457) -/

/-- BRUGO_CMD_RECEIVE: the packet joins the worker's interpreter. -/
def execBrugoCmdReceive (t : Time) (f : Flit) (packet : List Byte) (s : State) : Out :=
  .next (receive false f (fun a => if a.hth.role = 2 then packetIn .brugo packet a else a) (s.at t))

/-- A worker's reply reaches the manager: the request it answers, and what it says. Replies are matched by device, opcode
and tag, the oldest waiting request first: DESIGN CHOICE where two transports forwarded the same ones (R80, log 70).
With EVT set, records and their count byte stand behind the payload (R81). -/
def replyTake (n : Nat) (b : List Byte) (s : State) : State :=
  match s.brg.fwds.find? fun f => f.waiting.contains n && f.rq.opcode == byteAt b 1 && f.rq.tag == b.getD 2 0 with
  | none => s
  | some f =>
    let st := byteAt b 3 % 128
    let all := le16 b 4
    let ride := if bit (byteAt b 3) 7 then min all (8 * byteAt b (5 + all) + 1) else 0
    let len := all - ride
    let f1 : Fwd := { f with
      waiting := f.waiting.erase n, status := f.status ++ [(n, st)],
      items := if st ≠ 0 ∧ len = 1 then f.items ++ [(n, byteAt b 6)] else f.items, payload := slice b 6 len,
      riders := slice b (6 + len) ride }
    let s1 := setBrg (fun x => { x with fwds := x.fwds.map fun y => if y = f then f1 else y }) s
    if f1.waiting.isEmpty then finishFwd f1 s1 else s1

def execBrugoReplyReceive (t : Time) (f : Flit) (packet : List Byte) (s : State) : Out :=
  .next (receive false f (fun a => if a.hth.role = 1 then replyTake f.src packet a else a) (s.at t))

/-- A record joins the forwarded queue of 64 (R457). The completion of a command pending on the worker frees its tag. -/
def fwdPush (n : Nat) (r : EvRec) (s : State) : State :=
  let x : Rec := { id := r.id, sev := r.sev, detail := r.detail, count := r.count, time := r.time, device := n,
                   taken := 0, piggy := false }
  let q := s.evt.fwd ++ [x]
  let s1 : State := { s with evt := { s.evt with fwd := q.drop (q.length - 64) } }
  let s2 := raiseIf (decide (64 < q.length)) evBrgFwdOverflow 0 s1
  let tag : Byte := BitVec.ofNat 8 (fld r.detail 14 8)
  match s2.hst.pend.find? fun k => k.fwd && k.tag == tag && k.opcode == fld r.detail 7 7 with
  | some k =>
    if r.id = evHstCmdDone then
      setHst (fun h => { h with pend := h.pend.erase k, outst := dropOutst k.port k.tag h.outst }) s2
    else s2
  | none => s2

def execBrugoEventReceive (t : Time) (f : Flit) (records : List EvRec) (s : State) : Out :=
  .next (receive false f (fun a => if a.hth.role = 1 then records.foldl (fun b r => fwdPush f.src r b) a else a) (s.at t))

/-! ## The Anvil mirror (R453, R454) -/

/-- A worker is a member. -/
def hasMembers (s : State) : Bool := s.brg.workers.any (·.member)

/-- ANVIL_MIRROR_SEND, 250 us before each frame start: the manager's own image takes the same states. -/
def execAnvilMirrorSend (t : Time) (s : State) : Out :=
  let s := s.at t
  let due := decide (s.tng.frameAt + s.tng.framePeriod ≤ s.now + 250 * us) && s.brg.mirrorSent != s.brg.frame + 1
  if s.hth.role = 1 ∧ hasMembers s ∧ due then
    let m : Mirror := { frame := s.brg.frame + 1, states := s.anv.states.toList.map (·.toNat), blink := s.blink,
                        ownerStale := s.anv.ownerStale }
    .next (sendMsg (.mirror m) (setBrg (fun b => { b with mirror := some m, mirrorSent := s.brg.frame + 1 }) s))
  else .next s

/-- The owner of a worker goes stale, or is no longer (R145, R454). -/
def workerStale (stale : Bool) (s : State) : State :=
  if stale = s.anv.ownerStale then s
  else judgeHolder (raiseIf stale evAnvOwnerStale 0 (setAnv (fun a => { a with ownerStale := stale }) s))

/-- A mirror on a worker: its states stand for the worker's own. -/
def mirrorTake (m : Mirror) (s : State) : State :=
  let s1 := setBrg (fun b => { b with mirror := some m, mirrorMiss := 0 }) s
  workerStale m.ownerStale ((List.range 256).foldl (fun a n => setFnState n (m.states.getD n 0) a) s1)

def execAnvilMirrorReceive (t : Time) (f : Flit) (m : Mirror) (s : State) : Out :=
  .next (receive false f (fun a => if a.hth.role = 2 then mirrorTake m a else a) (s.at t))

/-- MIRROR_MISSING_COUNT: three frame starts in a row without a mirror. -/
def execMirrorMissingCount (t : Time) (s : State) : Out :=
  let s := s.at t
  .next (if s.hth.role = 2 ∧ 3 ≤ s.brg.mirrorMiss then workerStale true s else s)

/-! ## The barrier on the manager (R446, R448, R449) -/

/-- The workers named by TARGET. -/
def namedBy (target : Nat) (s : State) : List Nat :=
  if target = 15 then (s.brg.workers.filter (·.member)).map (·.number) else [target].filter (· != 0)

/-- The manager itself is named. -/
def namesSelf (target : Nat) : Bool := target == 15 || target == 0

/-- TARGET names a device that is no member (R449). -/
def badTarget (target : Nat) (s : State) : Bool := target != 15 && !s.brg.members.toNat.testBit target

/-- A barrier fails for a device: reason and DETAIL; the first device in ascending number is kept. -/
def barrierCause (n reason detail : Nat) (s : State) : State :=
  setBrg (fun b => { b with barrier := b.barrier.map fun x => { x with
    cause := match x.cause with
      | some c => if n < c.1 then some (n, reason, detail) else some c
      | none => some (n, reason, detail) } }) s

/-- The barrier ends in CANCEL. -/
def barrierCancels (x : Barrier) (s : State) : State :=
  let s1 := sendMsg (.cancel x.number) (setBrg (fun b => { b with
    barrier := b.barrier.map fun (y : Barrier) => { y with decided := some false } }) s)
  if x.ramp.isSome then setTng (fun y => { y with bellows := none }) s1 else s1

/-- All votes stand: APPLY when every named worker voted YES, else CANCEL (step 3). -/
def barrierDecide (s : State) : State :=
  match s.brg.barrier with
  | none => s
  | some x =>
    if x.decided.isSome then s
    else if x.cause.isNone then
      let s1 := sendMsg (.apply x.number) (setBrg (fun b => { b with
        barrier := b.barrier.map fun (y : Barrier) => { y with decided := some true } }) s)
      match x.ramp with
      | some r => rateAccept r.1 r.2.1 r.2.2 (some x.apply) s1
      | none => s1
    else barrierCancels x s

/-- A barrier begins over the named workers (step 1). -/
def barrierStart (rq : Req) (frames : Nat) (ramp : Option (Nat × Nat × Nat)) (s : State) : State :=
  let named := namedBy (rqTarget rq) s
  let no := s.brg.barrierNo + 1
  let a := s.brg.frame + frames
  let x : Barrier := {
    number := no, key := reqKey rq, self := namesSelf (rqTarget rq), apply := a,
    applyTime := s.tng.frameAt + frames * s.tng.framePeriod, named := named, votes := [], decided := none, acks := [],
    cause := none, ramp := ramp }
  let s1 := named.foldl (fun y _ => sendMsg (.prepare no a (rqPacket rq)) y)
    (setBrg (fun b => { b with barrier := some x, barrierNo := no }) s)
  if named.isEmpty then barrierDecide s1 else s1

/-- BARRIER_VOTE. -/
def voteTake (n number : Nat) (yes : Bool) (element reason : Nat) (s : State) : State :=
  match s.brg.barrier with
  | none => s
  | some x =>
    if x.number ≠ number ∨ x.decided.isSome ∨ !x.named.contains n ∨ x.votes.any (fun v => v.1 == n) then s
    else
      let x1 : Barrier := { x with votes := x.votes ++ [(n, yes, element, reason)] }
      let s1 := setBrg (fun b => { b with barrier := some x1 }) s
      let s2 := if yes then s1
        else if reason = 0x55 then barrierCause n 0x55 0 s1
        else barrierCause n 0x50 (element % 256 + reason % 256 * 256) s1
      if x1.named.all fun m => x1.votes.any fun v => v.1 == m then barrierDecide s2 else s2

def execBarrierVote (t : Time) (f : Flit) (number : Nat) (yes : Bool) (element reason : Nat) (s : State) : Out :=
  .next (receive false f (fun a => if a.hth.role = 1 then voteTake f.src number yes element reason a else a) (s.at t))

/-- BARRIER_DECISION_DEADLINE, A - 1,200 us: a vote still missing counts as NO. -/
def execBarrierDecisionDeadline (t : Time) (s : State) : Out :=
  let s := s.at t
  match s.brg.barrier with
  | some x =>
    if x.decided.isSome ∨ s.now + 1200 * us < x.applyTime then .next s
    else
      let missing := x.named.filter fun m => !(x.votes.any fun v => v.1 == m)
      .next (barrierDecide (missing.foldl (fun a n => barrierCause n 0x51 0 a) s))
  | none => .next s

/-- BARRIER_ACK. -/
def ackTake (n number : Nat) (s : State) : State :=
  setBrg (fun b => { b with barrier := b.barrier.map fun (x : Barrier) =>
    if x.number = number ∧ x.named.contains n ∧ !x.acks.contains n then { x with acks := x.acks ++ [n] } else x }) s

def execBarrierAck (t : Time) (f : Flit) (number : Nat) (s : State) : Out :=
  .next (receive false f (fun a => if a.hth.role = 1 then ackTake f.src number a else a) (s.at t))

/-- A device is a member now. -/
def memberNow (s : State) (n : Nat) : Bool := s.brg.members.toNat.testBit n

/-- BARRIER_ACK_DEADLINE, A - 600 us: APPLY not acknowledged, or membership lost, is a CANCEL (step 4). -/
def execBarrierAckDeadline (t : Time) (s : State) : Out :=
  let s := s.at t
  match s.brg.barrier with
  | some x =>
    if x.decided ≠ some true ∨ s.now + 600 * us < x.applyTime then .next s
    else
      let gone := x.named.filter fun n => !memberNow s n
      let late := x.named.filter fun n => memberNow s n && !x.acks.contains n
      let s1 := late.foldl (fun a n => barrierCause n 0x52 0 a) (gone.foldl (fun a n => barrierCause n 0x53 0 a) s)
      .next (if gone.isEmpty ∧ late.isEmpty then s1 else barrierCancels x s1)
  | none => .next s

/-- The status a device ends the barrier with (R449). -/
def barrierStatus (x : Barrier) (s : State) (n : Nat) : Nat :=
  let missed := x.decided != some true && x.votes.all fun v => v.1 != n
  if n = 0 then (if x.decided = some true ∧ (s.cmp.armed.isSome ∨ x.ramp.isSome) then 0 else 0x30)
  else if !memberNow s n || missed then 0x41
  else if x.decided = some true then 0 else 0x30

/-- At A the manager applies or discards its own snapshot, and the command completes (step 5, R449). -/
def barrierEnds (x : Barrier) (s : State) : State :=
  let all := (if x.self then [0] else []) ++ x.named
  let st := all.map fun n => (n, barrierStatus x s n)
  let s1 := match s.cmp.armed with
    | some y =>
      if !y.inBarrier then s
      else if x.decided = some true then commitApply y s.cmp.frameCount s
      else setCmp (fun c => { c with armed := none, phase := .idle }) s
    | none => if s.cmp.phase = .barrier then setCmp (fun c => { c with phase := .idle }) s else s
  let s2 := match x.cause with
    | some c => setCmp (fun y => { y with
        result := if x.ramp.isNone then 2 else y.result, rejection := Reject.bytes ⟨0x80 + c.1, c.2.1, c.2.2⟩ }) s1
    | none => s1
  cmdDone x.key (worstStatus st) (setBrg (fun b => { b with
    barrier := none, lastStatuses := (List.range 8).map fun n => (look st n).getD 0xFF }) s2)

/-! ## The barrier on a worker -/

/-- PREPARE: the worker validates its own shadow set, or the rate change, and votes (step 2). -/
def prepareTake (number apply : Nat) (b : List Byte) (s : State) : State :=
  let vote (yes : Bool) (el rs : Nat) (s : State) : State := sendMsg (.vote number yes el rs) s
  let p := slice b 6 (le16 b 4)
  if byteAt b 1 = 0x12 then
    let f := commitFlags p
    if s.cmp.armed.isSome then vote false (0x80 + s.brg.devnum) 0x55 s
    else match commitReject f s with
      | some r => vote false r.element r.reason s
      | none => vote true 0 0 (setBrg (fun x => { x with mine := some { number := number, apply := apply } })
          (commitArm f (apply - s.brg.frame) true s))
  else match (if rateFieldsOk p then rateRefused s true (le32 p 4) else some .badParam) with
    | some st => vote false (0x80 + s.brg.devnum) st.code s
    | none => vote true 0 0 (setBrg (fun x => { x with
        mine := some { number := number, apply := apply, ramp := some (byteAt p 1, le16 p 2, le32 p 4) } }) s)

def execBarrierPrepare (t : Time) (f : Flit) (number apply : Nat) (packet : List Byte) (s : State) : Out :=
  .next (receive false f (fun a => if a.hth.role = 2 then prepareTake number apply packet a else a) (s.at t))

/-- APPLY: acknowledged; a ramp is set for the apply frame. -/
def applyTake (number : Nat) (s : State) : State :=
  match s.brg.mine with
  | none => s
  | some m =>
    if m.number ≠ number ∨ m.applied then s
    else
      let s1 := sendMsg (.ack number) (setBrg (fun b => { b with mine := some { m with applied := true } }) s)
      match m.ramp with
      | some r => if m.cancelled then s1 else rateAccept r.1 r.2.1 r.2.2 (some m.apply) s1
      | none => s1

def execBarrierApply (t : Time) (f : Flit) (number : Nat) (s : State) : Out :=
  .next (receive false f (fun a => if a.hth.role = 2 then applyTake number a else a) (s.at t))

/-- CANCEL. -/
def cancelTake (number : Nat) (s : State) : State :=
  match s.brg.mine with
  | none => s
  | some m =>
    if m.number ≠ number then s
    else
      let s1 := setBrg (fun b => { b with mine := some { m with cancelled := true } }) s
      if m.ramp.isSome ∧ m.applied then setTng (fun y => { y with bellows := none }) s1 else s1

def execBarrierCancel (t : Time) (f : Flit) (number : Nat) (s : State) : Out :=
  .next (receive false f (fun a => if a.hth.role = 2 then cancelTake number a else a) (s.at t))

/-- At A a worker applies its snapshot when it holds APPLY, holds no CANCEL and is a member, else discards it. -/
def mineEnds (m : MyBarrier) (s : State) : State :=
  let go := m.applied && !m.cancelled && isMember s
  let s0 := setBrg (fun b => { b with mine := none }) s
  if m.ramp.isSome then (if go then s0 else setTng (fun y => { y with bellows := none }) s0)
  else match s0.cmp.armed with
    | some y => if !y.inBarrier then s0 else if go then commitApply y s0.cmp.frameCount s0 else abortCommit s0
    | none => s0

/-! ## Frame starts -/

/-- The worker's own frame number and misses advance; barriers whose apply frame has come end; announced values come
into force (R443, R448, R451, R454). -/
def brugoFrame (s : State) : State :=
  let s1 := setBrg (fun b => { b with
    frame := if s.hth.role = 1 then s.cmp.frameCount else if s.hth.role = 2 then b.frame + 1 else b.frame }) s
  let missed := match s1.brg.mirror with
    | some m => decide (m.frame < s1.brg.frame)
    | none => true
  let s2 := if s.hth.role = 2 then setBrg (fun b => { b with mirrorMiss := if missed then b.mirrorMiss + 1 else 0 }) s1
    else s1
  let s3 := match s2.brg.barrier with
    | some x => if x.apply ≤ s2.brg.frame then barrierEnds x s2 else s2
    | none => s2
  let s4 := match s3.brg.mine with
    | some m => if m.apply ≤ s3.brg.frame then mineEnds m s3 else s3
    | none => s3
  let due := s4.brg.sharedPend.filter fun p => decide (p.2 ≤ s4.brg.frame)
  let s5 := if isMember s4 then due.foldl (fun a p => shareApply p.1 a) s4 else s4
  setBrg (fun b => { b with sharedPend := b.sharedPend.filter fun p => !decide (p.2 ≤ s5.brg.frame) }) s5

/-- What the manager's settings ask to share: the colour target, and the lowest throttle factor among members (R451,
R452). -/
def wantedShared (s : State) : Shared :=
  let m := (s.brg.workers.filter (·.member)).foldl (fun a w => min a w.throttle) s.thm.throttle
  { colour := if wb s.brg.config 2 then some s.brg.colourTarget else none,
    dim := if wb s.brg.config 3 then some m else none, light := (lastShared s).light }

/-- Messages of a frame start: the manager announces changes and sends TIME_MARK, a worker sends STATUS and its waiting
records; compensations move by a tap (R439, R443, R444, R457). -/
def brugoSends (s : State) : State :=
  let step (x : BrgPort) : BrgPort :=
    let goal := delayMean x
    { x with comp := if x.comp < goal then x.comp + 1 else if goal < x.comp then x.comp - 1 else x.comp }
  let s0 := capEvents (setBrg (fun b => { b with ports := vmap step b.ports }) s)
  if s.hth.role = 1 then
    let w := wantedShared s0
    let s1 := if w = lastShared s0 then s0
      else setBrg (fun b => { b with sharedPend := b.sharedPend ++ [(w, b.frame + 2)] }) s0
    if anyPortUp s1 then
      sendMsg (.timeMark s1.brg.frame s1.tng.framePeriod 0 s1.brg.shared s1.brg.sharedPend) s1
    else s1
  else if s.hth.role = 2 ∧ s0.brg.active ≠ 0 ∧ s0.brg.numbered then
    let s1 := sendMsg (.status { throttle := s0.thm.throttle, cmpSeq := s0.cmp.seq, alignerOk := isMember s0 }) s0
    if s1.evt.brugo.isEmpty ∨ s1.brg.mgrLost then s1
    else
      let s2 := sendMsg (.event (s1.evt.brugo.take 10)) s1
      { s2 with evt := { s2.evt with brugo := s2.evt.brugo.drop 10 } }
  else s0

/-! ## COMMIT and TIMING_PROFILE -/

/-- A COMMIT with FORWARD = 1 (R448). -/
def commitForwarded (rq : Req) (s : State) : Ans :=
  let f := commitFlags rq.payload
  let t := rqTarget rq
  if s.cmp.armed.isSome ∨ s.brg.barrier.isSome then deny .busy s
  else match (if namesSelf t then commitReject f s else none) with
    | some r => commitRejected r s
    | none =>
      if badTarget t s then commitRejected ⟨0x80 + t, 0x54, t⟩ s
      else
        let n := framesUntil s (2500 * us)
        let s1 := if namesSelf t then commitArm f n true s else setCmp (fun c => { c with phase := .barrier }) s
        (barrierStart rq n none s1, .pending, [])

/-- COMMIT as it runs. -/
def commitRun (rq : Req) (s : State) : Ans :=
  match commitPre rq s with
  | some r => (s, r.1, r.2)
  | none => if rqForward rq && rq.port != .brugo then commitForwarded rq s
    else if s.brg.barrier.isSome then deny .busy s else commitLocal rq s

def commitBody (rq : Req) (s : State) : Ans :=
  match commitPre rq s with
  | some r => (s, r.1, r.2)
  | none => deferrable commitPre commitRun rq s

def execCommit (t : Time) (rq : Req) (s : State) : Out := .next (serve 0x12 commitBody rq (s.at t))

/-- RATE: on a manager with workers only as a broadcast barrier (R446). -/
def rateBody (rq : Req) (s : State) : Ans :=
  let p := rq.payload
  let fwd := rqForward rq && rq.port != .brugo
  let all := fwd && rqTarget rq == 15
  if !rateFieldsOk p then deny .badParam s
  else if (s.hth.role = 1 ∧ !s.brg.workers.isEmpty ∧ !all) ∨ (fwd ∧ !all) then deny .wrongState s
  else if !fwd then profileRate p s
  else if s.brg.barrier.isSome then deny .busy s
  else match rateRefused s false (le32 p 4) with
    | some st => deny st s
    | none => (barrierStart rq (framesUntil s (2500 * us)) (some (byteAt p 1, le16 p 2, le32 p 4)) s, .pending, [])

/-- TIMING_PROFILE (R515). -/
def timingProfileBody (rq : Req) (s : State) : Ans :=
  match byteAt rq.payload 0 with
  | 0 => profileEngine rq.payload s
  | 1 => rateBody rq s
  | 2 => profileVct rq.payload s
  | _ => deny .badParam s

def execTimingProfile (t : Time) (rq : Req) (s : State) : Out := .next (serve 0x38 timingProfileBody rq (s.at t))

/-! ## BRG_STATUS (R458) -/

def portCodeOf : PortSt → Nat
  | .off => 0 | .training => 1 | .up => 2 | .down => 3 | .disabled => 4

def brgStatus (s : State) : Nat :=
  s.brg.devnum * 2 ^ 24 + b2n s.brg.mgrLost * 2 ^ 16 + portCodeOf s.brg.ports[(1 : Fin 2)].st * 2 ^ 12
    + portCodeOf s.brg.ports[(0 : Fin 2)].st * 256 + s.brg.active * 16 + s.brg.topo * 4 + s.hth.role

end Sys2Proof.Machine
end

