-- ==== Sys2Proof/Machine/Matrix.lean ====
section
/-! DEFINITION. The backup LED matrix (R288-R293, R562): lamp functions, the row slots and diagnostic
pulses of a matrix frame, LED faults, LAMP_FUNCTION_SET. -/

namespace Sys2Proof.Machine

/-- The matrix record changed. -/
def setMtx (f : Mtx → Mtx) (s : State) : State := { s with mtx := f s.mtx }

/-- LED 16 r + c belongs to a function. -/
def LampFn.has (f : LampFn) (led : Nat) : Bool := f.valid && f.mask.toNat.testBit led

/-- The valid function of an LED (R290: at most one). -/
def lampOf (s : State) (led : Nat) : Option (Fin 48) := (List.finRange 48).find? fun f => s.mtx.lamps[f].has led

/-- The LED is disabled by a confirmed fault (R293). -/
def ledFaulty (s : State) (led : Nat) : Bool :=
  let r : Fin 12 := Fin.ofNat 12 (led / 16)
  s.mtx.shorted[r].toNat.testBit (led % 16) || s.mtx.opened[r].toNat.testBit (led % 16)

/-! ## What the functions show (R31, R39, R150, R290) -/

/-- The matrix carries the telltales (R31, R145). -/
def matrixCarries (s : State) : Bool := s.hth.pwr != .off && s.anv.holderMatrix

/-- Rank of a function state in the order ON, BLINK_FAST, BLINK_SLOW, OFF (R150). -/
def stateRank (st : BitVec 2) : Nat := if st = 1 then 3 else if st = 3 then 2 else if st = 2 then 1 else 0

/-- The function states and blink phase that a matrix frame shows: on a worker those of the mirror (R454), else those held
now (R136). -/
def lampSource (s : State) : Vector (BitVec 2) 256 × Nat :=
  if s.hth.role = 2 then anvSource s else (s.anv.states, s.blink)

/-- The lamp shows light at this blink phase: the highest state of its Anvil functions (R150), or the lamp
check of an ignition function (R39, R290). -/
def lampOn (s : State) (f : Fin 48) : Bool :=
  let src := lampSource s
  let mapped : List (BitVec 2) := match s.anv.set with
    | some a => (a.functions.filter fun x => x.lamp == f.val).map fun x => src.1[Fin.ofNat 256 x.num]
    | none => []
  let top := maxN (mapped.map stateRank)
  let st : BitVec 2 := if top = 3 then 1 else if top = 2 then 3 else if top = 1 then 2 else 0
  (s.hth.lampCheck && s.mtx.lamps[f].ignition && !s.hth.lampCheckEnded.contains f.val) || stateOn st src.2

/-- The states of the 48 functions for a matrix frame. -/
def lampStates (s : State) : BitVec 48 :=
  BitVec.ofNat 48 (maskOf 48 fun i =>
    let f : Fin 48 := Fin.ofNat 48 i
    matrixCarries s && s.mtx.lamps[f].valid && !s.mtx.lampOff.toNat.testBit i && lampOn s f)

/-- On-time in steps of 125 ns: 264 us x min(1, L_m / 0.1), at least one step for a non-zero level (R289). -/
def lampTime (level : Nat) : Nat := if level = 0 then 0 else max 1 (min 2112 (rdiv (2112 * 10 * level) 65535))

/-- The sink code of an LED: CURRENT x g, g = max(L_m, 0.1) in steps of 1/255; both rounded to nearest (R289,
log 41); a limited column takes at most 20 mA (R562). -/
def sinkCode (level current : Nat) (limited : Bool) : Nat :=
  let g := max (rdiv (255 * level) 65535) 26
  let c := rdiv (current * g) 255
  if limited then min c 127 else c

/-- The LEDs lit in a row slot: column, sink code, on-time. -/
def rowLeds (s : State) (r : Fin 12) : List (Nat × Nat × Nat) :=
  let level := wfl s.mtx.level 0 16
  let tm := lampTime level
  if tm = 0 then []
  else (List.range 16).filterMap fun c =>
    match lampOf s (16 * r.val + c) with
    | some f =>
      let code := sinkCode level s.mtx.lamps[f].current.toNat (s.mtx.limited.toNat.testBit c)
      if s.mtx.on.toNat.testBit f.val && !ledFaulty s (16 * r.val + c) && code != 0 then some (c, code, tm) else none
    | none => none

/-- The LEDs that the diagnostic slot of matrix frame `m` pulses, with the sink code of the pulse, 10 % of CURRENT and at
least 1 (R292): those of valid functions without a diagnosis in the 32 frames that end now; none that a fault has disabled,
alone or with its function (R293). -/
def diagLeds (s : State) (m : Nat) : List (Nat × Nat) :=
  if 12 ≤ m % 32 then []
  else ((List.range 16).map (16 * (m % 32) + ·)).filterMap fun led =>
    match lampOf s led with
    | none => none
    | some f =>
      let due := match look s.mtx.diagnosed led with
        | some d => decide (d + 32 ≤ m)
        | none => true
      if ledFaulty s led || s.mtx.lampOff.toNat.testBit f.val || !due then none
      else some (led, max 1 (rdiv s.mtx.lamps[f].current.toNat 10))

/-- MATRIX_FRAME_START: states are fixed, the diagnostic slot is chosen (R288, R292). -/
def execMatrixFrameStart (t : Time) (s : State) : Out :=
  let s := s.at t
  if s.hth.pwr = .off ∨ s.hth.boot = .hold then .next s
  else .next (setMtx (fun m => { m with on := lampStates s, diag := diagLeds s m.frame, row := [],
                                        frame := m.frame + 1 }) s)

/-! ## Diagnosis (R291, R293) -/

/-- A confirmed fault of an LED: its sink is disabled; an all-or-nothing function goes off whole. -/
def confirmFault (led : Nat) (short : Bool) (s : State) : State :=
  let r : Fin 12 := Fin.ofNat 12 (led / 16)
  let bitv : BitVec 16 := BitVec.ofNat 16 (2 ^ (led % 16))
  let s1 := setMtx (fun m => if short then { m with shorted := updWith m.shorted r (· ||| bitv) }
                             else { m with opened := updWith m.opened r (· ||| bitv) }) s
  match lampOf s led with
  | some f =>
    if s.mtx.lamps[f].allOrNothing then
      if s.mtx.lampOff.toNat.testBit f.val then s1
      else raise evHthLampFuncOff f.val
        (setMtx (fun m => { m with lampOff := m.lampOff ||| BitVec.ofNat 48 (2 ^ f.val),
                                   on := m.on &&& ~~~(BitVec.ofNat 48 (2 ^ f.val)) }) s1)
    else raise evHthLampLedFault (f.val * 65536 + b2n short * 32768 + led / 16 * 256 + led % 16) s1
  | none => s1

/-- One diagnosis of an LED at a column voltage and row supply in mV (R291): a second like fault confirms it,
another outcome restarts the count; no short is confirmed on a limited column (R562). -/
def diagnose (led volt rowSupply : Nat) (s : State) : State :=
  let low := decide (volt < 200)
  let high := !low && decide (rowSupply < volt + 1000) && !s.mtx.limited.toNat.testBit (led % 16)
  let m := s.mtx
  let s1 := setMtx (fun m => { m with
    diagnosed := put m.diagnosed led (m.frame - 1),
    openOnce := if low then (led :: m.openOnce).dedup else m.openOnce.filter (· != led),
    shortOnce := if high then (led :: m.shortOnce).dedup else m.shortOnce.filter (· != led) }) s
  if low && m.openOnce.contains led then confirmFault led false s1
  else if high && m.shortOnce.contains led then confirmFault led true s1
  else s1

/-- MATRIX_ROW_SLOT: the row's LEDs light; those lit at least 4 us, and those of the row that this frame's
diagnostic slot pulses, are diagnosed at the column voltages given, in mV (R291, R292, log 42). -/
def execMatrixRowSlot (t : Time) (row : Fin 12) (volts : List Nat) (rowSupply : Nat) (s : State) : Out :=
  let s := s.at t
  if s.hth.pwr = .off ∨ s.hth.boot = .hold then .next s
  else
    let leds := rowLeds s row
    let seen := (leds.filter fun x => decide (32 ≤ x.2.2)).map (16 * row.val + ·.1)
      ++ (s.mtx.diag.map (·.1)).filter fun l => l / 16 == row.val
    .next ((seen.dedup).foldl (fun a l => diagnose l (volts.getD (l % 16) 0) rowSupply a)
      (setMtx (fun m => { m with row := leds }) s))

/-- COLUMN_OVERVOLTAGE_COUNT: 8 matrix frames above 2.0 V limit the column (R562). -/
def execColumnOvervoltageCount (t : Time) (row : Fin 12) (col : Fin 16) (s : State) : Out :=
  let s := s.at t
  if s.hth.pwr = .off ∨ s.hth.boot = .hold ∨ s.mtx.limited.toNat.testBit col.val then .next s
  else
    let f := match lampOf s (16 * row.val + col.val) with
      | some f => f.val
      | none => 0
    .next (raise evHthLampLedFault (f * 65536 + row.val * 256 + col.val)
      (setMtx (fun m => { m with limited := m.limited ||| BitVec.ofNat 16 (2 ^ col.val) }) s))

/-! ## LAMP_FUNCTION_SET (R517, R290) -/

/-- The entry of 32 bytes (R289). -/
def lampEntry (b : List Byte) : LampFn :=
  let n := leNat b
  { mask := BitVec.ofNat 192 (n / 2 ^ 64), current := BitVec.ofNat 8 (fld n 56 8),
    ignition := bit n 2, allOrNothing := bit n 1, valid := bit n 0 }

/-- A function rewritten: the confirmed faults of its own LEDs are cleared and diagnosed anew (R293, R517). -/
def setLamp (i : Fin 48) (f : LampFn) (s : State) : State :=
  let leds := (List.range 192).filter fun l => s.mtx.lamps[i].has l || f.has l
  let clr (v : Vector (BitVec 16) 12) : Vector (BitVec 16) 12 := tab 12 fun r =>
    v[r] &&& ~~~(BitVec.ofNat 16 (maskOf 16 fun c => leds.contains (16 * r.val + c)))
  setMtx (fun m => { m with
    lamps := upd m.lamps i f, lampOff := m.lampOff &&& ~~~(BitVec.ofNat 48 (2 ^ i.val)),
    shorted := clr m.shorted, opened := clr m.opened,
    shortOnce := m.shortOnce.filter (fun l => !leds.contains l),
    openOnce := m.openOnce.filter (fun l => !leds.contains l),
    diagnosed := m.diagnosed.filter (fun p => !leds.contains p.1) }) s

/-- LAMP_FUNCTION_SET. -/
def lampFunctionSetBody (rq : Req) (s : State) : Ans :=
  let p := rq.payload
  let i : Fin 48 := Fin.ofNat 48 (byteAt p 0)
  let b := slice p 4 32
  let f := lampEntry b
  let clash := f.valid && (List.finRange 48).any fun j =>
    j != i && s.mtx.lamps[j].valid && s.mtx.lamps[j].mask &&& f.mask != 0
  if 48 ≤ byteAt p 0 ∨ !zeroAt p 1 3 ∨ fld (leNat b) 3 53 ≠ 0 then deny .badParam s
  else if s.otp.lifecycle = 3 ∧ f ≠ s.mtx.stored[i] then deny .deniedLifecycle s
  else if clash then deny .badParam s
  else (setLamp i f s, .ok, [])

def execLampFunctionSet (t : Time) (rq : Req) (s : State) : Out :=
  .next (serve 0x29 lampFunctionSetBody rq (s.at t))

end Sys2Proof.Machine
end

