-- ==== Sys2Proof/Machine/Security.lean ====
section
/-! DEFINITION. Identity, life cycle and firmware: IDENTIFY (R497), attestation (R462), life-cycle transitions (R467,
R468), limited settings (R469-R472), image loads and the start-up capture (R532-R534), activation of pending images
(R476), LINK_TOPOLOGY (R528). -/

namespace Sys2Proof.Machine

/-! ## IDENTIFY (R497) and attestation (R462) -/

/-- The device certificate as IDENTIFY returns it: none in BLANK and SCRAPPED. -/
def certificate (s : State) : List Byte :=
  if s.otp.lifecycle = 0 ∨ s.otp.lifecycle = 5 then [] else s.otp.certificate.take 1024

/-- `n` bytes from `i` on, zero beyond the end. -/
def padSlice (l : List Byte) (i n : Nat) : List Byte :=
  let b := slice l i n
  b ++ List.replicate (n - b.length) 0

/-- IDENTIFY. -/
def identifyBody (rq : Req) (s : State) : Ans :=
  match byteAt rq.payload 0 with
  | 0 => (s, .ok, s.otp.uidBytes ++ leBytes 2 0x7720 ++ leBytes 1 s.otp.stepping ++ leBytes 1 s.otp.lifecycle
      ++ leBytes 4 s.hth.patchVer ++ leBytes 4 s.hth.mainVer ++ leBytes 1 s.hth.patchSvn ++ leBytes 1 s.hth.mainSvn
      ++ leBytes 2 (certificate s).length)
  | 1 => (s, .ok, padSlice (certificate s) 0 512)
  | 2 => (s, .ok, padSlice (certificate s) 512 512)
  | _ => deny .badParam s

def execIdentify (t : Time) (rq : Req) (s : State) : Out := .next (serve 0x01 identifyBody rq (s.at t))

/-- The signed part of the reply of ATTEST_CHALLENGE: its bytes 0-115. -/
def attestBytes (nonce : List Byte) (s : State) : List Byte :=
  s.otp.uidBytes ++ padSlice nonce 0 32 ++ padSlice s.sec.measurement 0 32
    ++ leBytes 1 s.otp.lifecycle ++ leBytes 1 s.otp.pairing.length ++ leBytes 1 s.otp.ownerKey.length ++ [0]
    ++ padSlice ((slotValue s.otp.pairing).getD []) 0 32

/-- ATTEST_CHALLENGE: ECDSA over the SHA-256 digest under the device key (log 12). -/
def attestChallengeBody (rq : Req) (s : State) : Ans :=
  let b := attestBytes rq.payload s
  let sig := Config.deviceSign (sha256 b) s.free
  ({ s with free := s.free + 1 }, .ok, b ++ padSlice sig.1 0 32 ++ padSlice sig.2 0 32)

def execAttestChallenge (t : Time) (rq : Req) (s : State) : Out :=
  .next (serve 0x68 attestChallengeBody rq (s.at t))

/-! ## Boot-flash images (R473-R476) -/

/-- An Anvil set carries a valid CMAC under the owner key in force (R127), and no reserved field of its function and zone
entries is set (R4). -/
def anvSetOk (s : State) (a : AnvSet) : Bool :=
  ownerKey s == some a.signedUnder && a.functions.all (·.reserved == 0) && a.zones.all (·.reserved == 0)

/-- A slot of Anvil sets that a reset may use holds a valid set. -/
def anvStored (s : State) : Bool :=
  let ok (o : Option AnvSet) : Bool := match o with
    | some a => anvSetOk s a
    | none => false
  ok s.flash.anvil[s.flash.anvActive] || (s.flash.anvPending && ok s.flash.anvil[other s.flash.anvActive])

/-! ## Life-cycle transitions (R467) -/

/-- The further conditions of a transition. -/
def lcCondition (s : State) (target : Nat) : Bool :=
  if target = 2 then !s.otp.certificate.isEmpty
  else if target = 3 then
    s.otp.owner.isSome && (slotValue s.otp.market).isSome && anvStored s
      && (List.finRange 4).all fun e => !s.used e || (slotValue s.otp.emission[e]).isSome
  else true

/-- The transitions of the table. -/
def lcAllowed (cur target : Nat) : Bool :=
  (cur == 0 && target == 1) || (cur == 1 && target == 2) || (cur == 2 && target == 3) || (cur == 3 && target == 4)
    || (decide (1 ≤ cur) && decide (cur ≤ 4) && target == 5)

/-- The authorisation of a transition: a Sarlor token, or an owner MAC where the table admits one. -/
def lcAuthorised (s : State) (target : Nat) (p : List Byte) : Bool :=
  let m := s.otp.uidBytes ++ leBytes 1 s.otp.lifecycle ++ leBytes 1 target
  if byteAt p 1 = 0 then target != 3 && Config.sarlorToken m (slice p 4 64)
  else (target == 3 || target == 5) && match s.otp.owner with
    | some k => mac8 k m == slice p 4 8
    | none => false

/-- LIFECYCLE_ADVANCE (R467, R530), checked in the order of log 30. -/
def lifecycleAdvanceBody (rq : Req) (s : State) : Ans :=
  let p := rq.payload
  let target := byteAt p 0
  let auth := byteAt p 1
  if (auth = 0 ∧ p.length ≠ 68) ∨ (auth = 1 ∧ p.length ≠ 12) ∨ 2 ≤ auth ∨ !zeroAt p 2 2
      ∨ !lcAllowed s.otp.lifecycle target then deny .badParam s
  else if !lcAuthorised s target p then deny .deniedOwner s
  else if target = 3 ∧ s.otp.owner = none then deny .wrongState s
  else if !lcCondition s target then deny .wrongState s
  else match writeRefused s with
    | some st => deny st s
    | none => (setSec (fun x => { x with otpJob := some (.lifecycle (reqKey rq) target) }) s, .pending, [])

def execLifecycleAdvance (t : Time) (rq : Req) (s : State) : Out :=
  .next (serve 0x69 lifecycleAdvanceBody rq (s.at t))

/-! ## Limited settings (R469, R470) -/

/-- The slots of a setting, and their number. -/
def settingSlots (o : Otp) (code : Nat) (e : Fin 4) : List OtpSlot × Nat :=
  match code with
  | 1 => (o.emission[e], 8)
  | 2 => (o.pairing, 4)
  | 3 => (o.ownerKey, 4)
  | _ => (o.market, 2)

/-- The slots of a setting replaced. -/
def setSlots (code : Nat) (e : Fin 4) (l : List OtpSlot) (o : Otp) : Otp :=
  match code with
  | 1 => { o with emission := upd o.emission e l }
  | 2 => { o with pairing := l }
  | 3 => { o with ownerKey := l }
  | _ => { o with market := l }

/-- A value that R469 admits. -/
def settingOk (code : Nat) (v : List Byte) : Bool :=
  match code with
  | 1 => le16 v 2 != 0 && le16 v 0 != 0 && decide (le16 v 2 ≤ le16 v 0)
  | 2 => zeroAt v 24 8
  | 3 => v.any fun b => b != v.headD 0
  | _ => zeroAt v 6 2

/-- LIMITED_SETTING_WRITE: the checks of R470 in their order. A slot is consumed as its programming begins; its CRC
holds only after a correct read-back. -/
def limitedSettingWriteBody (rq : Req) (s : State) : Ans :=
  let p := rq.payload
  let code := byteAt p 0
  let e : Fin 4 := Fin.ofNat 4 (byteAt p 1)
  let v := slice p 4 (p.length - 12)
  let mac := slice p (p.length - 8) 8
  let l := settingSlots s.otp code e
  let lc := s.otp.lifecycle
  let macOk := match s.otp.owner with
    | some k => mac8 k (s.otp.uidBytes ++ slice p 0 2 ++ v ++ leBytes 1 l.1.length) == mac
    | none => lc == 2 && mac == List.replicate 8 0
  if lc ≠ 2 ∧ lc ≠ 3 then deny .deniedLifecycle s
  else if code = 0 ∨ 4 < code ∨ (if code = 1 then 3 else 0) < byteAt p 1 ∨ !zeroAt p 2 2 then deny .badParam s
  else if l.2 ≤ l.1.length then deny .limitExhausted s
  else if !macOk then deny .deniedOwner s
  else if !settingOk code v then deny .badParam s
  else match writeRefused s with
    | some st => deny st s
    | none =>
      let s1 : State := { s with otp := setSlots code e (l.1 ++ [{ value := v, crcOk := false }]) s.otp }
      (setSec (fun x => { x with otpJob := some (.setting (reqKey rq) code e.val v) }) s1, .pending, [])

def execLimitedSettingWrite (t : Time) (rq : Req) (s : State) : Out :=
  .next (serve 0x6A limitedSettingWriteBody rq (s.at t))

/-! ## OTP_WRITE_COMPLETE (R468, R470) -/

/-- A slot has been programmed and read back. -/
def settingWritten (key : PendKey) (code : Nat) (e : Fin 4) (v : List Byte) (ok : Bool) (s : State) : State :=
  let l := (settingSlots s.otp code e).1
  if ok then
    let s1 : State := { s with otp := setSlots code e (l.dropLast ++ [{ value := v, crcOk := true }]) s.otp }
    cmdDone key .ok (if code = 3 then setAnv (fun a => { a with session := none }) s1 else s1)
  else cmdDone key .hwFault (raise evSecOtpFail (e.val * 256 + code) s)

/-- A state word that was programmed in part: the bits it had and any others, not all of them (R464). -/
def partWord (old : Word) (s : State) : Word :=
  let w := old ||| toW s.fresh.1
  if w = 0xFFFFFFFF then old else w

/-- A life-cycle word has been programmed and read back; the device resets 10 ms later. -/
def lifecycleWritten (key : PendKey) (target : Nat) (ok : Bool) (s : State) : State :=
  let i : Fin 5 := Fin.ofNat 5 (target - 1)
  let s0 := setHth (fun h => { h with resetDue := some (s.now + 10 * ms) }) s
  if ok then
    let o := s0.otp
    let s1 : State := { s0 with
      otp := { o with
        lcWords := upd o.lcWords i 0xFFFFFFFF,
        deviceKey := if target = 1 then .present else if target = 5 then .destroyed else o.deviceKey },
      flash := { s0.flash with wipe := if target = 4 ∨ target = 5 then target else s0.flash.wipe } }
    raise evSecLcAdvanced target (cmdDone key .ok s1)
  else
    let w := partWord s0.otp.lcWords[i] s0
    cmdDone key .hwFault { s0.fresh.2 with otp := { s0.otp with lcWords := upd s0.otp.lcWords i w } }

/-- OTP_WRITE_COMPLETE. -/
def execOtpWriteComplete (t : Time) (readBackOk : Bool) (s : State) : Out :=
  let s := s.at t
  let s0 := setSec (fun x => { x with otpJob := none }) s
  match s.sec.otpJob with
  | none => .next s
  | some (.setting key code index value) => .next (settingWritten key code (Fin.ofNat 4 index) value readBackOk s0)
  | some (.lifecycle key target) => .next (lifecycleWritten key target readBackOk s0)

/-! ## Image loads (R533) -/

/-- The largest image of a slot (R473). -/
def imageMax (image : Nat) : Nat := if image = 1 then 262144 else if image = 2 then 2621440 else 2359296

/-- The slot of an image type that a load writes is invalid while it is written (R475). -/
def slotInvalid (image : Nat) (s : State) : State :=
  let f := s.flash
  { s with flash := match image with
    | 1 => { f with patch := upd f.patch (other f.patchActive) none }
    | 2 => { f with main := upd f.main (other f.mainActive) none }
    | _ => { f with anvil := upd f.anvil (other f.anvActive) none } }

/-- The index of an image type's partial load. -/
def loadIx (image : Nat) : Fin 3 := Fin.ofNat 3 (image - 1)

/-- One segment of an image (R532, R533). -/
def imageSegment (rq : Req) (s : State) : Ans :=
  let p := rq.payload
  let image := byteAt p 0
  let first := bit (byteAt p 1) 0
  let last := bit (byteAt p 1) 1
  let ofs := le32 p 4
  let total := le32 p 8
  let data := p.drop 12
  let old := if first then some { image := image, bytes := [], total := total } else s.sec.loads[loadIx image]
  match old with
  | none => deny .badParam s
  | some (l : Load) =>
    if bit (byteAt p 1) 2 ∨ ofs ≠ l.bytes.length ∨ total ≠ l.total ∨ imageMax image < total
        ∨ total < ofs + data.length ∨ (last ∧ ofs + data.length ≠ total) then deny .badParam s
    else match writeRefused s with
      | some st => deny st s
      | none =>
        let s1 := setSec (fun x => { x with
          loads := upd x.loads (loadIx image) (if first then none else x.loads[loadIx image]),
          flashJob := some (.segment (reqKey rq) { l with bytes := l.bytes ++ data } last) }) s
        (if first then slotInvalid image s1 else s1, .pending, [])

/-! ## The start-up capture (R534) -/

/-- The Hearth records of a capture. -/
def captureHearth (s : State) : HearthRec :=
  { wakeConfig := s.hth.wakeConfig, ignOffDelay := s.hth.ignOffDelay, can := s.hth.canNext, mtxLevel := s.mtx.level,
    lamps := s.mtx.lamps }

/-- The bits of BRG_CONFIG that LINK_TOPOLOGY stores, and those the start-up record holds: DIM_EN and COLOUR_EN
(R436, R458). -/
def topologyBits (v : Word) : Word := v &&& 0xF8000003
def distributeBits (v : Word) : Word := v &&& 0xC

/-- Every other parameter, or field of one, whose reset is marked Flash (R548), by ID; the derating curves have a
field of their own. -/
def flashParams (s : State) : List (Nat × Word) :=
  ((List.finRange 4).flatMap fun e => [
      (0x0810 + e.val, s.swt[e].config &&& 0x3FFF0000), (0x0914 + e.val, s.scn[e].hrange),
      (0x0918 + e.val, s.scn[e].vert), (0x091C + e.val, s.scn[e].centre), (0x0920 + e.val, s.scn[e].bidir)])
    ++ ((List.finRange 24).map fun c => (0x0928 + c.val, s.scn[chanEng c].chDelay[Fin.ofNat 6 c.val]))
    ++ [(0x0A0A, s.frg.floor)]
    ++ ((List.finRange 24).map fun c => (0x0A10 + c.val, s.frg.ch[c].cfg))
    ++ ((List.finRange 64).map fun n => (0x0B40 + n.val, s.srv.loops[n].sp))
    ++ [(0x0C02, s.tng.config), (0x0D02, s.grn.config &&& 3), (0x0E07, s.thm.policy), (0x0F02, s.tmp.enable),
      (0x0F04, s.tmp.period), (0x1002, s.bst.config), (0x1102, distributeBits s.brg.config),
      (0x1103, s.brg.colourTarget), (0x1304, toW s.evt.gather)]

/-- The start-up record of a capture. -/
def captureStartup (omitWarp : Bool) (s : State) : Startup :=
  { engines := s.eng, rate := s.tng.rate, vct := tab 4 fun e => liveVct s.scn[e], canvas := s.cmp.canvas,
    depths := s.clw.depths, dither := s.clw.dither, slotRate := s.thr.slotRate,
    bandTiming := vmap (fun (t : ThrEng) => t.timing) s.thr.eng, focus := vmap (fun (t : ThrEng) => t.focus) s.thr.eng,
    fRef := vmap (fun (x : FrgEng) => x.fRef) s.frg.eng, winOrg := s.ing.winOrg, winSize := s.ing.winSize,
    dptx := ⟨#[s.ing.dptxConfig, s.ing.dptxH, s.ing.dptxV], rfl⟩, layers := s.cmp.live,
    gamut := tab 4 fun e => s.clw.gamut[e][s.clw.gamutLive[e]],
    sheaf := tab 4 fun e => liveReq s.thr.eng[e],
    warp := tab 4 fun e => if omitWarp then Vector.replicate 12 {} else s.clw.warp[e].dirs[s.clw.warp[e].live],
    mesh := if omitWarp then [] else s.clw.mesh,
    loops := vmap (fun (l : Loop) => l.cfg) s.srv.loops, banks := vmap (fun (l : Loop) => l.banks[l.live]) s.srv.loops,
    enables := tab 20 fun g => toW (s.evt.enableWord g.val), routes := s.evt.routes,
    derate := vmap (fun (x : Chan) => x.curve) s.frg.ch, params := flashParams s }

/-- The bytes of a start-up record as the firmware lays it out (log 14). -/
def startupBytes (r : Startup) : Nat :=
  let dirs := r.warp.toList.flatMap (fun (v : Vector MeshSlot 12) => v.toList)
  Config.startupSize (sumN (dirs.map fun m => if m.valid then m.cols * m.rows else 0))
    (sumN (r.vct.toList.map (·.length)))

/-- The capture (R534). -/
def captureBody (rq : Req) (s : State) : Ans :=
  let p := rq.payload
  let r := captureStartup (bit (byteAt p 1) 2) s
  if le32 p 4 ≠ 0 ∨ le32 p 8 ≠ 0 ∨ 12 < p.length then deny .badParam s
  else if 65536 < startupBytes r then (s, .resourceExceeded, leBytes 4 (startupBytes r))
  else match writeRefused s with
    | some st => deny st s
    | none => (setSec (fun x => { x with flashJob := some (.capture (reqKey rq) r (captureHearth s)) }) s, .pending, [])

/-- FIRMWARE_LOAD (R532). -/
def firmwareLoadBody (rq : Req) (s : State) : Ans :=
  let p := rq.payload
  let image := byteAt p 0
  if !(image == 1 || image == 2 || image == 3 || image == 0x10) || decide (8 ≤ byteAt p 1) || !zeroAt p 2 2 then
    deny .badParam s
  else if image = 0x10 then captureBody rq s
  else imageSegment rq s

def execFirmwareLoad (t : Time) (rq : Req) (s : State) : Out := .next (serve 0x70 firmwareLoadBody rq (s.at t))

/-! ## LINK_TOPOLOGY (R528, R436) -/

def linkTopologyBody (rq : Req) (s : State) : Ans :=
  let p := rq.payload
  if 4 ≤ byteAt p 0 ∨ 8 ≤ byteAt p 1 ∨ 4 ≤ byteAt p 2 ∨ !zeroAt p 3 1 then deny .badParam s
  else match writeRefused s with
    | some st => deny st s
    | none =>
      let v := toW (byteAt p 0 * 2 ^ 30 + byteAt p 1 * 2 ^ 27 + byteAt p 2)
      (setSec (fun x => { x with flashJob := some (.topology (reqKey rq) v) }) s, .pending, [])

def execLinkTopology (t : Time) (rq : Req) (s : State) : Out := .next (serve 0x60 linkTopologyBody rq (s.at t))

/-! ## BOOT_FLASH_WRITE_COMPLETE (R397, R475, R533, R534) -/

/-- SEC_SVN_MIN of the Hearth patch and of the main firmware. -/
def svnMin (s : State) (main : Bool) : Nat := if main then s.otp.svnMinMain else s.otp.svnMinPatch

/-- A verified image stands in the inactive slot and is pending (R475). -/
def imagePending (l : Load) (v : Verify) (anvil : Option AnvSet) (s : State) : State :=
  let f := s.flash
  let im : Image := { bytes := l.bytes, svn := v.svn, version := v.version }
  { s with flash := match l.image with
    | 1 => { f with patch := upd f.patch (other f.patchActive) (some im), patchPending := true }
    | 2 => { f with main := upd f.main (other f.mainActive) (some im), mainPending := true }
    | _ => { f with anvil := upd f.anvil (other f.anvActive) anvil, anvPending := true } }

/-- The whole image verifies: signature and SVN, or the CMAC of an Anvil set (R474, R475). -/
def imageVerifies (s : State) (image : Nat) (v : Verify) (anvil : Option AnvSet) : Bool :=
  if image = 3 then match anvil with
    | some a => anvSetOk s a
    | none => false
  else v.sigOk && decide (svnMin s (image == 2) ≤ v.svn)

/-- A segment is programmed: after the last the image is verified; an Anvil set that fails is reported as such too
(R127). -/
def segmentWritten (key : PendKey) (l : Load) (last ok : Bool) (v : Verify) (anvil : Option AnvSet) (s : State) : State :=
  let put (o : Option Load) : State := setSec (fun x => { x with loads := upd x.loads (loadIx l.image) o }) s
  if !ok then cmdDone key .hwFault s
  else if !last then cmdDone key .ok (put (some l))
  else if imageVerifies s l.image v anvil then cmdDone key .ok (imagePending l v anvil (put none))
  else cmdDone key .badParam (raiseIf (l.image == 3) evAnvSetInvalid 0
    (raise evSecFwRejected l.image (slotInvalid l.image (put none))))

/-- The capture is programmed (R534): with a failed read-back the start-up record's CRC fails. -/
def captureWritten (key : PendKey) (r : Startup) (h : HearthRec) (ok : Bool) (s : State) : State :=
  let f := s.flash
  if ok then
    cmdDone key .ok { s with
      flash := { f with startup := some (r, true), hearth := some h }, mtx := { s.mtx with stored := h.lamps } }
  else cmdDone key .hwFault { s with flash := { f with startup := some (r, false) } }

/-- BOOT_FLASH_WRITE_COMPLETE. -/
def execBootFlashWriteComplete (t : Time) (readBackOk : Bool) (v : Verify) (anvil : Option AnvSet) (s : State) : Out :=
  let s := s.at t
  let s0 := setSec (fun x => { x with flashJob := none }) s
  match s.sec.flashJob with
  | none => .next s
  | some (.segment key l last) => .next (segmentWritten key l last readBackOk v anvil s0)
  | some (.capture key r h) => .next (captureWritten key r h readBackOk s0)
  | some (.topology key w) =>
    .next (if readBackOk then cmdDone key .ok { s0 with flash := { s0.flash with brgConfig := topologyBits w } }
           else cmdDone key .hwFault s0)

/-! ## Activation of a pending image (R476) -/

/-- SEC_SVN_MIN is programmed where an activation asked for it. -/
def svnRaise (s : State) : State :=
  let o := s.otp
  setSec (fun x => { x with svnPatch := false, svnMain := false, svnRetry := none }) { s with otp := { o with
    svnMinPatch := if s.sec.svnPatch then max o.svnMinPatch s.hth.patchSvn else o.svnMinPatch,
    svnMinMain := if s.sec.svnMain then max o.svnMinMain s.hth.mainSvn else o.svnMinMain } }

/-- A refused or failed SVN write is tried again 1 s later. -/
def svnLater (s : State) : State := setSec (fun x => { x with svnRetry := some (s.now + sec) }) s

/-- The running pending images become active. -/
def activate (s : State) : State :=
  let f := s.flash
  let s1 : State := { s with flash := { f with
    patchActive := if s.sec.patchTrial then other f.patchActive else f.patchActive,
    patchPending := f.patchPending && !s.sec.patchTrial,
    mainActive := if s.sec.mainTrial then other f.mainActive else f.mainActive,
    mainPending := f.mainPending && !s.sec.mainTrial } }
  setSec (fun x => { x with
    svnPatch := x.svnPatch || x.patchTrial, svnMain := x.svnMain || x.mainTrial, patchTrial := false,
    mainTrial := false }) s1

/-- FIRMWARE_ACTIVATION: 10 s in READY or LIT without a watchdog expiry. -/
def execFirmwareActivation (t : Time) (s : State) : Out :=
  let s := s.at t
  let ran : Bool := match s.hth.runSince with
    | some a => decide (a + 10 * sec ≤ s.now)
    | none => false
  if ran && (s.sec.patchTrial || s.sec.mainTrial) then
    let s1 := activate s
    .next (if (writeRefused s1).isSome then svnLater s1 else svnRaise s1)
  else .next s

/-- SVN_MIN_WRITE_RETRY, every 1 s while a write is outstanding (R476, R397). -/
def execSvnMinWriteRetry (t : Time) (readBackOk : Bool) (s : State) : Out :=
  let s := s.at t
  match s.sec.svnRetry with
  | some d =>
    if s.now < d then .next s
    else if (writeRefused s).isSome || !readBackOk then .next (svnLater s)
    else .next (svnRaise s)
  | none => .next s

end Sys2Proof.Machine
end

