-- ==== Sys2Proof/Machine/Params.lean ====
section
/-! DEFINITION. The parameters (R5, R10, R548): what every ID reads as, and what a write of it does, group by group;
PARAM_READ and PARAM_WRITE (R503, R504) and the register rows. -/

namespace Sys2Proof.Machine

/-! ## What a parameter reads as -/

/-- HTH_STATE (R35). -/
def hthState (s : State) : Nat :=
  s.hth.cause % 256 * 65536 + s.hth.wakeSrc.toNat * 4096 + b2n s.busy * 256 + s.hth.prev.code * 16 + s.hth.pwr.code

/-- The engine of an ID that counts engines from `base`. -/
def engOf (base id : Nat) : Fin 4 := Fin.ofNat 4 (id - base)

/-- Group 0x01 (R36, R37, R89, R295). -/
def readHth (id : Nat) (s : State) : Option Nat :=
  if id = 0x0101 then some (hthState s)
  else if id = 0x0102 then some s.hth.wakeConfig.toNat
  else if id = 0x0103 then some s.hth.ignOffDelay.toNat
  else if 0x0110 ≤ id ∧ id ≤ 0x0115 then some (s.hth.canNext[Fin.ofNat 6 (id - 0x0110)]).toNat
  else if id = 0x0120 then some s.mtx.level.toNat
  else if id = 0x0121 then some (s.mtx.lampOff.toNat % 2 ^ 32)
  else if id = 0x0122 then some (s.mtx.lampOff.toNat / 2 ^ 32)
  else if 0x0130 ≤ id ∧ id ≤ 0x013B then
    let r : Fin 12 := Fin.ofNat 12 (id - 0x0130)
    some (s.mtx.shorted[r].toNat * 65536 + s.mtx.opened[r].toNat)
  else none

/-- Groups 0x02 and 0x03 (R125, R549), but for ING_DP_STATUS. -/
def readIng (id : Nat) (s : State) : Option Nat :=
  if id = 0x0201 then
    some (b2n s.hst.errPassive * 2 ^ 17 + b2n s.hst.busOff * 2 ^ 16 + b2n s.hst.linkUp * 256
      + s.hst.linkGen % 16 * 16 + s.hst.linkWidth % 16)
  else if id = 0x0310 ∨ id = 0x0311 then some (s.ing.csi[Fin.ofNat 2 (id - 0x0310)]).toNat
  else if id = 0x0330 then some s.ing.dpStale.toNat
  else if id = 0x0340 then some s.ing.dptxConfig.toNat
  else if id = 0x0341 then some s.ing.dptxH.toNat
  else if id = 0x0342 then some s.ing.dptxV.toNat
  else if id = 0x0343 then some s.ing.winOrg.toNat
  else if id = 0x0344 then some s.ing.winSize.toNat
  else none

/-- ING_DP_STATUS_i: bits [30:0] are valid only while LOCKED; unlocked, they are free values once the input has been
locked (R549, log 11). -/
def readDp (i : Fin 2) (s : State) : Nat × State :=
  let d := s.ing.dp[i]
  if d.locked then (2 ^ 31 + d.rate % 4 * 2 ^ 29 + b2n d.dsc * 2 ^ 28 + d.h % 2 ^ 14 * 2 ^ 14 + d.w % 2 ^ 14, s)
  else if d = {} then (0, s)
  else (s.fresh.1 % 2 ^ 31, s.fresh.2)

/-- Group 0x04 (R125). -/
def readCmp (id : Nat) (s : State) : Option Nat :=
  if id = 0x0401 then some (commitState s)
  else if id = 0x0402 then some s.cmp.frameCount
  else if id = 0x0403 then some s.cmp.applyFrame
  else if 0x0410 ≤ id ∧ id ≤ 0x0413 then some (s.cmp.canvas[engOf 0x0410 id]).toNat
  else if 0x0420 ≤ id ∧ id ≤ 0x042F then some s.cmp.notReady[Fin.ofNat 16 (id - 0x0420)]
  else if 0x0440 ≤ id ∧ id ≤ 0x044F then some (s.cmp.fence[Fin.ofNat 16 (id - 0x0440)]).toNat
  else if 0x0450 ≤ id ∧ id ≤ 0x045F then some (s.cmp.release[Fin.ofNat 16 (id - 0x0450)]).toNat
  else none

/-- Group 0x05 (R151). -/
def readAnv (id : Nat) (s : State) : Option Nat :=
  if id = 0x0501 then some (anvStatus s)
  else if id = 0x0502 then some s.anv.verifyConfig.toNat
  else if id = 0x0503 then some s.anv.reqTimeout.toNat
  else if id = 0x0504 then some s.anv.camTimeout.toNat
  else if id = 0x0505 then some s.anv.energyFloor.toNat
  else if id = 0x0506 then some s.anv.lastSeq
  else none

/-- CLW_EST (R158). -/
def estWord (now : Time) (x : Est) : Nat :=
  b2n x.valid * 2 ^ 31 + b2n (x.sensor && decide (now ≤ x.sensorAt + sec)) * 2 ^ 30 + x.lambda % 2 ^ 14 * 65536 + x.output % 65536

/-- Group 0x06 (R158, R182). -/
def readClw (id : Nat) (s : State) : Option Nat :=
  if id = 0x0601 then some s.clw.unavail.toNat
  else if id = 0x0602 then some (warpFree s.clw)
  else if id = 0x0603 then
    some (maskOf 4 (fun e => s.clw.warp[ix 3 e].live == 1) * 16 + maskOf 4 fun e => s.clw.gamutLive[ix 3 e] == 1)
  else if id = 0x0610 then some s.clw.depths.toNat
  else if id = 0x0611 then some (sumN ((List.finRange 4).map fun e => (depthsOf s s.clw.depths e - 1) * 4 ^ e.val))
  else if id = 0x0612 then some s.clw.dither.toNat
  else if id = 0x0613 then some s.clw.dptxDither.toNat
  else if 0x0640 ≤ id ∧ id ≤ 0x0657 then some (estWord s.now s.clw.est[Fin.ofNat 24 (id - 0x0640)])
  else none

/-- Group 0x07 (R213); an engine without an array has no Sheaf. -/
def readThr (id : Nat) (s : State) : Option Nat :=
  let t (base : Nat) : ThrEng := s.thr.eng[engOf base id]
  if id = 0x0701 then some s.thr.slotRate.toNat
  else if id = 0x0702 then
    some (b2n s.thr.cap * 2 ^ 31 + b2n s.thr.grantLow * 2 ^ 30 + b2n s.thr.refLow * 2 ^ 29 + s.thr.rate % 2 ^ 15)
  else if 0x0710 ≤ id ∧ id ≤ 0x0713 then
    some ((t 0x0710).live.val * 2 ^ 31 + (t 0x0710).s % 512 * 65536 + (t 0x0710).u % 256)
  else if 0x0714 ≤ id ∧ id ≤ 0x0717 then some (if s.isMae (engOf 0x0714 id) then sheafReport (t 0x0714).read else 0)
  else if 0x0720 ≤ id ∧ id ≤ 0x072F then
    some (s.thr.eng[Fin.ofNat 4 ((id - 0x0720) / 4)].bits[Fin.ofNat 4 (id - 0x0720)]).toNat
  else if 0x0730 ≤ id ∧ id ≤ 0x0733 then some (t 0x0730).timing.toNat
  else if 0x0734 ≤ id ∧ id ≤ 0x0737 then some (t 0x0734).focus.toNat
  else if id = 0x0740 then some s.thr.sel.toNat
  else if id = 0x0741 then some (selEntry s % 2 ^ 32)
  else if id = 0x0742 then some (selEntry s / 2 ^ 32)
  else if 0x0750 ≤ id ∧ id ≤ 0x0753 then some (t 0x0750).focusDark
  else if 0x0754 ≤ id ∧ id ≤ 0x0757 then some (t 0x0754).bandDark
  else none

/-- Group 0x08 (R240). RETRY reads 0: it is not stored. -/
def readSwt (id : Nat) (s : State) : Option Nat :=
  let w (base : Nat) : SwtEng := s.swt[engOf base id]
  if id = 0x0801 then some (sumN ((List.finRange 4).map fun e => linkByte s e * 256 ^ e.val))
  else if 0x0810 ≤ id ∧ id ≤ 0x0813 then some (w 0x0810).config.toNat
  else if 0x0814 ≤ id ∧ id ≤ 0x0817 then some ((w 0x0814).latency % 65536)
  else if 0x0818 ≤ id ∧ id ≤ 0x081B then some (w 0x0818).arrayTemp.toNat
  else if 0x0820 ≤ id ∧ id ≤ 0x0823 then some (w 0x0820).bandErr
  else if 0x0824 ≤ id ∧ id ≤ 0x0827 then some (w 0x0824).uncorr
  else if 0x0840 ≤ id ∧ id ≤ 0x085F then
    some s.swt[Fin.ofNat 4 ((id - 0x0840) / 8)].laneCorr[Fin.ofNat 8 (id - 0x0840)]
  else none

/-- Group 0x09 (R264). RESTART reads 0: it is not stored. -/
def readScn (id : Nat) (s : State) : Option Nat :=
  let w (base : Nat) : ScnEng := s.scn[engOf base id]
  if id = 0x0901 then some (scnStateWord s)
  else if 0x0904 ≤ id ∧ id ≤ 0x0907 then some (scnFreq s (engOf 0x0904 id))
  else if 0x0910 ≤ id ∧ id ≤ 0x0913 then some (w 0x0910).config.toNat
  else if 0x0914 ≤ id ∧ id ≤ 0x0917 then some (w 0x0914).hrange.toNat
  else if 0x0918 ≤ id ∧ id ≤ 0x091B then some (w 0x0918).vert.toNat
  else if 0x091C ≤ id ∧ id ≤ 0x091F then some (w 0x091C).centre.toNat
  else if 0x0920 ≤ id ∧ id ≤ 0x0923 then some (w 0x0920).bidir.toNat
  else if 0x0928 ≤ id ∧ id ≤ 0x093F then
    some (s.scn[Fin.ofNat 4 ((id - 0x0928) / 6)].chDelay[Fin.ofNat 6 (id - 0x0928)]).toNat
  else if 0x0940 ≤ id ∧ id ≤ 0x0943 then some (w 0x0940).underrun
  else if 0x0944 ≤ id ∧ id ≤ 0x0947 then some (w 0x0944).stops
  else none

/-- The staged point that FRG_DERATE_SEL names (R281); a channel beyond 23 cannot be selected. -/
def deratePoint (s : State) : Nat :=
  let p := s.frg.ch[Fin.ofNat 24 (wfl s.frg.derateSel 3 5)].staged[Fin.ofNat 8 (wfl s.frg.derateSel 0 3)]
  p.1 % 256 * 256 + p.2 % 256

/-- Group 0x0A (R294). -/
def readFrg (id : Nat) (s : State) : Option Nat :=
  if 0x0A04 ≤ id ∧ id ≤ 0x0A07 then some (engineWord s (engOf 0x0A04 id))
  else if id = 0x0A08 then some s.frg.level
  else if id = 0x0A09 then some s.frg.eRamp
  else if id = 0x0A0A then some s.frg.floor.toNat
  else if 0x0A0C ≤ id ∧ id ≤ 0x0A0F then some (s.frg.eng[engOf 0x0A0C id]).fRef.toNat
  else if 0x0A10 ≤ id ∧ id ≤ 0x0A27 then some (s.frg.ch[Fin.ofNat 24 (id - 0x0A10)]).cfg.toNat
  else if 0x0A28 ≤ id ∧ id ≤ 0x0A3F then some (chanWord s.frg.ch[Fin.ofNat 24 (id - 0x0A28)])
  else if 0x0A40 ≤ id ∧ id ≤ 0x0A47 then some (unsext 16 s.thm.ntc[Fin.ofNat 8 (id - 0x0A40)])
  else if id = 0x0A60 then some s.frg.derateSel.toNat
  else if id = 0x0A61 then some (deratePoint s)
  else if 0x0A68 ≤ id ∧ id ≤ 0x0A6B then some (emitLimit s (engOf 0x0A68 id))
  else none

/-- Group 0x0B (R328). -/
def readSrv (id : Nat) (s : State) : Option Nat :=
  if id = 0x0B01 then some (srvLoadWord s.srv.loops)
  else if id = 0x0B02 then some (tripWord s)
  else if id = 0x0B03 then some (traceStates s)
  else if 0x0B40 ≤ id ∧ id ≤ 0x0B7F then some (s.srv.loops[Fin.ofNat 64 (id - 0x0B40)]).sp.toNat
  else if 0x0B80 ≤ id ∧ id ≤ 0x0BBF then some (loopWord s.srv.loops[Fin.ofNat 64 (id - 0x0B80)])
  else if 0x0BC0 ≤ id ∧ id ≤ 0x0BFF then some (s.srv.loops[Fin.ofNat 64 (id - 0x0BC0)]).missed
  else none

/-- FRAME_STATE and CLK_STATE codes (R350): the clock aligner has no INTERNAL. -/
def AlSt.code : AlSt → Nat
  | .internal => 0 | .acquiring => 1 | .locked => 2 | .coasting => 3 | .slewing => 4 | .returning => 5

/-- TNG_STATUS (R350). -/
def tngStatus (s : State) : Nat :=
  maskOf 4 (fun p => s.tng.pll[ix 3 p].locked) * 2 ^ 20 + b2n s.tng.bellows.isSome * 2 ^ 19
    + b2n (s.tng.clk.long || s.tng.frm.long) * 2 ^ 18 + s.tng.frm.st.code * 16 + (s.tng.clk.st.code - 1)

/-- TNG_PLL_STATUS (R350). -/
def pllByte (x : Pll) : Nat := b2n x.locked * 128 + b2n x.bypass * 64 + x.attempts % 4 * 16

/-- Group 0x0C (R350). -/
def readTng (id : Nat) (s : State) : Option Nat :=
  if id = 0x0C01 then some (tngStatus s)
  else if id = 0x0C02 then some s.tng.config.toNat
  else if id = 0x0C03 then some (unsext 32 s.tng.phaseErr)
  else if id = 0x0C04 then some (s.tng.framePeriod % 2 ^ 32)
  else if id = 0x0C05 then some (sumN ((List.finRange 4).map fun p => pllByte s.tng.pll[p] * 256 ^ p.val))
  else if id = 0x0C06 then match s.tng.bellows with
    | some b => some (b.profile % 4 * 65536 + (b.n - b.j) % 512)
    | none => some 0
  else none

/-- Group 0x0D (R380). -/
def readGrn (id : Nat) (s : State) : Option Nat :=
  match id with
  | 0x0D01 => some (grnStatus s)
  | 0x0D02 => some s.grn.config.toNat
  | 0x0D03 => some (s.grn.grant % 65536)
  | 0x0D04 => some (failedMask s 0)
  | 0x0D05 => some (failedMask s 1)
  | 0x0D08 => some s.grn.ceCount
  | 0x0D09 => some s.grn.ueCount
  | 0x0D0A => some s.grn.parityCount
  | 0x0D0B => some s.grn.forcedCount
  | 0x0D10 => some 0x1604000
  | 0x0D11 => some (if s.grn.stacksUsed = 3 then 0x3800000 else 0x1C00000)
  | _ => none

/-- Group 0x0E (R401). -/
def readThm (id : Nat) (s : State) : Option Nat :=
  if id = 0x0E01 then some (thmStatus s)
  else if id = 0x0E02 then some (thmJunction s)
  else if id = 0x0E03 then some (thmStackTemp s)
  else if id = 0x0E04 then some (s.thm.dieFailed.toNat % 2 ^ 32)
  else if id = 0x0E05 then some (s.thm.dieFailed.toNat / 2 ^ 32)
  else if id = 0x0E06 then some s.thm.throttle
  else if id = 0x0E07 then some s.thm.policy.toNat
  else if 0x0E10 ≤ id ∧ id ≤ 0x0E37 then some (unsext 16 s.thm.die[Fin.ofNat 40 (id - 0x0E10)])
  else if 0x0E40 ≤ id ∧ id ≤ 0x0E47 then some (s.thm.process[Fin.ofNat 8 (id - 0x0E40)] % 65536)
  else none

/-- Group 0x0F (R416). -/
def readTmp (id : Nat) (s : State) : Option Nat :=
  if id = 0x0F01 then some (tmpStatus s)
  else if id = 0x0F02 then some s.tmp.enable.toNat
  else if id = 0x0F03 then some (if s.tmp.newest.isSome then s.tmp.seq % 2 ^ 32 else 0)
  else if id = 0x0F04 then some s.tmp.period.toNat
  else if 0x0F10 ≤ id ∧ id ≤ 0x0F16 then
    some (s.tmp.checkFails[Fin.ofNat 7 (id - 0x0F10)] * 65536 + s.tmp.preFails[Fin.ofNat 7 (id - 0x0F10)])
  else if id = 0x0F18 then some (tmpFrozen s)
  else none

/-- Groups 0x10 and 0x11 (R434, R458). -/
def readBst (id : Nat) (s : State) : Option Nat :=
  match id with
  | 0x1001 => some (bstStatus s)
  | 0x1002 => some s.bst.config.toNat
  | 0x1003 => some (if s.bst.newest.isSome then s.bst.seq % 2 ^ 32 else 0)
  | 0x1101 => some (brgStatus s)
  | 0x1102 => some s.brg.config.toNat
  | 0x1103 => some s.brg.colourTarget.toNat
  | 0x1104 => some s.brg.members.toNat
  | 0x1105 => some (brgDim s)
  | 0x1106 => some (brgDelay s)
  | 0x1107 => some s.brg.frame
  | _ => none

/-- SEC_LIMIT_USED (R477). -/
def limitUsed (o : Otp) : Nat :=
  o.market.length % 4 * 2 ^ 24 + o.ownerKey.length % 8 * 2 ^ 21 + o.pairing.length % 8 * 2 ^ 18
    + sumN ((List.finRange 4).map fun e => o.emission[e].length % 16 * 16 ^ e.val)

/-- SEC_MARKET: bytes 2-3 of the slot, the first of PROFILE, above REGION; 0 with no profile (R472, R477). -/
def marketWord (o : Otp) : Nat :=
  match slotValue o.market with
  | some v => le16 v 2 * 65536 + le16 v 0
  | none => 0

/-- Group 0x12 (R477). -/
def readSec (id : Nat) (s : State) : Option Nat :=
  match id with
  | 0x1201 => some (b2n s.sec.incomplete * 256 + s.otp.lifecycle)
  | 0x1202 => some (s.otp.uid.toNat % 2 ^ 32)
  | 0x1203 => some (s.otp.uid.toNat / 2 ^ 32 % 2 ^ 32)
  | 0x1204 => some (s.otp.uid.toNat / 2 ^ 64 % 2 ^ 32)
  | 0x1205 => some (s.otp.uid.toNat / 2 ^ 96)
  | 0x1206 => some (limitUsed s.otp)
  | 0x1207 => some (marketWord s.otp)
  | 0x1208 => some (s.otp.svnMinMain % 64 * 256 + s.otp.svnMinPatch % 64)
  | 0x1209 => some (b2n s.flash.mainPending * 8 + s.flash.mainActive.val * 4 + b2n s.flash.patchPending * 2
      + s.flash.patchActive.val)
  | _ => none

/-- A condition of R145 marked Yes holds (R545); the Anvil set is judged once the reset has ended (R547's reset value). -/
def fallbackHolds (s : State) : Bool :=
  (s.anv.set.isNone && s.hth.boot != .hold) || s.anv.verifyFailed || s.anv.ownerStale || s.anv.imageStale

/-- EVT_FAULT_SRC (R545, R547). -/
def faultSrc (s : State) : Nat :=
  b2n (s.hth.boot == .hold) + b2n (s.hth.pwr == .safe || s.hth.pwr == .quench) * 2 + b2n (fallbackHolds s) * 4
    + b2n (s.mtx.lampOff != 0) * 8 + b2n (s.evt.recs.any fun r => r.sev == 3) * 16

/-- FAULT_N is driven low (R545). -/
def faultLow (s : State) : Bool := faultSrc s != 0

/-- EVT_STATUS (R547). -/
def evtStatus (s : State) : Nat :=
  min 15 s.evt.canFrames.length * 2 ^ 24 + s.evt.cmdDones % 32 * 2 ^ 19 + b2n (faultLow s) * 2 ^ 18
    + b2n s.evt.intLow * 2 ^ 17 + min 255 (s.evt.countSev 3) * 256 + min 255 (s.evt.countSev 2)

/-- EVT_ROUTE_DATA (R547). -/
def routeData (s : State) : Nat :=
  (evSev s.evt.routeSel).getD 0 * 256 + b2n (s.evt.enabled s.evt.routeSel) * 32 + s.evt.route s.evt.routeSel

/-- Group 0x13 (R547). -/
def readEvt (id : Nat) (s : State) : Option Nat :=
  if id = 0x1301 then some (evtStatus s)
  else if id = 0x1302 then some (evtTime s.now s.hth.timeBase)
  else if id = 0x1303 then some (faultSrc s)
  else if id = 0x1304 then some s.evt.gather
  else if id = 0x1305 then some s.evt.routeSel
  else if id = 0x1306 then some (routeData s)
  else if 0x1321 ≤ id ∧ id ≤ 0x1333 then some (s.evt.latchedWord (id - 0x1320))
  else if 0x1341 ≤ id ∧ id ≤ 0x1353 then some (s.evt.enableWord (id - 0x1340))
  else none

/-- The value of a parameter but for ING_DP_STATUS, none for an ID outside R548. -/
def paramValue (id : Nat) (s : State) : Option Nat :=
  match id / 256 with
  | 0x01 => readHth id s | 0x02 => readIng id s | 0x03 => readIng id s | 0x04 => readCmp id s
  | 0x05 => readAnv id s | 0x06 => readClw id s | 0x07 => readThr id s | 0x08 => readSwt id s
  | 0x09 => readScn id s | 0x0A => readFrg id s | 0x0B => readSrv id s | 0x0C => readTng id s
  | 0x0D => readGrn id s | 0x0E => readThm id s | 0x0F => readTmp id s | 0x10 => readBst id s
  | 0x11 => readBst id s | 0x12 => readSec id s | 0x13 => readEvt id s | _ => none

/-- A parameter read, with its side effect: THR_SHEAF_DATA_HI advances the entry index (R213). -/
def paramRead (id : Nat) (s : State) : Option (Nat × State) :=
  if id = 0x0301 ∨ id = 0x0302 then some (readDp (Fin.ofNat 2 (id - 0x0301)) s)
  else match paramValue id s with
    | some v => some (v % 2 ^ 32, if id = 0x0742 then selAdvance s else s)
    | none => none

/-- The values of a list of IDs, or the index of the first that names no parameter (R495, R503). -/
def paramReads (s : State) : List Nat → Nat → List Byte × State ⊕ Nat
  | [], _ => .inl ([], s)
  | id :: r, i => match paramRead id s with
    | none => .inr i
    | some (v, s1) => match paramReads s1 r (i + 1) with
      | .inl (b, s2) => .inl (leBytes 4 v ++ b, s2)
      | .inr j => .inr j

/-- PARAM_READ (R503). -/
def paramReadBody (rq : Req) (s : State) : Ans :=
  let ids := (List.range (rq.payload.length / 2)).map fun i => le16 rq.payload (2 * i)
  match paramReads s ids 0 with
  | .inl (b, s1) => (s1, .ok, b)
  | .inr i => denyItem .badParam i s

def execParamRead (t : Time) (rq : Req) (s : State) : Out := .next (serve 0x08 paramReadBody rq (s.at t))

end Sys2Proof.Machine
end

