-- ==== Sys2Proof/Machine/ParamWrite.lean ====
section
/-! DEFINITION. Writes of parameters (R5, R10, R504): each ID's own rule. An RO parameter, an ID that names none, a
reserved bit set and a value outside its range are refused with BAD_PARAM and nothing changes. -/

namespace Sys2Proof.Machine

/-- The answer of one parameter write: its status and the state after it. -/
abbrev Wr := Status × State

def no (st : Status) (s : State) : Wr := (st, s)
def yes (s : State) : Wr := (.ok, s)
/-- A write under a condition, BAD_PARAM without it. -/
def okIf (c : Bool) (new s : State) : Wr := if c then (.ok, new) else (.badParam, s)
/-- No bit beyond those of a mask. -/
def within (v : Word) (m : Nat) : Bool := Nat.land v.toNat m == v.toNat
/-- A counter: only 0 may be written (R125). -/
def clears (v : Word) (new s : State) : Wr := okIf (v == 0) new s

/-! ## Group 0x01 (R36, R37, R89, R295) -/

/-- A CAN FD identifier (R89). -/
def canIdOk (v : Word) : Bool := within v 0x9FFFFFFF && (wb v 31 || within v 0x7FF)

/-- The five identifiers are distinct (R89). -/
def canIdsDiffer (v : Vector Word 6) : Bool :=
  (List.finRange 6).all fun i => (List.finRange 6).all fun j =>
    i == j || i.val == 0 || j.val == 0 || v[i] != v[j]

/-- A CAN FD parameter takes a new value (R89). -/
def writeCan (i : Fin 6) (v : Word) (s : State) : Wr :=
  let new := upd s.hth.canNext i v
  let ok : Bool := if i = 0 then within v 0xFF && decide (wfl v 4 4 ≤ 4) && decide (wfl v 0 4 ≤ 3) else canIdOk v
  okIf (ok && canIdsDiffer new) (setHth (fun h => { h with canNext := new }) s) s

def writeHth (id : Nat) (v : Word) (s : State) : Wr :=
  if id = 0x0102 then
    okIf (within v 0x3EF && wfl v 8 2 != 3 && wfl v 6 2 != 3) (setHth (fun h => { h with wakeConfig := v }) s) s
  else if id = 0x0103 then okIf (within v 0xFFFF) (setHth (fun h => { h with ignOffDelay := v }) s) s
  else if 0x0110 ≤ id ∧ id ≤ 0x0115 then writeCan (Fin.ofNat 6 (id - 0x0110)) v s
  else if id = 0x0120 then okIf (within v 0xFFFF) (setMtx (fun x => { x with level := v }) s) s
  else no .badParam s

/-! ## Group 0x03: ingest and mirror (R122-R126, R489) -/

/-- ING_DPTX_CONFIG (R125, R126, R489). While ENABLE is 1 a write that changes LANES, RATE, BPC or DIVIDER is refused; one
that repeats them is taken, so that ENABLE can be cleared: R126 does not say how a whole-word write touches its fields
(DESIGN CHOICE, log 50). -/
def writeDptx (v : Word) (s : State) : Wr :=
  let on := wb s.ing.dptxConfig 0
  let set (s : State) : State := { s with ing := { s.ing with dptxConfig := v, dptxTrained := s.ing.dptxTrained && wb v 0 } }
  if !within v 0xFF01 || wfl v 14 2 == 3 || decide (1 < wfl v 12 2) || decide (1 < wfl v 10 2) then no .badParam s
  else if on ∧ wfl v 8 8 ≠ wfl s.ing.dptxConfig 8 8 then no .wrongState s
  else if on ∨ !wb v 0 then yes (set s)
  else match mirrorWindow (set s) s.ing.winOrg s.ing.winSize s.cmp.canvas with
    | some (0x08, _) => no .wrongState s
    | some _ => no .resourceExceeded s
    | none =>
      if mirrorLinkOk (set s) (budgetRate s) then
        yes (mirrorEnable { set s with ing := { (set s).ing with mirrorFrames := 0 } })
      else no .resourceExceeded s

def writeIng (id : Nat) (v : Word) (s : State) : Wr :=
  let m := within v 0x3FFF3FFF
  if id = 0x0330 then
    okIf (decide (10 ≤ v.toNat) && decide (v.toNat ≤ 1000)) { s with ing := { s.ing with dpStale := v } } s
  else if id = 0x0340 then writeDptx v s
  else if id = 0x0341 ∨ id = 0x0342 then
    if !m then no .badParam s
    else if wb s.ing.dptxConfig 0 then no .wrongState s
    else if id = 0x0341 then yes { s with ing := { s.ing with dptxH := v } }
    else yes { s with ing := { s.ing with dptxV := v } }
  else if id = 0x0343 then okIf (within v 0xFFFF3FFF) { s with ing := { s.ing with winOrgSh := v } } s
  else if id = 0x0344 then okIf m { s with ing := { s.ing with winSizeSh := v } } s
  else no .badParam s

/-! ## Groups 0x04 to 0x06 (R125, R151, R182) -/

def writeCmp (id : Nat) (v : Word) (s : State) : Wr :=
  if 0x0410 ≤ id ∧ id ≤ 0x0413 then
    okIf (within v 0x3FFF3FFF) (setCmp (fun c => { c with canvasSh := upd c.canvasSh (engOf 0x0410 id) v }) s) s
  else if 0x0420 ≤ id ∧ id ≤ 0x042F then
    clears v (setCmp (fun c => { c with notReady := upd c.notReady (Fin.ofNat 16 (id - 0x0420)) 0 }) s) s
  else if 0x0440 ≤ id ∧ id ≤ 0x044F then yes (writeFence (Fin.ofNat 16 (id - 0x0440)) v s)
  else no .badParam s

/-- The RWL parameters of the Anvil layer: locked, they refuse any write with WRONG_STATE (R5, R151). -/
def writeAnv (id : Nat) (v : Word) (s : State) : Wr :=
  let n := v.toNat
  if id < 0x0502 ∨ 0x0505 < id then no .badParam s
  else if s.hth.lock then no .wrongState s
  else if id = 0x0502 then
    okIf (within v 0xFFFFFF3E && wfl v 4 2 != 0) (setAnv (fun a => { a with verifyConfig := v }) s) s
  else if id = 0x0503 then
    okIf (decide (20 ≤ n) && decide (n ≤ 1000)) (setAnv (fun a => { a with reqTimeout := v }) s) s
  else if id = 0x0504 then
    okIf (decide (100 ≤ n) && decide (n ≤ 5000)) (setAnv (fun a => { a with camTimeout := v }) s) s
  else okIf (within v 0xFFFF) (setAnv (fun a => { a with energyFloor := v }) s) s

def writeClw (id : Nat) (v : Word) (s : State) : Wr :=
  if id = 0x0610 then okIf (within v 0xFF) (setClw (fun c => { c with depthsSh := v }) s) s
  else if id = 0x0612 then
    okIf (within v 0xFF && (List.range 4).all fun e => wfl v (2 * e) 2 != 3)
      (setClw (fun c => { c with ditherSh := v }) s) s
  else if id = 0x0613 then okIf (decide (v.toNat ≤ 2)) (setClw (fun c => { c with dptxDither := v }) s) s
  else no .badParam s

/-! ## Group 0x07 (R213, R342) -/

def writeThr (id : Nat) (v : Word) (s : State) : Wr :=
  let n := v.toNat
  let e (base : Nat) : Fin 4 := engOf base id
  if id = 0x0701 then
    if n < 12000 ∨ 24000 < n then no .badParam s
    else if extRef s ∧ 23600 < n then no .resourceExceeded s
    else yes (setThr (fun t => { t with slotRateSh := v }) s)
  else if 0x0730 ≤ id ∧ id ≤ 0x0733 then
    okIf (within v 0x3F1F && decide (8 ≤ bandSettle v) && decide (bandSettle v ≤ 63) && decide (2 ≤ bandGuard v)
        && decide (bandGuard v ≤ 16)) (setThrE (e 0x0730) (fun t => { t with timingSh := v }) s) s
  else if 0x0734 ≤ id ∧ id ≤ 0x0737 then
    okIf (within v 0x13F) (setThrE (e 0x0734) (fun t => { t with focusSh := v }) s) s
  else if id = 0x0740 then okIf (within v 0x3DFF && wfl v 10 2 != 3) (setThr (fun t => { t with sel := v }) s) s
  else if 0x0750 ≤ id ∧ id ≤ 0x0753 then clears v (setThrE (e 0x0750) (fun t => { t with focusDark := 0 }) s) s
  else if 0x0754 ≤ id ∧ id ≤ 0x0757 then clears v (setThrE (e 0x0754) (fun t => { t with bandDark := 0 }) s) s
  else no .badParam s

/-! ## Group 0x08 (R225, R233, R240, R241) -/

/-- SWT_CONFIG_En: a change of LANES or SYNC_ADV only while the link is OFF, DOWN or FAILED; RETRY is not stored. A
change of LANES and a 1 in RETRY start bring-up again. -/
def writeSwtConfig (e : Fin 4) (v : Word) (s : State) : Wr :=
  let old := s.swt[e].config
  let moved : Bool := wfl v 16 16 != wfl old 16 16
  let free : Bool := s.swt[e].link == .off || s.swt[e].link == .down || s.swt[e].link == .failed
  if !within v 0xFFFFFF06 || decide (16000 < wfl v 16 14) then no .badParam s
  else if moved ∧ !free then no .wrongState s
  else if s.isMae e ∧ wfl v 30 2 ≠ wfl old 30 2 ∧ !lanesSuffice s.eng[e].w s.eng[e].h (swtLanes v) then
    no .resourceExceeded s
  else
    let s1 := setSwt e (fun w => { w with config := v &&& 0xFFFFFFFB }) s
    let again : Bool := wb v 2 || (wfl v 30 2 != wfl old 30 2 && s.swt[e].link == .failed)
    if again then swtRetryWrite e s1 else yes s1

def writeSwt (id : Nat) (v : Word) (s : State) : Wr :=
  if 0x0810 ≤ id ∧ id ≤ 0x0813 then writeSwtConfig (engOf 0x0810 id) v s
  else if 0x0820 ≤ id ∧ id ≤ 0x0823 then clears v (setSwt (engOf 0x0820 id) (fun w => { w with bandErr := 0 }) s) s
  else if 0x0824 ≤ id ∧ id ≤ 0x0827 then clears v (setSwt (engOf 0x0824 id) (fun w => { w with uncorr := 0 }) s) s
  else no .badParam s

/-! ## Group 0x09 (R257, R258, R262, R264, R343) -/

/-- SCN_CONFIG_En; RESTART is not stored. -/
def writeScnConfig (e : Fin 4) (v : Word) (s : State) : Wr :=
  if !within v 0xFFFF000E || decide (wfl v 24 8 < 0x40) || wfl v 16 8 == 0 then no .badParam s
  else
    let s1 := setScn e (fun w => { w with config := v &&& 0xFFFFFFF7 }) s
    yes (if wb v 3 then scanRestart e s1 else s1)

/-- SCN_HRANGE_En or SCN_VERT_En written: a scanner that the old timing kept OFF may start (R343). -/
def writeScnGeometry (e : Fin 4) (hrange vert : Word) (s : State) : Wr :=
  match scnGeometry s e hrange vert with
  | some st => no st s
  | none =>
    let s1 := setScn e (fun w => { w with hrange := hrange, vert := vert }) s
    yes (if s.hth.pwr = .ready ∨ s.hth.pwr = .lit then scanStart e s1 else s1)

def writeScn (id : Nat) (v : Word) (s : State) : Wr :=
  if 0x0910 ≤ id ∧ id ≤ 0x0913 then writeScnConfig (engOf 0x0910 id) v s
  else if 0x0914 ≤ id ∧ id ≤ 0x0917 then writeScnGeometry (engOf 0x0914 id) v s.scn[engOf 0x0914 id].vert s
  else if 0x0918 ≤ id ∧ id ≤ 0x091B then writeScnGeometry (engOf 0x0918 id) s.scn[engOf 0x0918 id].hrange v s
  else if 0x091C ≤ id ∧ id ≤ 0x091F then
    okIf (within v 0x1FFFFF) (setScn (engOf 0x091C id) (fun w => { w with centre := v }) s) s
  else if 0x0920 ≤ id ∧ id ≤ 0x0923 then
    okIf (within v 0xFFFF) (setScn (engOf 0x0920 id) (fun w => { w with bidir := v }) s) s
  else if 0x0928 ≤ id ∧ id ≤ 0x093F then
    okIf (within v 0xFF) (setScn (Fin.ofNat 4 ((id - 0x0928) / 6)) (fun w =>
      { w with chDelay := upd w.chDelay (Fin.ofNat 6 (id - 0x0928)) v }) s) s
  else if 0x0940 ≤ id ∧ id ≤ 0x0943 then clears v (setScn (engOf 0x0940 id) (fun w => { w with underrun := 0 }) s) s
  else if 0x0944 ≤ id ∧ id ≤ 0x0947 then clears v (setScn (engOf 0x0944 id) (fun w => { w with stops := 0 }) s) s
  else no .badParam s

/-! ## Group 0x0A (R267, R270, R281, R284, R294) -/

/-- FRG_CH_CFG_n: a lowered CLAMP limits the drive at once, a cleared ENABLE ends it (R267). -/
def writeChCfg (c : Fin 24) (v : Word) (s : State) : Wr :=
  if s.hth.lock then no .wrongState s
  else okIf (within v 0xFFFFFFE1) (setCh c (fun x => { x with
    cfg := v,
    pulse := if wb v 0 then { x.pulse with code := min x.pulse.code (wfl v 16 16) } else {} }) s) s

/-- Group 0x0A. FRG_ENGINE_En takes 0 in its read-only fields, even where they read 1: R5 does not say how a write
treats the read-only fields of a register of mixed access (DESIGN CHOICE, log 50). -/
def writeFrg (id : Nat) (v : Word) (s : State) : Wr :=
  let n := v.toNat
  if 0x0A04 ≤ id ∧ id ≤ 0x0A07 then
    if n = 0 then yes s else if n = 2 ^ 20 then emitResetWrite (engOf 0x0A04 id) s else no .badParam s
  else if id = 0x0A08 then okIf (lightLevelOk n) (setLightLevel n 0 s) s
  else if id = 0x0A0A then
    if s.hth.lock then no .wrongState s
    else okIf (decide (0x1A ≤ n) && decide (n ≤ 0x80)) (setFrg (fun x => { x with floor := v }) s) s
  else if 0x0A0C ≤ id ∧ id ≤ 0x0A0F then
    okIf (within v 0xFFF) (setFrgE (engOf 0x0A0C id) (fun g => { g with fRefSh := v }) s) s
  else if 0x0A10 ≤ id ∧ id ≤ 0x0A27 then writeChCfg (Fin.ofNat 24 (id - 0x0A10)) v s
  else if id = 0x0A60 then
    okIf (within v 0xFF && decide (wfl v 3 5 < 24)) (setFrg (fun x => { x with derateSel := v }) s) s
  else if id = 0x0A61 then derateWrite v s
  else no .badParam s

/-! ## Group 0x0B (R326, R328) -/

/-- SRV_TRIP: every engine named in TRIP_RESET is released, or none. Its read-only fields take 0 (R5; DESIGN CHOICE,
log 50). -/
def writeTrip (v : Word) (s : State) : Wr :=
  let named := (List.finRange 4).filter fun e => wb v (4 + e.val)
  if !within v 0xF0 then no .badParam s
  else if named.all fun e => tripResetOk e s then yes (named.foldl (fun a e => tripRelease e a) s)
  else no .wrongState s

def writeSrv (id : Nat) (v : Word) (s : State) : Wr :=
  if id = 0x0B02 then writeTrip v s
  else if 0x0B40 ≤ id ∧ id ≤ 0x0B7F then
    let n : Fin 64 := Fin.ofNat 64 (id - 0x0B40)
    if spOwn s.srv.loops n then yes (setLoop n (fun l => { l with sp := v }) s)
    else no .wrongState s
  else if 0x0B80 ≤ id ∧ id ≤ 0x0BBF then loopFlagWrite (Fin.ofNat 64 (id - 0x0B80)) v s
  else if 0x0BC0 ≤ id ∧ id ≤ 0x0BFF then
    clears v (setLoop (Fin.ofNat 64 (id - 0x0BC0)) (fun l => { l with missed := 0 }) s) s
  else no .badParam s

/-! ## Group 0x0C (R331, R342, R350) -/

/-- The frame aligner after a change of REF_SEL: it acquires the new reference, or runs on the device's own timing. -/
def newReference (sel : Nat) (s : State) : State :=
  setAligner .frame (fun _ => { st := if sel = 0 then .internal else .acquiring }) s

/-- TNG_CONFIG. REF_SEL changes only off a worker (log 50). -/
def writeTngConfig (v : Word) (s : State) : Wr :=
  let sel := wfl v 30 2
  let old := wfl s.tng.config 30 2
  let slow : Bool := decide (23600 < s.thr.slotRate.toNat) || decide (23600 < s.thr.slotRateSh.toNat)
  let unfit : Bool := (List.finRange 4).any fun e => s.isLse e
    && !lseFits true s.scn[e].fMin s.eng[e].h s.scn[e].vert.toNat (budgetRate s)
  if !within v 0xFCFFFFFF || sel == 3 || wfl v 28 2 == 3 then no .badParam s
  else if s.hth.role = 2 ∧ sel ≠ old then no .wrongState s
  else if s.hth.role ≠ 2 ∧ sel = 2 then no .badParam s
  else if nominal s ≤ 4 * wfl v 0 24 then no .badParam s
  else if s.tng.bellows.isSome then no .busy s
  else if sel ≠ 0 ∧ old = 0 ∧ (slow ∨ unfit) then no .resourceExceeded s
  else
    let s1 := setTng (fun x => { x with config := v, syncOut := if wb v 26 then x.syncOut else none }) s
    yes (if sel = old then s1 else newReference sel s1)

/-! ## The other groups (R380, R401, R416, R434, R458, R547) -/

def writeGrn (id : Nat) (v : Word) (s : State) : Wr :=
  match id with
  | 0x0D02 => okIf (within v 0xFFFF0003 && wfl v 24 8 != 0 && decide (10 ≤ wfl v 16 8) && (wfl v 0 2 == 3 || wfl v 0 2 == 1))
      (setGrn (fun g => { g with config := v }) s) s
  | 0x0D08 => clears v (setGrn (fun g => { g with ceCount := 0 }) s) s
  | 0x0D09 => clears v (setGrn (fun g => { g with ueCount := 0 }) s) s
  | 0x0D0A => clears v (setGrn (fun g => { g with parityCount := 0 }) s) s
  | 0x0D0B => clears v (setGrn (fun g => { g with forcedCount := 0 }) s) s
  | _ => no .badParam s

def writeTmp (id : Nat) (v : Word) (s : State) : Wr :=
  if id = 0x0F02 then okIf (within v 0x7F) (setTmp (fun x => { x with enable := v }) s) s
  else if id = 0x0F04 then
    okIf (decide (600 ≤ v.toNat) && decide (v.toNat ≤ 65535)) (setTmp (fun x => { x with period := v }) s) s
  else if 0x0F10 ≤ id ∧ id ≤ 0x0F16 then
    let q : Fin 7 := Fin.ofNat 7 (id - 0x0F10)
    clears v (setTmp (fun x => { x with checkFails := upd x.checkFails q 0, preFails := upd x.preFails q 0 }) s) s
  else no .badParam s

/-- BRG_CONFIG: DIM_EN and COLOUR_EN are writable, the other fields must read back as they stand (R458, log 50). -/
def writeBrgConfig (v : Word) (s : State) : Wr :=
  if v ||| 0xC ≠ s.brg.config ||| 0xC then no .badParam s
  else if s.hth.role = 2 ∧ v ≠ s.brg.config then no .wrongState s
  else yes (setBrg (fun b => { b with config := v }) s)

def writeBrg (id : Nat) (v : Word) (s : State) : Wr :=
  match id with
  | 0x1002 => okIf (within v 0x00FF0001 && wfl v 16 8 != 0) (setBst (fun b => { b with config := v }) s) s
  | 0x1102 => writeBrgConfig v s
  | 0x1103 =>
    if s.hth.role = 2 then no .wrongState s
    else okIf (wfl v 0 16 != 0) (setBrg (fun b => { b with colourTarget := v }) s) s
  | _ => no .badParam s

/-- Bits of a group's SAFETY sources (R546). -/
def safetyMask (g : Nat) : Nat := maskOf 32 fun i => (groupSevs g)[i]? == some 3

def writeEvt (id : Nat) (v : Word) (s : State) : Wr :=
  let n := v.toNat
  let set (e : Evt) : State := { s with evt := e }
  if id = 0x1304 then okIf (decide (n ≤ 10)) (set { s.evt with gather := n }) s
  else if id = 0x1305 then okIf (decide (n < 1024) && evDefined n) (set { s.evt with routeSel := n }) s
  else if 0x1321 ≤ id ∧ id ≤ 0x1333 then
    okIf (within v (groupMask (id - 0x1320))) (set (s.evt.clearMask s.now (id - 0x1320) n)) s
  else if 0x1341 ≤ id ∧ id ≤ 0x1353 then
    let g := id - 0x1340
    okIf (within v (groupMask g) && Nat.land n (safetyMask g) == safetyMask g) (set (s.evt.setEnables g n)) s
  else no .badParam s

/-- A write of one parameter. -/
def paramWrite (id : Nat) (v : Word) (s : State) : Wr :=
  match id / 256 with
  | 0x01 => writeHth id v s | 0x03 => writeIng id v s | 0x04 => writeCmp id v s | 0x05 => writeAnv id v s
  | 0x06 => writeClw id v s | 0x07 => writeThr id v s | 0x08 => writeSwt id v s | 0x09 => writeScn id v s
  | 0x0A => writeFrg id v s | 0x0B => writeSrv id v s | 0x0C => if id = 0x0C02 then writeTngConfig v s else no .badParam s
  | 0x0D => writeGrn id v s
  | 0x0E => if id = 0x0E07 then okIf (policyOk v) (setThm (fun x => { x with policy := v }) s) s else no .badParam s
  | 0x0F => writeTmp id v s | 0x10 => writeBrg id v s | 0x11 => writeBrg id v s | 0x13 => writeEvt id v s
  | _ => no .badParam s

/-- The entries of a PARAM_WRITE in order, each on the state the ones before it left; the first that is refused, with
its index (R504). -/
def paramWrites : List (Nat × Word) → Nat → State → State ⊕ (Nat × Status)
  | [], _, s => .inl s
  | (id, v) :: r, i, s => match paramWrite id v s with
    | (.ok, s1) => paramWrites r (i + 1) s1
    | (st, _) => .inr (i, st)

/-- The CAN FD parameters among the entries of a write (R89). -/
def canEntries (l : List (Nat × Word)) : List (Fin 6 × Word) :=
  l.filterMap fun p => if 0x0110 ≤ p.1 ∧ p.1 ≤ 0x0115 then some (Fin.ofNat 6 (p.1 - 0x0110), p.2) else none

/-- New CAN FD parameters take effect at once, or after the reply of the write that goes out on CAN FD (R89). -/
def canFollow (onCan : Bool) (l : List (Nat × Word)) (s : State) : State :=
  if onCan then setHst (fun h => { h with canWrites := canEntries l }) s else canApply (canEntries l) s

/-- PARAM_WRITE (R504): all entries apply, or none. -/
def paramWriteBody (rq : Req) (s : State) : Ans :=
  let n := rq.payload.length / 6
  let l := (List.range n).map fun i => (le16 rq.payload (6 * i), toW (le32 rq.payload (6 * i + 2)))
  match paramWrites l 0 s with
  | .inr (i, st) => denyItem st i s
  | .inl s1 => (canFollow ((rq.port == .canCmd || rq.port == .canSafety) && rqReply rq) l s1, .ok, [])

def execParamWrite (t : Time) (rq : Req) (s : State) : Out := .next (serve 0x09 paramWriteBody rq (s.at t))

/-! ## Register rows: one parameter written -/

/-- A register row on one ID: group 0x01 is served in every state but OFF, the others as PARAM_WRITE is (R32, R492);
its status stands in `last` (log 4). -/
def regWrite (id : Nat) (v : Word) (s : State) : Out :=
  if s.hth.boot = .hold then .next { s with last := .wrongState }
  else if id / 256 = 1 ∧ s.hth.pwr ≠ .off then
    let a := paramWrite id v s
    .next { canFollow false [(id, v)] a.2 with last := a.1 }
  else regAnswer (paramWrite id v) s

/-- REGISTER_WRITE. -/
def execRegisterWrite (t : Time) (pid : Nat) (value : Word) (s : State) : Out := regWrite pid value (s.at t)

/-- The saturating counters that a write of 0 clears (R125, R213, R240, R264, R328, R380, R416). -/
def isCounter (id : Nat) : Bool :=
  (decide (0x0420 ≤ id) && decide (id ≤ 0x042F)) || (decide (0x0750 ≤ id) && decide (id ≤ 0x0757))
    || (decide (0x0820 ≤ id) && decide (id ≤ 0x0827)) || (decide (0x0940 ≤ id) && decide (id ≤ 0x0947))
    || (decide (0x0BC0 ≤ id) && decide (id ≤ 0x0BFF)) || (decide (0x0D08 ≤ id) && decide (id ≤ 0x0D0B))
    || (decide (0x0F10 ≤ id) && decide (id ≤ 0x0F16))

/-- COUNTER_CLEAR: BAD_PARAM for an ID that names no counter. -/
def execCounterClear (t : Time) (pid : Nat) (value : Word) (s : State) : Out :=
  regAnswer (fun a => if isCounter pid then paramWrite pid value a else no .badParam a) (s.at t)

/-- EVT_LATCHED_CLEAR (R538, R539). -/
def execEvtLatchedClear (t : Time) (group : Nat) (value : Word) (s : State) : Out :=
  regAnswer (fun a => if 1 ≤ group ∧ group ≤ 0x13 then paramWrite (0x1320 + group) value a else no .badParam a) (s.at t)

end Sys2Proof.Machine
end

