-- ==== Sys2Proof/Machine/Events.lean ====
section
/-! DEFINITION. NOP and STATUS (R496, R498), the event commands (R500-R502) and the gather time of event frames
(R543). -/

namespace Sys2Proof.Machine

/-! ## NOP and STATUS -/

/-- NOP (R496). -/
def nopBody (_ : Req) (s : State) : Ans := (s, .ok, [])

def execNop (t : Time) (rq : Req) (s : State) : Out := .next (serve 0x00 nopBody rq (s.at t))

/-- ENGINES of an engine (R498). -/
def engineCode (s : State) (e : Fin 4) : Nat :=
  if !s.used e then 0 else if s.frg.eng[e].lit then 2 else if s.frg.eng[e].cause ≠ 0 then 3 else 1

/-- The 16 bytes of STATUS (R498). -/
def statusReply (s : State) : List Byte :=
  leBytes 4 (hthState s)
    ++ leBytes 1 (b2n s.sec.incomplete * 16 + s.otp.lifecycle)
    ++ leBytes 1 (s.brg.devnum % 16 * 16 + s.hth.role % 4)
    ++ leBytes 1 (fld (thmStatus s) 0 6)
    ++ leBytes 1 (s.anv.reason % 16 * 16 + b2n s.anv.holderMatrix)
    ++ leBytes 1 (sumN ((List.finRange 4).map fun e => engineCode s e * 4 ^ e.val))
    ++ leBytes 1 s.hst.pend.length
    ++ leBytes 1 (min 255 (s.evt.countSev 3))
    ++ leBytes 1 (min 255 (s.evt.countSev 2))
    ++ leBytes 4 s.cmp.frameCount

/-- STATUS (R498). -/
def statusBody (_ : Req) (s : State) : Ans := (s, .ok, statusReply s)

def execStatus (t : Time) (rq : Req) (s : State) : Out := .next (serve 0x02 statusBody rq (s.at t))

/-! ## EVENT_READ (R500) -/

def eventReadBody (rq : Req) (s : State) : Ans :=
  let most := byteAt rq.payload 0
  let src := byteAt rq.payload 1
  let fwd : Bool := src == 1
  let l := (if fwd then s.evt.fwd else s.evt.recs).take (min most ((portLimit rq.port - 1) / 8))
  if most = 0 ∨ 127 < most ∨ 1 < src then deny .badParam s
  else if fwd ∧ s.hth.role ≠ 1 then deny .wrongState s
  else (s, .ok, leBytes 1 l.length ++ (l.map (recBytes fwd)).flatten)

def execEventRead (t : Time) (rq : Req) (s : State) : Out := .next (serve 0x04 eventReadBody rq (s.at t))

/-! ## EVENT_CLEAR (R501, R538, R539) -/

/-- What is wrong with an entry of EVENT_CLEAR. -/
def clearRefused (s : State) (x : Nat) : Option Status :=
  if fld x 10 4 ≠ 0 then some .badParam
  else if bit x 15 ∧ (fld x 0 5 ≠ 0 ∨ groupSevs (fld x 5 5) = []) then some .badParam
  else if !bit x 15 ∧ !evDefined (fld x 0 10) then some .badParam
  else if bit x 14 ∧ s.hth.role ≠ 1 then some .wrongState
  else none

/-- An entry of EVENT_CLEAR clears. -/
def clearOne (now : Time) (e : Evt) (x : Nat) : Evt :=
  let id := fld x 0 10
  if bit x 14 then
    { e with fwd := e.fwd.filter fun r => !(if bit x 15 then r.id / 32 == id / 32 else r.id == id) }
  else if bit x 15 then e.clearMask now (id / 32) (2 ^ 32 - 1)
  else e.clear now id

/-- The index of the first entry that is refused, and its status (R495). -/
def firstRefused {α : Type} (f : α → Option Status) : List α → Nat → Option (Nat × Status)
  | [], _ => none
  | x :: r, i => match f x with
    | some st => some (i, st)
    | none => firstRefused f r (i + 1)

def eventClearBody (rq : Req) (s : State) : Ans :=
  let l := (List.range (rq.payload.length / 2)).map fun i => le16 rq.payload (2 * i)
  match firstRefused (clearRefused s) l 0 with
  | some (i, st) => denyItem st i s
  | none => ({ s with evt := l.foldl (clearOne s.now) s.evt }, .ok, [])

def execEventClear (t : Time) (rq : Req) (s : State) : Out := .next (serve 0x05 eventClearBody rq (s.at t))

/-! ## EVENT_ROUTE (R502) -/

/-- An entry: ID, ENABLE, ROUTE. -/
def routeEntry (p : List Byte) (i : Nat) : Nat × Nat × Nat := (le16 p (4 * i), byteAt p (4 * i + 2), byteAt p (4 * i + 3))

def routeRefused (x : Nat × Nat × Nat) : Option Status :=
  if 1024 ≤ x.1 ∨ !evDefined x.1 ∨ 1 < x.2.1 ∨ 32 ≤ x.2.2 then some .badParam
  else if evSev x.1 = some 3 ∧ (x.2.1 = 0 ∨ !bit x.2.2 0) then some .badParam
  else none

/-- An entry of EVENT_ROUTE takes effect. -/
def routeOne (e : Evt) (x : Nat × Nat × Nat) : Evt :=
  { e with
    routes := put e.routes x.1 x.2.2,
    disabled := if x.2.1 = 1 then e.disabled.filter (· != x.1)
                else if e.disabled.contains x.1 then e.disabled else e.disabled ++ [x.1] }

def eventRouteBody (rq : Req) (s : State) : Ans :=
  let l := (List.range (rq.payload.length / 4)).map (routeEntry rq.payload)
  match firstRefused routeRefused l 0 with
  | some (i, st) => denyItem st i s
  | none => ({ s with evt := l.foldl routeOne s.evt }, .ok, [])

def execEventRoute (t : Time) (rq : Req) (s : State) : Out := .next (serve 0x06 eventRouteBody rq (s.at t))

/-! ## Event frames (R543) -/

/-- EVENT_GATHER_EXPIRY: the pending records are queued as a frame; a dropped frame raises EVT_CAN_DROPPED. -/
def execEventGatherExpiry (t : Time) (s : State) : Out :=
  let s := s.at t
  match s.evt.gatherDue with
  | some d =>
    if d ≤ s.now then
      let p := s.evt.pushFrame
      .next (raiseIf p.2 evEvtCanDropped 0 { s with evt := p.1 })
    else .next s
  | none => .next s

end Sys2Proof.Machine
end

