-- ==== Sys2Proof/Machine/Retain.lean ====
section
/-! DEFINITION. What SLEEP and a reset keep and lose (R52-R57): the loss on SLEEP entry, the boot-flash records read at
cold-start steps 2 and 3 and at every power-on of the fast domains, and the start-up record (R534). -/

namespace Sys2Proof.Machine

/-! ## SLEEP entry (R54, R56) -/

/-- Latched records of groups other than 0x01 are lost, after HTH_EVENTS_LOST with their number; the enables, routes
and queues of the event block return to reset. Frames already queued for CAN FD stay (R56). -/
def eventsLost (s : State) : State :=
  let n := (s.evt.recs.filter fun r => r.id / 32 != 1).length
  let s1 := raiseIf (n != 0) evHthEventsLost (min n 0x3FF) s
  let e := s1.evt
  { s1 with evt := {
      recs := e.recs.filter fun r => r.id / 32 == 1, canPend := e.canPend, gatherDue := e.gatherDue,
      canFrames := e.canFrames, msix := e.msix } }

/-- The values that an Anvil set gives the parameters of group 0x05 (R127, R151, R548). -/
def anvParams (a : AnvSet) (x : Anv) : Anv :=
  { x with
    verifyConfig := a.verifyConfig.getD x.verifyConfig, reqTimeout := a.reqTimeout.getD x.reqTimeout,
    camTimeout := a.camTimeout.getD x.camTimeout, energyFloor := a.energyFloor.getD x.energyFloor }

/-- What the Hearth keeps of the Anvil record: set, function states, owner session and its timers; the parameters of
group 0x05 are at the values that the set gives them (R56, R57, R151). -/
def anvKept (a : Anv) : Anv :=
  let x : Anv := { set := a.set, states := a.states, drawn := a.states, session := a.session, nonce := a.nonce,
                   claimFails := a.claimFails, lockout := a.lockout, lastSeq := a.lastSeq, ownerDue := a.ownerDue,
                   ownerStale := a.ownerStale }
  match a.set with
  | some t => anvParams t x
  | none => x

/-- What the Hearth keeps of Brugo Link: the role's configuration, numbers and workers, now out of membership. -/
def brgKept (b : Brg) : Brg :=
  { devnum := b.devnum, config := topologyBits b.config ||| 8, numbered := b.numbered,
    workers := b.workers.map fun w => { w with member := false }, fwds := b.fwds, barrierNo := b.barrierNo,
    refuse := b.refuse, manager := b.manager, sent := b.sent, forwarded := b.forwarded }

/-- What a trip leaves of the Forge in SLEEP, which is no reset: the emission limit, a photodiode fault, an emission trip
and a plausibility trip stand until what releases them (R282, R284, R287, R326); ESTOP_N darkens while it is low (R285). -/
def frgKept (s : State) (f : Frg) : Frg :=
  { f with
    ch := tab 24 fun c => { f.ch[c] with pdFault := s.frg.ch[c].pdFault },
    eng := tab 4 fun e => { f.eng[e] with
      limit := s.frg.eng[e].limit, tripAt := s.frg.eng[e].tripAt,
      cause := s.frg.eng[e].cause &&& (if s.hth.estopLow then 0xD else 0xC) } }

/-- The fast domains lose power: everything but the Hearth's retention SRAM, its storage and its front ends is at its
reset value (R54, R56). -/
def fastLost (s : State) : State :=
  let z : State := {}
  { z with
    now := s.now, pending := s.pending, free := s.free, last := s.last, readData := s.readData, otp := s.otp,
    flash := s.flash, hth := s.hth, hst := s.hst, evt := s.evt, anv := anvKept s.anv, mtx := s.mtx,
    tng := { z.tng with refclk := s.tng.refclk },
    grn := { z.grn with stacksUsed := s.grn.stacksUsed, pc := vmap (fun p => { failed := p.failed }) s.grn.pc },
    frg := frgKept s z.frg, srv := { z.srv with trip := s.srv.trip },
    thm := { z.thm with quenches := s.thm.quenches }, brg := brgKept s.brg, sec := s.sec }

/-- PENDING commands that the Hearth's own storage jobs, and a STATE_REQUEST, leave running in SLEEP. -/
def hearthJobs : List Nat := [0x03, 0x60, 0x69, 0x6A, 0x70]

/-- The start-up record whose CRC holds. -/
def startupOk (s : State) : Option Startup :=
  match s.flash.startup with
  | some (r, true) => some r
  | _ => none

/-- The event enables and routes of the record. -/
def startupEvents (r : Startup) (s : State) : State :=
  let e := (List.range 20).foldl (fun (a : Evt) g => a.setEnables g (r.enables[ix 19 g]).toNat) s.evt
  { s with evt := { e with routes := r.routes } }

/-- The event block of the Hearth at its reset values, those marked Flash from the record (R8, R547). -/
def eventReset (s : State) : State :=
  match startupOk s with
  | none => s
  | some r =>
    let s1 := startupEvents r s
    { s1 with evt := { s1.evt with gather := ((look r.params 0x1304).map (·.toNat)).getD 1 } }

/-- SLEEP is entered: deferred and fast-domain commands end with WRONG_STATE, content and events are lost. -/
def sleepEntered (s : State) : State :=
  let s1 := doneAll (fun k => !k.fwd && !hearthJobs.contains k.opcode) .wrongState (dropDeferred (abortCommit s))
  let s2 := fastLost (eventReset (eventsLost (pcieDown (journalAbandon s1))))
  judgeHolder (setHth (fun h => { h with
    fwDone := false, trainDone := false, wakeWaiting := false, fwRuns := false, composed := 0, runSince := none }) s2)

/-! ## Boot-flash records at a power-on of the fast domains -/

/-- The Anvil set is read into the store and checked again; one that fails is not used until a reset finds a valid set,
and a slot without a valid set is reported again (R127). -/
def anvReload (s : State) : State :=
  match s.anv.set with
  | none =>
    let ok : Bool := match s.flash.anvil[s.flash.anvActive] with
      | some a => anvSetOk s a
      | none => false
    raiseIf (!ok) evAnvSetInvalid 0 s
  | some a =>
    if anvSetOk s a then setAnv (anvParams a) s
    else judgeHolder (raise evAnvSetInvalid 0 (setAnv (fun x => { x with set := none }) s))

/-- One parameter marked Flash takes the record's value; the fields that are not marked keep their reset (R548). -/
def loadParam (id : Nat) (v : Word) (s : State) : State :=
  if 0x0810 ≤ id ∧ id < 0x0814 then
    setSwt (Fin.ofNat 4 id) (fun w => { w with config := (w.config &&& 0xC000FFFF) ||| v }) s
  else if 0x0914 ≤ id ∧ id < 0x0918 then setScn (Fin.ofNat 4 id) (fun w => { w with hrange := v }) s
  else if 0x0918 ≤ id ∧ id < 0x091C then setScn (Fin.ofNat 4 id) (fun w => { w with vert := v }) s
  else if 0x091C ≤ id ∧ id < 0x0920 then setScn (Fin.ofNat 4 id) (fun w => { w with centre := v, centreLive := v }) s
  else if 0x0920 ≤ id ∧ id < 0x0924 then setScn (Fin.ofNat 4 id) (fun w => { w with bidir := v, bidirLive := v }) s
  else if 0x0928 ≤ id ∧ id < 0x0940 then
    let c : Fin 24 := Fin.ofNat 24 (id - 0x0928)
    setScn (chanEng c) (fun w => { w with
      chDelay := upd w.chDelay (Fin.ofNat 6 c.val) v, chDelayLive := upd w.chDelayLive (Fin.ofNat 6 c.val) v }) s
  else if id = 0x0A0A then setFrg (fun x => { x with floor := v }) s
  else if 0x0A10 ≤ id ∧ id < 0x0A28 then setCh (Fin.ofNat 24 (id - 0x0A10)) (fun c => { c with cfg := v }) s
  else if 0x0B40 ≤ id ∧ id < 0x0B80 then setLoop (Fin.ofNat 64 id) (fun l => { l with sp := v }) s
  else if id = 0x0C02 then setTng (fun x => { x with config := v }) s
  else if id = 0x0D02 then setGrn (fun g => { g with config := (g.config &&& 0xFFFFFFFC) ||| v }) s
  else if id = 0x0E07 then setThm (fun x => { x with policy := v }) s
  else if id = 0x0F02 then setTmp (fun x => { x with enable := v }) s
  else if id = 0x0F04 then setTmp (fun x => { x with period := v }) s
  else if id = 0x1002 then setBst (fun x => { x with config := v }) s
  else if id = 0x1102 then setBrg (fun b => { b with config := topologyBits b.config ||| distributeBits v }) s
  else if id = 0x1103 then setBrg (fun b => { b with colourTarget := v }) s
  else if id = 0x1304 then { s with evt := { s.evt with gather := v.toNat } }
  else s

/-- REF_SEL of a worker is BRUGO, and of no other device (R350, log 50); an external reference starts acquiring. -/
def refRole (s : State) : State :=
  let sel := wfl s.tng.config 30 2
  let new := if s.hth.role = 2 then 2 else if sel = 2 then 0 else sel
  setTng (fun x => { x with
    config := toW (setFld x.config.toNat 30 2 new),
    frm := { st := if new = 0 then .internal else .acquiring } }) s

/-- The part of the record that the fast domains start with: engine configuration, frame rate, tables, loops, curves,
events, mirror settings and parameters (R57, R534). -/
def startupBase (r : Startup) (s : State) : State :=
  let s1 : State := { s with
    eng := r.engines,
    ing := { s.ing with dptxConfig := r.dptx[(0 : Fin 3)], dptxH := r.dptx[(1 : Fin 3)], dptxV := r.dptx[(2 : Fin 3)] },
    tng := { s.tng with rate := r.rate },
    scn := tab 4 fun e => { s.scn[e] with vct := ⟨#[r.vct[e], []], rfl⟩, bank := 0 },
    frg := { s.frg with ch := tab 24 fun c => { s.frg.ch[c] with curve := r.derate[c], staged := r.derate[c] } },
    srv := { s.srv with loops := tab 64 fun n =>
      { s.srv.loops[n] with cfg := r.loops[n], banks := ⟨#[r.banks[n], none], rfl⟩, live := 0 } } }
  r.params.foldl (fun a p => loadParam p.1 p.2 a) (startupEvents r s1)

/-- The part that is committed: live and shadow set, gamut and warp banks (R57). -/
def startupLive (r : Startup) (s : State) : State :=
  { s with
    cmp := { s.cmp with live := r.layers, shadow := r.layers, canvas := r.canvas, canvasSh := r.canvas },
    clw := { s.clw with
      depths := r.depths, depthsSh := r.depths, dither := r.dither, ditherSh := r.dither,
      gamut := tab 4 fun e => ⟨#[r.gamut[e], none], rfl⟩, gamutLive := Vector.replicate 4 0,
      warp := tab 4 fun e => { dirs := ⟨#[r.warp[e], Vector.replicate 12 {}], rfl⟩ }, mesh := r.mesh },
    ing := { s.ing with winOrg := r.winOrg, winOrgSh := r.winOrg, winSize := r.winSize, winSizeSh := r.winSize },
    thr := { s.thr with
      slotRate := r.slotRate, slotRateSh := r.slotRate,
      eng := tab 4 fun e => { s.thr.eng[e] with
        timing := r.bandTiming[e], timingSh := r.bandTiming[e], focus := r.focus[e], focusSh := r.focus[e] } },
    frg := { s.frg with eng := tab 4 fun e => { s.frg.eng[e] with fRef := r.fRef[e], fRefSh := r.fRef[e] } } }

/-- The record's Sheaf request of an engine is compiled for the budget in force. -/
def startupSheaf (r : Startup) (e : Fin 4) (s : State) : State :=
  match r.sheaf[e] with
  | none => s
  | some q =>
    if s.isMae e then
      let t := s.thr.eng[e]
      let sh := compileSheaf {} q (depthsOf s s.clw.depths e) t.s t.u
      judgeReduced true e {} sh (setThrE e (fun t => { t with
        banks := ⟨#[⟨true, q, sh⟩, {}], rfl⟩, live := 0, write := sh, read := sh, next := sh }) s)
    else s

/-- The Granary publishes its grant; the start-up record is applied and committed (R49 step 9, R57, log 51); one whose
CRC fails is not used (R534). -/
def startupApply (s : State) : State :=
  let s1 := match startupOk s with
    | some r => startupLive r s
    | none => raiseIf s.flash.startup.isSome evHthStartupInvalid 0 s
  let s2 := initBudget s1
  let s3 := match startupOk s with
    | some r => forEng (startupSheaf r) s2
    | none => s2
  let s4 := match startupOk s with
    | some r => forEng (fun e a => match r.gamut[e] with
        | some b => trialApply e (gamutValidated b e a)
        | none => a) s3
    | none => s3
  forEng warpFallback s4

/-- The reset values marked Flash, from the start-up record (R8). -/
def recordLoad (s : State) : State :=
  refRole (match startupOk s with
    | some r => startupBase r s
    | none => s)

/-- What a power-on of the fast domains from SLEEP reads from the boot flash: what a cold start reads at its steps 2 and
3 (R57, R127, R410, R430). -/
def flashReload (s : State) : State := anvReload (repairLoad (journalLoad (recordLoad s)))

end Sys2Proof.Machine
end

