-- ==== Sys2Proof/Machine/Transitions.lean ====
section
/-! DEFINITION. Power-state transitions: their steps (R41-R43), what each step begins and what reaching a state does,
STATE_REQUEST (R44, R45, R499), IGN and WAKE (R36-R39, R566), and quench recovery (R395, R396). -/

namespace Sys2Proof.Machine

/-! ## Routes (R43, log 52) -/

/-- The next state on the way: SLEEP and READY border each other in the transition table, QUENCH is left through
STANDBY, SAFE through READY or SLEEP. -/
def nextState (leaving target : PState) : PState :=
  match leaving with
  | .sleep => if target = .standby then .standby else .ready
  | .standby => if target = .sleep then .sleep else .ready
  | .ready => target
  | .lit => .ready
  | .quench => .standby
  | .safe => if target = .sleep then .sleep else .ready
  | .off => .sleep

/-- WAKE_TARGET and IGN_OFF_TARGET (R36). -/
def wakeTarget (s : State) : PState :=
  match wfl s.hth.wakeConfig 6 2 with
  | 0 => .standby | 1 => .ready | _ => .lit
def ignOffTarget (s : State) : Option PState :=
  match wfl s.hth.wakeConfig 8 2 with
  | 1 => some .standby | 2 => some .sleep | _ => none

/-! ## Entry to LIT (R44, R490) -/

/-- The engines on which a request is judged: in SLEEP those of the start-up record, which a wake restores. -/
def engAfterWake (s : State) : Vector EngCfg 4 :=
  if s.hth.pwr = .sleep then match startupOk s with
    | some r => r.engines
    | none => Vector.replicate 4 {}
  else s.eng

/-- The refusals of R44, in their order. -/
def litRefused (s : State) : Option Status :=
  let lc := s.otp.lifecycle
  let v := engAfterWake s
  let used := (List.finRange 4).filter fun e => v[e].kind != .unused
  if lc = 0 ∨ lc = 5 then some .deniedLifecycle
  else if s.hth.estopLow then some .hwFault
  else if 2144 - thmOffset s - 48 ≤ s.thm.tj then some .thermalInhibit
  else if used.isEmpty ∨ (used.any fun e => otpLimit s e == 0) then some .wrongState
  else none

/-! ## The beginning of a step -/

/-- The switched rails power up (R552). -/
def railsUp (s : State) : State :=
  setHth (fun h => { h with boot := .rails, pwrEn := 7, railRetried := false, railRetryDue := none }) s

/-- The fast domains are asked for: at once, or when the rails have discharged (R555). -/
def powerUp (s : State) : State :=
  if s.hth.boot = .off then railsUp s
  else if s.hth.boot = .discharge then setHth (fun h => { h with wakeWaiting := true }) s
  else s

/-- Bring-up of the links that are OFF, excitation of the scanners (R232, R244); with `again`, on the way out of SAFE, of
every link that is neither READY nor ACTIVE. -/
def enginesStart (again : Bool) (s : State) : State :=
  forEng (fun e a =>
    let start : Bool := a.swt[e].link == .off || (again && a.swt[e].link != .ready && a.swt[e].link != .active)
    scanStart e (if a.isMae e && start then linkStart e a else a)) s

/-- What a step begins with. -/
def stepBegins (leaving stepTo : PState) (s : State) : State :=
  if (leaving = .sleep ∨ leaving = .safe) ∧ stepTo ≠ .sleep ∧ s.hth.boot ≠ .on then powerUp s
  else if stepTo = .ready ∧ leaving = .standby then
    servoStart (enginesStart false (setGrn (fun g => { g with selfRefresh := false }) (allPlls pllOn s)))
  else if stepTo = .lit then enginesStart false s
  else s

/-- When the PCIe link becomes available (R34). A wake for STANDBY counts too: one that is abandoned into SAFE has its
link from then. -/
def linkTimer (leaving target : PState) (s : State) : State :=
  if leaving = .sleep then setHst (fun h => { h with linkDue := some (s.now + 100 * ms) }) s
  else if leaving = .standby ∧ target ≠ .sleep then setHst (fun h => { h with linkDue := some (s.now + 40 * ms) }) s
  else s

/-- A step of the running transition begins. -/
def goOn (t : Trans) (leaving : PState) (s : State) : State :=
  let n := nextState leaving t.target
  stepBegins leaving n (linkTimer leaving t.target (setHth (fun h => { h with
    trans := some { t with leaving := leaving, stepTo := n } }) s))

/-- A transition begins. -/
def startTrans (target : PState) (cause : Nat) (cmd : Option PendKey) (s : State) : State :=
  let p := s.hth.pwr
  goOn { start := p, target := target, leaving := p, stepTo := p, cause := cause, cmd := cmd } p s

/-! ## Held events (R41, R566) -/

/-- The lamp check is lit (R39). -/
def lampCheckOn (s : State) : State := setHth (fun h => { h with lampCheck := true, lampCheckEnded := [] }) s

/-- A rise of IGN (bit 0 of WAKE_SRC) or WAKE (bit 1). In SAFE nothing is held. -/
def riseActs (ev : HeldEv) (s : State) : State :=
  let ign := ev == .ignRise
  let s1 := if ign ∧ s.hth.pwr = .sleep then lampCheckOn s else s
  let target := wakeTarget s
  if s.hth.pwr = .safe ∨ s.hth.pwr = .off then s1
  else if s.busy ∨ s.hth.pwr = .quench then setHth (fun h => { h with held := some ev }) s1
  else if target.rank ≤ s.hth.pwr.rank ∨ (s.hth.pwr = .ready ∧ (litRefused s).isSome) then s1
  else
    let s2 := if s.hth.pwr = .sleep then setHth (fun h => { h with wakeSrc := if ign then 1 else 2 }) s1 else s1
    startTrans target (if ign then 0x02 else 0x04) none s2

/-- The IGN-off move (R37, R566). -/
def ignOffActs (s : State) : State :=
  match ignOffTarget s with
  | none => s
  | some target =>
    if s.hth.pwr = .safe ∨ s.hth.pwr = .off then s
    else if s.busy ∨ s.hth.pwr = .quench then setHth (fun h => { h with held := some .ignOff }) s
    else if s.hth.pwr.rank ≤ target.rank then s
    else startTrans target 0x03 none s

/-- Quench recovery (R395, R396, R36): SAFE keeps its state and its domains come back; QUENCH is left for STANDBY,
and for the state held before it with QUENCH_RESUME = 1. -/
def recover (s : State) : State :=
  let cool (s : State) : State := forEng (releaseCause · 1) (setThm (fun x => { x with q := 16, slopeStop := false }) s)
  if s.hth.pwr = .safe ∧ s.thm.safeQuench then
    allPlls (fun p a => if a.tng.pll[p].off then pllOn p a else a)
      (setGrn (fun g => { g with selfRefresh := false }) (setThm (fun x => { x with safeQuench := false }) (cool s)))
  else if s.hth.pwr = .quench then
    if s.busy then setHth (fun h => { h with held := some .quenchRecovered }) s
    else
      let back : PState := if wb s.hth.wakeConfig 5 && !s.thm.repeated then s.hth.beforeQuench else .standby
      startTrans back 0x12 none (cool s)
  else if quenchRuns s then setHth (fun h => { h with held := some .quenchRecovered }) s
  else s

/-- A held event acts. -/
def heldActs (ev : HeldEv) (s : State) : State :=
  match ev with
  | .ignRise => riseActs .ignRise s
  | .wakeRise => riseActs .wakeRise s
  | .ignOff => ignOffActs s
  | .quenchRecovered => recover s

/-! ## The end of a step and of a transition -/

/-- The transition ends in a state: HTH_STATE_CHANGE, the STATE_REQUEST completes, the held event acts. -/
def transEnds (t : Trans) (p : PState) (st : Status) (s : State) : State :=
  let held := s.hth.held
  let s1 := enterState t.cause t.start p (setHth (fun h => { h with held := none }) s)
  let s2 := match t.cmd with
    | some k => cmdDone k st s1
    | none => s1
  match held with
  | some ev => heldActs ev s2
  | none => s2

/-- An intermediate state is passed (R43). -/
def passState (p : PState) (s : State) : State :=
  setHth (fun h => { h with
    pwr := p,
    runSince := if p = .ready then (if h.pwr = .lit then h.runSince else some s.now) else none }) s

/-- The deferred commands run as READY is reached (R493); `lit`: READY is passed on the way to LIT. -/
def runDeferred (lit : Bool) (s : State) : State :=
  let one (s : State) (rq : Req) : State :=
    if !stateOk rq .ready || (lit && !stateOk rq .lit) then cmdDone (reqKey rq) .wrongState s
    else
      let a : Ans := match rq.opcode with
        | 0x12 => commitRun rq s
        | 0x20 => sheafLoadRun rq s
        | 0x32 => loopSwapRun rq s
        | _ => memTrainRun rq s
      if a.2.1 = .pending then a.1 else cmdDone (reqKey rq) a.2.1 a.1
  trainSettle (s.hst.deferred.foldl one (setHst (fun h => { h with deferred := [] }) s))

/-- What reaching READY does: composition starts, ports run, the mirror is trained (R49 step 9, R124, R439). -/
def readyReached (leaving : PState) (s : State) : State :=
  if leaving = .lit then judgeHolder (forEng engineDark s)
  else
    let s1 := setHth (fun h => { h with
      composed := if leaving = .safe then h.composed else 0,
      composeFrom := if leaving = .sleep then s.now + 200 * us else h.composeFrom }) s
    portsFollow (mirrorEnable (if leaving = .safe then servoStart (enginesStart true s1) else s1))

/-- What reaching STANDBY does (R34, R56, R114, R232, R244, R317). -/
def standbyReached (s : State) : State :=
  let s1 := servoStop (forEng (fun e a => linkOff e (scanOff e a)) (allDark (abortCommit s)))
  let s2 := allPlls pllOff (setGrn (fun g => { g with selfRefresh := true }) s1)
  let s3 := sliceAbandon (journalAbandon (pcieDown s2))
  judgeHolder (portsFollow (setHth (fun h => { h with composed := 0 })
    { s3 with ing := { s3.ing with dptxTrained := false } }))

/-- What reaching SLEEP does: the wipes, then the rails fall 100 us apart and discharge within 5 ms (R54, R555). -/
def sleepReached (s : State) : State :=
  let on : Bool := s.hth.boot != .off
  setHth (fun h => { h with
    boot := if on then .discharge else .off, pwrEn := 0,
    dischargeDue := if on then some (s.now + 5200 * us) else none }) (sleepEntered s)

/-- What reaching a state does. -/
def stateReached (leaving p : PState) (s : State) : State :=
  match p with
  | .ready => readyReached leaving s
  | .standby => standbyReached s
  | .sleep => sleepReached s
  | _ => s

/-- An IGN or WAKE rise or an IGN-off move is held: an event that acts under R566. A quench recovery held beside it
acts when the transition ends (R41). -/
def heldMove (s : State) : Bool :=
  match s.hth.held with
  | none => false
  | some ev => ev != .quenchRecovered

/-- The step of transition `t` is complete. From QUENCH, STANDBY is the end when the quench is the third within 600 s
or an event is held; a held rise does not act after such a third quench (R396, R566). Into LIT, R44 is judged at each
step that enters it. -/
def stepDone (t : Trans) (s : State) : State :=
  let p := t.stepTo
  let quench := t.leaving == .quench
  let last := p == t.target || (quench && (s.thm.repeated || heldMove s))
  let s0 := if quench && s.thm.repeated && s.hth.held != some .ignOff then setHth (fun h => { h with held := none }) s
            else s
  let s1 := stateReached t.leaving p (passState p s0)
  let lit := !last && nextState p t.target == .lit
  let refused := if lit then litRefused s1 else none
  let s2 := if p = .ready ∧ t.leaving ≠ .lit then runDeferred (lit && refused.isNone) s1 else s1
  match s2.hth.trans with
  | none => s2
  | some _ =>
    if last then transEnds t p .ok s2
    else match refused with
      | some st => transEnds t p st s2
      | none => goOn t p s2

/-! ## TRANSITION_COMPLETE -/

/-- The pseudo-channels that fail the check on leaving self-refresh are retrained (R49, STANDBY to LIT step 3). -/
def retrainMany (l : List (Fin 64)) (s : State) : State :=
  l.foldl (fun a c => if pcWorks a c then retrain c a else a) s

/-- Some pseudo-channel is still being retrained. -/
def anyRetraining (s : State) : Bool := (List.finRange 64).any fun c => s.grn.pc[c].retraining

/-- QUENCH is reached: ramp over or not needed (R392, R395). A recovery that came meanwhile acts now; IGN, WAKE and
IGN-off stay held (R41, R566). -/
def quenchDone (t : Trans) (s : State) : State :=
  if t.leaving = .lit ∧ s.thm.quenching ∧ s.thm.q ≠ 0 then s
  else
    let s1 := portsFollow (sliceAbandon (journalAbandon (quenchReached t s)))
    if s1.hth.held = some .quenchRecovered then recover (setHth (fun h => { h with held := none }) s1) else s1

/-- TRANSITION_COMPLETE: the sequence of the step in progress has run (R43). A wake runs its own chain of commands, and
LIT is entered by a frame start (R48, R49). -/
def execTransitionComplete (t : Time) (retrain : List (Fin 64)) (s : State) : Out :=
  let s := s.at t
  match s.hth.trans with
  | none => .next s
  | some tr =>
    match tr.stepTo with
    | .lit => .next s
    | .quench => .next (quenchDone tr s)
    | .ready =>
      if s.hth.boot ≠ .on then .next s
      else if tr.leaving = .standby then
        let s1 := retrainMany retrain s
        .next (if anyRetraining s1 then s1 else stepDone tr s1)
      else .next (stepDone tr s)
    | .standby => if tr.leaving = .sleep then .next s else .next (stepDone tr s)
    | .sleep => .next (stepDone tr s)
    | _ => .next s

/-! ## IGN and WAKE -/

/-- IGN_RISE, debounced: it cancels a running IGN-off delay (R37, R38). -/
def execIgnRise (t : Time) (s : State) : Out :=
  let s := s.at t
  let s1 := setHth (fun h => { h with ign := true, rcRun := true, lastActivity := s.now }) s
  if s.hth.boot = .hold ∨ !wb s.hth.wakeConfig 0 then .next s1
  else .next (riseActs .ignRise (setHth (fun h => { h with ignOffDue := none }) s1))

/-- IGN_FALL: the IGN-off delay begins (R37). -/
def execIgnFall (t : Time) (s : State) : Out :=
  let s := s.at t
  let s1 := setHth (fun h => { h with ign := false }) s
  if s.hth.boot = .hold ∨ !wb s.hth.wakeConfig 0 ∨ !s.hth.ign then .next s1
  else .next (setHth (fun h => { h with ignOffDue := some (s.now + h.ignOffDelay.toNat * (100 * ms)) }) s1)

/-- IGN_OFF_DELAY_EXPIRY. -/
def execIgnOffDelayExpiry (t : Time) (s : State) : Out :=
  let s := s.at t
  match s.hth.ignOffDue with
  | some d => if d ≤ s.now then .next (ignOffActs (setHth (fun h => { h with ignOffDue := none }) s)) else .next s
  | none => .next s

/-- WAKE_RISE, debounced. -/
def execWakeRise (t : Time) (s : State) : Out :=
  let s := s.at t
  let s1 := setHth (fun h => { h with wake := true, rcRun := true, lastActivity := s.now }) s
  if s.hth.boot = .hold ∨ !wb s.hth.wakeConfig 1 then .next s1 else .next (riseActs .wakeRise s1)

/-! ## Quench recovery -/

/-- QUENCH_RECOVERY: Tj has been below 119 degrees C - OFFSET for 250 ms (R395, R396). -/
def execQuenchRecovery (t : Time) (s : State) : Out :=
  let s := s.at t
  if dwellDone s s.thm.coolSince then .next (recover s) else .next s

/-! ## STATE_REQUEST -/

/-- A SAFE cause persists (R45). -/
def safePersists (s : State) : Bool :=
  s.hth.estopLow || (List.finRange 4).any (fun p => s.tng.pll[p].lbist || (s.tng.pll[p].lost && !s.tng.pll[p].off))
    || tooManyFailed s || (s.hth.fwAbsent && !s.flash.mainPending) || s.thm.safeQuench

/-- The main firmware restarts on the active image after a watchdog expiry (R45, R476). -/
def firmwareRestart (s : State) : State :=
  if s.hth.fwRuns ∨ !s.hth.fwDone then s
  else match s.flash.main[s.flash.mainActive] with
    | some im => setHth (fun h => { h with fwRuns := true, mainVer := im.version, mainSvn := im.svn }) s
    | none => setHth (fun h => { h with fwAbsent := true }) s

/-- A STATE_REQUEST into LIT restarts failed links and stopped scanners (R233, R262, R499). -/
def litRestarts (s : State) : State :=
  forEng (fun e a =>
    let dead : Bool := a.swt[e].link == .failed || a.swt[e].link == .down
    scanRestart e (if a.isMae e && dead then linkStart e a else a)) s

/-- WAKE_SRC of a request: bit 2 CAN FD, bit 3 SPI (R35). -/
def requestSrc : Port → BitVec 4
  | .spi => 8
  | .canCmd => 4
  | .canSafety => 4
  | _ => 0

/-- STATE_REQUEST. -/
def stateRequestBody (rq : Req) (s : State) : Ans :=
  let target : Option PState := match byteAt rq.payload 0 with
    | 1 => some .sleep | 2 => some .standby | 3 => some .ready | 4 => some .lit | _ => none
  match target with
  | none => deny .badParam s
  | some p =>
    if s.busy then deny .busy s
    else if s.hth.pwr = .quench then deny .thermalInhibit s
    else if p = s.hth.pwr then (s, .ok, [])
    else match if p = .lit then litRefused s else none with
      | some st => deny st s
      | none =>
        if s.hth.pwr = .safe ∧ safePersists s then deny .hwFault s
        else
          let s1 := if s.hth.pwr = .sleep then setHth (fun h => { h with wakeSrc := requestSrc rq.port }) s else s
          let s2 := if s.hth.pwr = .safe then firmwareRestart (forEng (releaseCause · 0) s1) else s1
          let s3 := if p = .lit ∧ s.hth.pwr ≠ .safe then litRestarts s2 else s2
          (startTrans p 0x01 (some (reqKey rq)) s3, .pending, [])

/-- The level of ESTOP_N as the request finds it; outside SAFE its dark cause ends with it (R285, log 3). -/
def estopSample (high : Bool) (s : State) : State :=
  let s1 := setHth (fun h => { h with estopLow := !high }) s
  if high ∧ s.hth.estopLow ∧ s.hth.pwr ≠ .safe then forEng (releaseCause · 0) s1 else s1

def execStateRequest (t : Time) (rq : Req) (estopN : Bool) (s : State) : Out :=
  .next (serve 0x03 stateRequestBody rq (estopSample estopN (s.at t)))

end Sys2Proof.Machine
end

