-- ==== Sys2Proof/Machine/Startup.lean ====
section
/-! DEFINITION. Resets and the cold start (R49-R52), the power-up of the fast domains (R552-R555, R427, R428), firmware
verification (R474, R476), HBM training and wipe (R49, R53), the supply monitors (R399, R550), the oscillators of the
Hearth (R29, R30, R40). -/

namespace Sys2Proof.Machine

/-! ## Cold start, steps 1 to 3 -/

/-- The flash wipe that entry to RETURN (4) or SCRAPPED (5) has left to do (R468). -/
def flashWiped (f : Flash) : Flash :=
  if f.wipe = 4 then
    { f with anvil := Vector.replicate 2 none, anvPending := false, startup := none, hearth := none, brgConfig := 8, wipe := 0 }
  else if f.wipe = 5 then
    { patchActive := f.patchActive, mainActive := f.mainActive, anvActive := f.anvActive,
      patch := Vector.replicate 2 none, main := Vector.replicate 2 none, anvil := Vector.replicate 2 none }
  else f

/-- The role of a BRG_CONFIG value and the ROLE strap (R436). -/
def roleOf (config : Word) (strap : Bool) : Nat :=
  match wfl config 30 2 with
  | 0 => if strap then 2 else if wb config 0 || wb config 1 then 1 else 0
  | n => n - 1

/-- Writes that a reset or a power loss cuts off: a state word is left in part programmed, the start-up record without a
valid CRC; the slot of an image or a journal record is invalid from the write's start (R413, R464, R475). -/
def writesTorn (s : State) : State :=
  let s1 : State := match s.sec.otpJob with
    | some (.lifecycle _ target) =>
      let i : Fin 5 := Fin.ofNat 5 (target - 1)
      { s.fresh.2 with otp := { s.otp with lcWords := upd s.otp.lcWords i (partWord s.otp.lcWords[i] s) } }
    | _ => s
  match s.sec.flashJob with
  | some (.capture _ r _) => { s1 with flash := { s1.flash with startup := some (r, false) } }
  | _ => s1

/-- Everything volatile at its reset value; storage, model time and the crystal go on (R52, R69). -/
def volatileLost (s : State) : State :=
  let s := writesTorn s
  let z : State := {}
  { z with
    now := s.now, pending := s.pending, free := s.free, last := s.last, readData := s.readData, otp := s.otp,
    flash := s.flash, hth := { z.hth with xtalOk := s.hth.xtalOk, onRc := s.hth.onRc, temp := s.hth.temp } }

/-- Steps 1 and 2: pins, role and Hearth records (R49, R534). -/
def hearthBoot (pins : Pins) (s : State) : State :=
  let f := flashWiped s.flash
  let h := { s.hth with
    boot := .off, ign := pins.ign, wake := pins.wake, estopLow := !pins.estopN, timeBase := s.now,
    lastActivity := s.now, rcRun := true, role := roleOf f.brgConfig pins.role, lock := s.otp.lifecycle == 3 }
  let h := match f.hearth with
    | some r => { h with wakeConfig := r.wakeConfig, ignOffDelay := r.ignOffDelay, can := r.can, canNext := r.can }
    | none => h
  let m : Mtx := match f.hearth with
    | some r => { level := r.mtxLevel, lamps := r.lamps, stored := r.lamps }
    | none => {}
  { s with
    flash := f, hth := h, mtx := m, brg := { s.brg with config := f.brgConfig },
    sec := { s.sec with incomplete := !s.otp.partialWords.isEmpty },
    frg := if pins.estopN then s.frg
      else { s.frg with eng := vmap (fun (x : FrgEng) => { x with cause := x.cause ||| 1 }) s.frg.eng } }

/-- An image of the Hearth patch (image 1) or the main firmware (image 2) to be started: the pending one, else the
active one (R474). -/
def bootSlot (f : Flash) (main : Bool) : Option Image :=
  if main then f.main[if f.mainPending then other f.mainActive else f.mainActive]
  else f.patch[if f.patchPending then other f.patchActive else f.patchActive]

/-- The image to be started verifies; `v` is what its verification found (R474). -/
def bootVerifies (s : State) (main : Bool) (v : Verify) : Bool :=
  (bootSlot s.flash main).isSome && v.sigOk && decide (svnMin s main ≤ v.svn)

/-- The active image that a pending one falls back to (R476): it is one that has verified, but for its SVN. -/
def fallbackImage (s : State) (main : Bool) : Option Image :=
  let i := if main then s.flash.main[s.flash.mainActive] else s.flash.patch[s.flash.patchActive]
  match i with
  | some x => if svnMin s main ≤ x.svn then some x else none
  | none => none

/-- The pending mark cleared: SEC_FW_FALLBACK (R476). -/
def pendingDropped (main : Bool) (s : State) : State :=
  let f := s.flash
  raise evSecFwFallback (if main then 2 else 1)
    { s with flash := if main then { f with mainPending := false } else { f with patchPending := false } }

/-- Step 3: the patch signature (R49, R51, R476). -/
def patchBoot (v : Verify) (s : State) : State :=
  if bootVerifies s false v then
    setSec (fun x => { x with patchTrial := s.flash.patchPending })
      (setHth (fun h => { h with patchRuns := true, patchVer := v.version, patchSvn := v.svn }) s)
  else
    let s1 := if s.flash.patchPending then pendingDropped false s else s
    match if s.flash.patchPending then fallbackImage s1 false else none with
    | some im => setHth (fun h => { h with patchRuns := true, patchVer := im.version, patchSvn := im.svn }) s1
    | none => raise evHthPatchInvalid 0 (setHth (fun h => { h with patchRuns := false }) s1)

/-- Step 3: the Anvil set; a pending one becomes active when it is valid (R127, R134, R476). -/
def anvilBoot (s : State) : State :=
  let f := s.flash
  let ok (o : Option AnvSet) : Option AnvSet := match o with
    | some a => if anvSetOk s a then some a else none
    | none => none
  let pend := if f.anvPending then ok f.anvil[other f.anvActive] else none
  let s1 : State := match pend with
    | some _ => { s with flash := { f with anvActive := other f.anvActive, anvPending := false } }
    | none => s
  match pend.or (ok f.anvil[f.anvActive]) with
  | some a =>
    let states : Vector (BitVec 2) 256 := a.functions.foldl (fun v g =>
      upd v (Fin.ofNat 256 g.num) (BitVec.ofNat 2 g.resetState)) (Vector.replicate 256 0)
    setAnv (fun x => anvParams a { x with set := some a, states := states, drawn := states }) s1
  | none => raise evAnvSetInvalid 0 s1

/-- Steps 1 to 3 of the cold start (R49), with the events that belong to them. Reset values from flash are loaded before
a packet is accepted (R8). -/
def coldBoot (pins : Pins) (patch : Verify) (s : State) : State :=
  let s0 := forEng (fun e a => setFrgE e (fun g => { g with limit := otpLimit a e }) a) (hearthBoot pins (volatileLost s))
  let s1 := recordLoad s0
  let s2 := s1.otp.partialWords.foldl (fun a n => raise evSecLcIncomplete n a) s1
  let s3 := anvilBoot (patchBoot patch s2)
  let stk := match startupOk s3 with
    | some r => match look r.params 0x0D02 with
      | some v => if wfl v 0 2 = 1 then 1 else 3
      | none => 3
    | none => 3
  judgeHolder (ownerTimer (setGrn (fun g => { g with stacksUsed := stk }) (repairLoad (journalLoad s3))))

/-- The cold start (R49, R566): to WAKE_TARGET when IGN or WAKE is high, else to SLEEP. -/
def coldStart (pins : Pins) (patch : Verify) (s : State) : State :=
  let s1 := coldBoot pins patch s
  let ign := pins.ign && wb s1.hth.wakeConfig 0
  let wake := pins.wake && wb s1.hth.wakeConfig 1
  if ign || wake then
    let s2 := if ign then lampCheckOn s1 else s1
    goOn { start := .off, target := wakeTarget s2, leaving := .sleep, stepTo := .sleep, cause := 0, cmd := none } .sleep
      (setHth (fun h => { h with wakeSrc := BitVec.ofNat 4 (b2n ign + 2 * b2n wake) }) s2)
  else enterState 0 .off .sleep (sleepEntered s1)

/-- POWER_ON: supplies applied, PORST_N rises. The crystal starts anew (log 6). -/
def execPowerOn (t : Time) (pins : Pins) (patch : Verify) (s : State) : Out :=
  let s := s.at t
  .next (coldStart pins patch (setHth (fun h => { h with xtalOk := true, onRc := false }) s))

/-- RESET: a PORST_N pulse of at least 10 us, or an internal reset (R52). -/
def execReset (t : Time) (kind : ResetKind) (pins : Pins) (patch : Verify) (s : State) : Out :=
  let s := s.at t
  let short : Bool := match kind with
    | .porst w => decide (w < 10 * us)
    | .internal => false
  if short || s.hth.pwr == .off then .next s else .next (coldStart pins patch s)

/-- DELAYED_RESET: the reset that follows a destructive test or a life-cycle transition by 10 ms (R418, R468). -/
def execDelayedReset (t : Time) (pins : Pins) (patch : Verify) (s : State) : Out :=
  let s := s.at t
  match s.hth.resetDue with
  | some d => if d ≤ s.now then .next (coldStart pins patch s) else .next s
  | none => .next s

/-- POWER_LOSS: the device is OFF; only storage keeps its content (R35, R56). -/
def execPowerLoss (t : Time) (s : State) : Out :=
  .next (setHth (fun h => { h with pwr := .off, boot := .hold }) (volatileLost (s.at t)))

/-! ## Power-up of the fast domains (R552-R555) -/

/-- The fast domains leave isolation: start-up tests, PLLs, the clock aligner's lock 640 ns later, records from the boot
flash (R335, R427, R428, R57). `fail`: partitions that failed the start-up logic BIST. -/
def domainsUp (fail : BitVec 4) (s : State) : State :=
  let cold : Bool := match s.hth.trans with
    | some t => t.start == .off
    | none => false
  let s1 := setHth (fun h => { h with boot := .loading, fwDone := false, trainDone := false, fwRuns := false }) s
  let s1 : State := { s1 with thm := { s1.thm with stackAt := Vector.replicate 2 s.now } }
  let s1 := if s1.hth.estopLow then forEng (fun e a => darkCause e 0 a) s1 else s1
  let s2 := if cold then s1 else flashReload s1
  let s3 := setBst (fun b => { b with lbist := fail, lbistRan := true }) s2
  let s4 := allPlls (fun p a =>
    pllOn p (setPll p (fun x => { x with lbist := fail.toNat.testBit p.val }) a)) s3
  let s5 := setTng (fun x => { x with frameAt := s.now, framePeriod := nominal s4 }) s4
  let s6 := if s5.tng.refclk then raise evTngLocked 0 (setTng (fun x => { x with
      clk := { st := .locked, run := 64, edge := some s.now } }) s5) else s5
  if fail = 0 then mirrorEnable s6 else mirrorEnable (enterSafe 0x21 (raise evBstLbistFail fail.toNat s6))

/-- The second failed power-up: SLEEP with the switched groups off (R553); in SAFE the state stays. -/
def railsFailed (rail : Option (Fin 13)) (s : State) : State :=
  let off (s : State) : State := setHth (fun h => { h with boot := .off, pwrEn := 0, dischargeDue := none }) s
  let ev (s : State) : State := raise evThmSupplyFault (match rail with | some r => r.val | none => 31) s
  match s.hth.trans with
  | some t => transEnds t .sleep .hwFault (ev (off (sleepEntered (setHth (fun h => { h with pwr := .sleep }) s))))
  | none => ev (off s)

/-- PWR_GOOD_CHECK at step 4 of the sequence. -/
def execPwrGoodCheck (t : Time) (good : Bool) (badRail : Option (Fin 13)) (lbistFail : BitVec 4) (s : State) : Out :=
  let s := s.at t
  if s.hth.boot ≠ .rails then .next s
  else if good then .next (domainsUp lbistFail s)
  else if s.hth.railRetried then .next (railsFailed badRail s)
  else .next (setHth (fun h => { h with
    boot := .retryWait, pwrEn := 0, railRetried := true, railRetryDue := some (s.now + 100 * ms) }) s)

/-- PWR_SEQUENCE_RETRY: 100 ms after the first failure the sequence runs again. -/
def execPwrSequenceRetry (t : Time) (s : State) : Out :=
  let s := s.at t
  match s.hth.railRetryDue with
  | some d =>
    if s.hth.boot = .retryWait ∧ d ≤ s.now then
      .next (setHth (fun h => { h with boot := .rails, pwrEn := 7, railRetryDue := none }) s)
    else .next s
  | none => .next s

/-- RAIL_DISCHARGE_DONE: a wake that waited begins (R555). -/
def execRailDischargeDone (t : Time) (s : State) : Out :=
  let s := s.at t
  if s.hth.boot ≠ .discharge then .next s
  else
    let s1 := setHth (fun h => { h with boot := .off, dischargeDue := none, wakeWaiting := false }) s
    .next (if s.hth.wakeWaiting then railsUp s1 else s1)

/-! ## Main firmware (R49 steps 5 and 6, R51, R463, R474, R476) -/

/-- A running main firmware; `trial`: it is the pending image. -/
def firmwareRuns (trial : Bool) (version svn : Nat) (s : State) : State :=
  setSec (fun x => { x with mainTrial := trial })
    (setHth (fun h => { h with fwDone := true, fwRuns := true, fwAbsent := false, mainVer := version, mainSvn := svn }) s)

/-- The firmware measurement, recorded once a reset (R463); `main` is the image that verified. -/
def measure (main : Option Image) (s : State) : State :=
  if s.sec.measured then s
  else
    let none32 : List Byte := List.replicate 32 0
    let patch := if s.hth.patchRuns then
        match if s.sec.patchTrial then s.flash.patch[other s.flash.patchActive] else s.flash.patch[s.flash.patchActive] with
        | some im => im.bytes
        | none => none32
      else none32
    let img := match main with
      | some im => im.bytes
      | none => none32
    let anv := match s.anv.set with
      | some a => a.bytes
      | none => none32
    setSec (fun x => { x with measurement := sha256 (patch ++ img ++ anv), measured := true }) s

/-- Step 6 begins bring-up, excitation and the Servo Engine (R49, R232, R244, R317), but not in SAFE nor on a quench. -/
def stepSix (s : State) : State :=
  if s.hth.pwr = .safe ∨ s.hth.pwr = .quench ∨ quenchRuns s then s else servoStart (enginesStart false s)

/-- No main firmware verifies: the fast domains go off, SAFE with cause 0x23 (R51). -/
def firmwareMissing (s : State) : State :=
  let s1 := measure none (setHth (fun h => { h with boot := .off, pwrEn := 0, fwRuns := false, fwAbsent := true }) s)
  enterSafe 0x23 (forEng (fun e a => linkOff e (scanOff e a)) (allPlls pllOff s1))

/-- FIRMWARE_VERIFY_COMPLETE. -/
def execFirmwareVerifyComplete (t : Time) (v : Verify) (s : State) : Out :=
  let s := s.at t
  if s.hth.boot ≠ .loading ∨ s.hth.fwDone then .next s
  else if bootVerifies s true v then
    .next (stepSix (measure (bootSlot s.flash true) (firmwareRuns s.flash.mainPending v.version v.svn s)))
  else
    let s1 := if s.flash.mainPending then pendingDropped true s else s
    match if s.flash.mainPending then fallbackImage s1 true else none with
    | some im => .next (stepSix (measure (some im) (firmwareRuns false im.version im.svn s1)))
    | none => .next (firmwareMissing s1)

/-- MAIN_FIRMWARE_WATCHDOG: SAFE with cause 0x24; a pending image is abandoned (R45, R476). -/
def execMainFirmwareWatchdog (t : Time) (s : State) : Out :=
  let s := s.at t
  if !s.hth.fwRuns then .next s
  else
    let s1 := setHth (fun h => { h with fwRuns := false }) s
    let s2 := if s.sec.mainTrial then setSec (fun x => { x with mainTrial := false }) (pendingDropped true s1) else s1
    .next (enterSafe 0x24 s2)

/-! ## HBM (R49 steps 7 to 9, R53, R376, R405) -/

/-- HBM_TRAINING_COMPLETE: the pseudo-channels that could not be trained are marked failed; the trained settings become
the stored values. -/
def execHbmTrainingComplete (t : Time) (failed : List (Fin 64)) (taps : List (Nat × Int)) (s : State) : Out :=
  let s := s.at t
  if s.hth.boot ≠ .loading ∨ s.hth.trainDone then .next s
  else
    let s1 := setHth (fun h => { h with trainDone := true }) (setGrn (fun g => { g with sound := true }) s)
    .next (failed.foldl (fun a c => if pcInUse a c && !a.grn.pc[c].failed then failPc c a else a) (forceTaps 2 taps s1))

/-- CHAFF_WIPE_COMPLETE: HBM content is zero, Temper records and the start-up record apply, the state of the step is
reached (R49 steps 8 and 9, R57). In SAFE the state stays. -/
def execChaffWipeComplete (t : Time) (s : State) : Out :=
  let s := s.at t
  if s.hth.boot ≠ .loading ∨ !s.hth.fwDone ∨ !s.hth.trainDone then .next s
  else
    let s1 := setGrn (fun g => { g with
        hbm := [], written := [], spoilt := none, selfRefresh := s.hth.pwr == .quench || quenchRuns s || s.thm.safeQuench })
      (setHth (fun h => { h with boot := .on }) s)
    let s2 := startupApply s1
    match s2.hth.trans with
    | some tr => if tr.stepTo = .ready ∨ tr.stepTo = .standby then .next (stepDone tr s2) else .next s2
    | none => .next s2

/-! ## The PCIe link (R34, R567) -/

/-- The mailbox accepts link training: from the time R34 gives, while the HOST PLL is locked. -/
def linkAvailable (s : State) : Bool :=
  let due : Bool := match s.hst.linkDue with
    | some d => decide (d ≤ s.now)
    | none => false
  let down : Bool := match s.hth.trans with
    | some t => t.target == .standby || t.target == .sleep
    | none => s.hth.pwr == .sleep
  due && !down && s.fastUp && s.hth.pwr != .standby && s.tng.pll[(3 : Fin 4)].locked && !s.hst.linkUp

/-- PCIE_LINK_UP: the vectors of the groups that hold a latched MSI-X source are sent (R567). -/
def execPcieLinkUp (t : Time) (gen width : Nat) (s : State) : Out :=
  let s := s.at t
  if linkAvailable s then
    .next { s with
      hst := { s.hst with linkUp := true, linkGen := gen % 16, linkWidth := width % 16, linkDue := none },
      evt := s.evt.msixGroups.foldl (fun e g => e.msixSend g) s.evt }
  else .next s

/-! ## Supply monitors (R399, R550, R554) -/

/-- The PLLs that a rail feeds. -/
def railPlls (r : Nat) : List (Fin 4) :=
  match r with
  | 2 => [0] | 3 => [0, 1] | 4 => [2] | 5 => [3] | 6 => [0, 1, 2, 3] | 7 => [2] | 8 => [3] | 9 => [0]
  | 10 => [1] | 11 => [1] | 12 => [1] | _ => []

/-- A rail is a mask. -/
def railBit (r : Fin 13) : BitVec 13 := BitVec.ofNat 13 (2 ^ r.val)

/-- A rail's monitor works: the always-on rails always, the switched ones with the fast domains (R399). -/
def railWatched (s : State) (r : Fin 13) : Bool := decide (r.val < 2) || s.fastUp

/-- A switched rail is outside +-6 %: THM_SUPPLY_FAULT, its PLL domains count as unlocked (R399). -/
def railFault (r : Fin 13) (s : State) : State :=
  let s1 := raise evThmSupplyFault r.val (setThm (fun x => { x with supplyFault := x.supplyFault ||| railBit r }) s)
  (railPlls r.val).foldl (fun a p => pllLoss p a) s1

/-- A rail is outside +-3 %: THM_SUPPLY_WARN; a journal write in progress is abandoned (R399, R413). -/
def railWarn (r : Fin 13) (s : State) : State :=
  if s.thm.supplyWarn &&& railBit r ≠ 0 then s
  else journalAbandon (raise evThmSupplyWarn r.val
    (setThm (fun x => { x with supplyWarn := x.supplyWarn ||| railBit r }) s))

/-- SUPPLY_MONITOR_EXCURSION: outside +-3 %, or with `beyond6` outside +-6 %; an always-on rail outside +-6 % resets the
device as at power-on. -/
def execSupplyMonitorExcursion (t : Time) (rail : Fin 13) (beyond6 : Bool) (pins : Pins) (patch : Verify) (s : State) : Out :=
  let s := s.at t
  if s.hth.boot = .hold ∨ !railWatched s rail then .next s
  else
    let s1 := railWarn rail s
    if !beyond6 then .next s1
    else if rail.val < 2 then .next (coldStart pins patch s)
    else if s.thm.supplyFault &&& railBit rail ≠ 0 then .next s1
    else .next (railFault rail s1)

/-- SUPPLY_MONITOR_RECOVERY: the rail is back inside +-6 %, with `within3` inside +-3 %. -/
def execSupplyMonitorRecovery (t : Time) (rail : Fin 13) (within3 : Bool) (s : State) : Out :=
  .next (setThm (fun x => { x with
    supplyWarn := if within3 then x.supplyWarn &&& ~~~railBit rail else x.supplyWarn,
    supplyFault := x.supplyFault &&& ~~~railBit rail }) (s.at t))

/-- PWR_GOOD_LOSS: PWR_GOOD low for 10 us counts as every switched rail outside +-6 % (R554). -/
def execPwrGoodLoss (t : Time) (s : State) : Out :=
  let s := s.at t
  if !s.fastUp then .next s
  else .next ((List.finRange 13).foldl (fun a r =>
    if r.val < 2 ∨ a.thm.supplyFault &&& railBit r ≠ 0 then a else railFault r (railWarn r a)) s)

/-! ## Oscillators (R29, R30, R40) -/

/-- XTAL_START_TIMEOUT: no crystal within 1 s of power-on, or it has stopped: the RC runs continuously. -/
def execXtalStartTimeout (t : Time) (s : State) : Out :=
  let s := s.at t
  if s.hth.boot = .hold ∨ s.hth.onRc then .next s
  else .next (raise evHthXtalFail 0 (setHth (fun h => { h with xtalOk := false, onRc := true, rcRun := true }) s))

/-- XTAL_RETURN: the crystal has run for 2 s without interruption. -/
def execXtalReturn (t : Time) (s : State) : Out :=
  .next (setHth (fun h => { h with xtalOk := true, onRc := false }) (s.at t))

/-- RC_TRIM, once per second against the crystal, with the Hearth sensor's sample (R29, R382). -/
def execRcTrim (t : Time) (temp : Int) (s : State) : Out :=
  let s := s.at t
  if s.hth.boot = .hold then .next s
  else .next (setHth (fun h => { h with
    temp := temp, rcTrims := if h.xtalOk && h.rcRun then h.rcTrims + 1 else h.rcTrims }) s)

/-- RC_IDLE_STOP: 50 ms without activity in SLEEP, unless the Hearth runs from the RC (R30, R40). -/
def execRcIdleStop (t : Time) (s : State) : Out :=
  let s := s.at t
  if s.hth.pwr = .sleep ∧ !s.busy ∧ !s.hth.onRc ∧ s.hth.lastActivity + 50 * ms ≤ s.now then
    .next (setHth (fun h => { h with rcRun := false }) s)
  else .next s

end Sys2Proof.Machine
end

