-- ==== Sys2Proof/Machine/Pixels.lean ====
section
/-! DEFINITION. From surfaces to codes: source pixels (R101-R103), scaling (R104, R105), blending (R106, R107), the
Anvil image (R129, R147), the warp (R165-R168, R253), the colour solve of a pixel (R154, R157, R161), dither (R177-R179),
the corner turn into the plane store (R185-R189), the scan buffer (R256) and the DP mirror's pixels (R176, R180). -/

namespace Sys2Proof.Machine

/-! ## Fractions -/

/-- The integer nearest to a fraction, halves up. -/
def nearest (x : Rat) : Int := (x + 1 / 2).floor

/-- A fraction within [lo, hi]. -/
def clampR (lo hi x : Rat) : Rat := max lo (min hi x)
def clamp01 (x : Rat) : Rat := clampR 0 1 x

/-- A sum of fractions. -/
def sumR (l : List Rat) : Rat := l.foldl (· + ·) 0

/-- A pixel: premultiplied colour and alpha. -/
structure Px where
  c : List Rat
  a : Rat

/-- No light. -/
def Px.none : Px := { c := [0, 0, 0], a := 0 }

/-! ## Source pixels (R101-R103) -/

/-- An unsigned little-endian number of the HBM. -/
def hbmNat (s : State) (a n : Nat) : Nat := leNat (s.hbmReads a n)

/-- IEEE half precision; an exponent of all ones is open (log 54). -/
def halfVal (h : Nat) : Rat :=
  let m : Rat := (fld h 0 10 : Nat)
  let v : Rat := if fld h 10 5 = 0 then m / (2 ^ 24 : Nat) else (1024 + m) * (2 ^ fld h 10 5 : Nat) / (2 ^ 25 : Nat)
  if fld h 10 5 = 31 then Config.halfSpecial h else if bit h 15 then -v else v

/-- A field of a pixel word as a fraction of its full scale. -/
def unit (v lo w : Nat) : Rat := (fld v lo w : Nat) / (2 ^ w - 1 : Nat)

/-- The bytes of one 4:2:2 pair: (Y0, Cb, Y1, Cr). -/
def pairBytes (s : State) (line p : Nat) : Nat := hbmNat s (line + 4 * p) 4

/-- Chroma of column `x`: its own on even columns, the mean of the neighbours on odd ones, the last pair alone at
the crop's edge (R103). `lo` is the place of the component in the pair. -/
def chroma (s : State) (line x last lo : Nat) : Rat :=
  let own : Rat := (fld (pairBytes s line (x / 2)) lo 8 : Nat)
  if x % 2 = 0 ∨ last < x + 1 then own else (own + (fld (pairBytes s line (x / 2 + 1)) lo 8 : Nat)) / 2

/-- v in [0, 1] as a power with exponent p / 5, to the nearest multiple of 2^-b (half-precision components reach
2^16, so that their powers stay below 2^40). -/
def powFifth (p b : Nat) (v : Rat) : Rat :=
  let ok (n : Nat) : Bool := decide (((2 * n - 1 : Nat) : Rat) ^ 5 ≤ v ^ p * (2 ^ (b + 1) : Nat) ^ 5)
  let n := (List.range (b + 40)).reverse.foldl (fun a i => if ok (a + 2 ^ i) then a + 2 ^ i else a) 0
  (n : Rat) / (2 ^ b : Nat)

/-- The linear value of a component under TRANSFER (R103): the sRGB curve (IEC 61966-2-1), gamma 2.2, or linear. The
curves are irrational: the result carries Config.linBits bits (log 13). -/
def linearise (tr : Nat) (u : Rat) : Rat :=
  if tr = 2 then u
  else if tr = 1 then if u < 0 then Config.negativeGamma u else powFifth 11 Config.linBits u
  else if u ≤ 4045 / 100000 then u * 100 / 1292
  else powFifth 12 Config.linBits ((u + 55 / 1000) * 1000 / 1055)

/-- The 16-bit sRGB code nearest to a linear value in [0, 1] (R180, IEC 61966-2-1). -/
def encodeSrgb (v : Rat) : Nat :=
  if v ≤ 31308 / 10000000 then (nearest (65535 * v * 1292 / 100)).toNat
  else
    let ok (n : Nat) : Bool := decide ((((n : Rat) - 1 / 2) / 65535 + 55 / 1000) ^ 12 ≤ v ^ 5 * (1055 / 1000) ^ 12)
    (List.range 16).reverse.foldl (fun a i => if ok (a + 2 ^ i) then a + 2 ^ i else a) 0

/-- K_r and K_b of MATRIX, from the standards that R98 names. -/
def lumaCoef (m : Nat) : Rat × Rat :=
  if m = 0 then (299 / 1000, 114 / 1000) else if m = 1 then (2126 / 10000, 722 / 10000) else (2627 / 10000, 593 / 10000)

/-- YCbCr of `n` bits to RGB by MATRIX and RANGE (R103). -/
def yccRgb (matrix : Nat) (full : Bool) (n : Nat) (y cb cr : Rat) : List Rat :=
  let k := lumaCoef matrix
  let one : Rat := (2 ^ n : Nat) / 256
  let y' : Rat := if full then y / (2 ^ n - 1 : Nat) else (y - 16 * one) / (219 * one)
  let d : Rat := if full then (2 ^ n - 1 : Nat) else 224 * one
  let r := y' + 2 * (1 - k.1) * ((cr - 128 * one) / d)
  let b := y' + 2 * (1 - k.2) * ((cb - 128 * one) / d)
  [r, (y' - k.1 * r - k.2 * b) / (1 - k.1 - k.2), b]

/-- XYZ of the primaries that PRIMARIES names, white D65, column by column scaled to white. -/
def primXyz (code : Nat) : List Rat :=
  let v : List Rat := if code = 0 then [64, 33, 30, 60, 15, 6] else [68, 32, 265 / 10, 69, 15, 6]
  let col (i : Nat) : List Rat := xyz1 (v.getD (2 * i) 0 / 100) (v.getD (2 * i + 1) 0 / 100)
  let p := (List.range 3).flatMap fun i => [(col 0).getD i 0, (col 1).getD i 0, (col 2).getD i 0]
  let k := m3vec (m3inv p) (xyz1 (3127 / 10000) (3290 / 10000))
  (List.range 9).map fun n => p.getD n 0 * k.getD (n % 3) 0

/-- Linear RGB of PRIMARIES into linear BT.2020 (R103). -/
def toBt2020 (code : Nat) (v : List Rat) : List Rat :=
  if code = 2 then v else m3vec (m3mul (m3inv (matrixK (3127 / 10000) (3290 / 10000))) (primXyz code)) v

/-- RGB and alpha as the format spells them at column `x` of a line (R101). -/
def rawPixel (s : State) (d : Layer) (format line x : Nat) : List Rat × Rat :=
  let v := hbmNat s (line + x * formatBytes format) (formatBytes format)
  let last := lySrcX d + lySrcW d - 1
  match format with
  | 0 => ([unit v 0 8, unit v 8 8, unit v 16 8], unit v 24 8)
  | 1 => ([unit v 16 8, unit v 8 8, unit v 0 8], unit v 24 8)
  | 2 => ([unit v 0 10, unit v 10 10, unit v 20 10], unit v 30 2)
  | 3 => ([halfVal (fld v 0 16), halfVal (fld v 16 16), halfVal (fld v 32 16)], clamp01 (halfVal (fld v 48 16)))
  | 4 => ([unit v 11 5, unit v 5 6, unit v 0 5], 1)
  | _ => (yccRgb (lyMatrix d) (lyRange d) 8 ((fld (pairBytes s line (x / 2)) (16 * (x % 2)) 8 : Nat))
      (chroma s line x last 8) (chroma s line x last 24), 1)

/-- The RGB of a stored DP pixel, converted as the stream's MSA and VSC SDP say (R101, R103). -/
def dpRgb (c : DpColour) (v : Nat) : List Rat :=
  let w := if dpBytes c = 4 then 10 else 16
  if c.ycc then yccRgb c.matrix c.full c.bpc (fld v 0 w : Nat) (fld v w w : Nat) (fld v (2 * w) w : Nat)
  else (List.range 3).map fun k => (fld v (w * k) w : Nat) / (2 ^ c.bpc - 1 : Nat)

/-- R103 from linearisation on: TRANSFER, PRIMARIES, the clamp. -/
def toWorking (transfer prims : Nat) (v : List Rat) : List Rat := (toBt2020 prims (v.map (linearise transfer))).map clamp01

/-- BLEND (R106). -/
def premultiply (blend : Nat) (v : List Rat) (a : Rat) : Px :=
  if blend = 0 then { c := v, a := 1 } else if blend = 1 then { c := v, a := a } else { c := v.map (a * ·), a := a }

/-- The source pixel (x, y) of a layer's crop in the working space, premultiplied. A fetch that returned an error
gives none (R366). -/
def sourcePixel (s : State) (d : Layer) (b : Shown) (x y : Nat) : Px :=
  if lyIsDp d then
    match (List.finRange 3).find? (fun j => dpAddr (lyDp d) j / 256 == b.addr) with
    | none => Px.none
    | some j =>
      let f := s.ing.dp[lyDp d].bufs[j].getD (0, s.ing.dp[lyDp d].col)
      let at' := b.addr * 256 + ((lySrcY d + y) * f.1 + lySrcX d + x) * dpBytes f.2
      if s.grn.fetchErr.contains (at' / 64) then Px.none
      else premultiply (lyBlend d) (toWorking f.2.transfer f.2.prims (dpRgb f.2 (hbmNat s at' (dpBytes f.2)))) 1
  else
    let line := b.addr * 256 + (lySrcY d + y) * (lyPitch d * 64)
    let at' := line + (lySrcX d + x) * formatBytes b.format
    if s.grn.fetchErr.contains (at' / 64) then Px.none
    else
      let v := rawPixel s d b.format line (lySrcX d + x)
      premultiply (lyBlend d) (toWorking (lyTransfer d) (lyPrims d) v.1) v.2

/-! ## Scaling (R104, R105) -/

/-- The taps of one axis: position in the source and coefficient. `n` taps at a ratio up to 1, `n` for each unit of the
ratio above it; 64 phases; positions beyond the crop take its edge. -/
def taps (n src dst x : Nat) : List (Nat × Rat) :=
  let k := rdivI (64 * (((2 * x + 1) * src : Nat) - (dst : Int))) (2 * dst)
  let len := n * max 1 (cdiv src dst)
  (List.range len).map fun (i : Nat) =>
    ((clampI 0 ((src : Int) - 1) (k / 64 - ((len / 2 : Nat) : Int) + 1 + ((i : Nat) : Int))).toNat,
      Config.scalerCoef n src dst (k % 64).toNat i)

/-- A filtered pixel of an image of `sw` x `sh` at (x, y) of `dw` x `dh`. -/
def scaled (sw sh dw dh x y : Nat) (f : Nat → Nat → Px) : Px :=
  let hs := taps 8 sw dw x
  let rows := (taps 4 sh dh y).map fun v =>
    let px := hs.map fun h => (h.2, f h.1 v.1)
    (v.2, ({ c := (List.range 3).map fun k => sumR (px.map fun p => p.1 * p.2.c.getD k 0),
             a := sumR (px.map fun p => p.1 * p.2.a) } : Px))
  { c := (List.range 3).map fun k => sumR (rows.map fun p => p.1 * p.2.c.getD k 0),
    a := sumR (rows.map fun p => p.1 * p.2.a) }

/-- The layer's pixel as it enters blending (R106). -/
def layerPixel (s : State) (d : Layer) (b : Shown) (x y : Nat) : Px :=
  let p := scaled (lySrcW d) (lySrcH d) (lyDstW d) (lyDstH d) x y (sourcePixel s d b)
  let a := clamp01 p.a
  { c := p.c.map (clampR 0 a), a := a }

/-! ## Blending and the Anvil image (R107, R129, R176) -/

/-- A composed pixel: R, G, B and coverage in units of 2^-16 (R107). -/
structure Cd where
  c : List Nat
  a : Nat
deriving DecidableEq, Repr

/-- alpha P + (1 - alpha alpha_p) C, rounded to nearest in 1.16 fixed point. -/
def blend (al : Rat) (p : Px) (c : Cd) : Cd :=
  let f (u : Rat) (v : Nat) : Nat := (nearest (65536 * (al * u) + (1 - al * p.a) * (v : Rat))).toNat
  { c := (List.range 3).map fun k => f (p.c.getD k 0) (c.c.getD k 0), a := f p.a c.a }

/-- Valid zones that hold an engine-local position. -/
def zonesAt (s : State) (e : Fin 4) (x y : Nat) : List AnvZone :=
  (engZones s e).filter fun z => decide (z.x ≤ x) && decide (x < z.x + z.w) && decide (z.y ≤ y) && decide (y < z.y + z.h)

/-- General layers of a depth slice at an engine-local position, in ascending number (R97, R107, R118). -/
def generalPixel (s : State) (e : Fin 4) (j x y : Nat) : Cd :=
  let cx := canvasX s.cmp.canvas[e] + x
  let cy := canvasY s.cmp.canvas[e] + y
  (List.finRange 16).foldl (fun acc n =>
    let d := s.cmp.live[n]
    match s.cmp.shown[n] with
    | some b =>
      if lyEnable d && !s.cmp.transparent.toNat.testBit n.val && bit (lyMask d) e.val && lyDepth d == j
          && decide (lyDstX d ≤ cx) && decide (cx < lyDstX d + lyDstW d)
          && decide (lyDstY d ≤ cy) && decide (cy < lyDstY d + lyDstH d) then
        blend ((lyAlpha d : Nat) / (255 : Nat)) (layerPixel s d b (cx - lyDstX d) (cy - lyDstY d)) acc
      else acc
    | none => acc) { c := [0, 0, 0], a := 0 }

/-- One Anvil function at a position: its glyph's coverage times COLOUR over what is there (R129); not with an
uncorrectable glyph (R128). -/
def drawFn (s : State) (z : AnvZone) (x y : Nat) (acc : Cd) (f : AnvFn) : Cd :=
  if f.zone != z.num || !stateOn s.anv.drawn[Fin.ofNat 256 f.num] s.anv.drawnBlink || s.anv.badGlyphs.contains f.glyph
      || decide (x < z.x + f.ofsX) || decide (y < z.y + f.ofsY) then acc
  else match (s.anv.set.bind fun a => a.glyphs.find? fun g => g.num == f.glyph) with
    | some g =>
      let gx := x - z.x - f.ofsX
      let gy := y - z.y - f.ofsY
      if g.w ≤ gx ∨ g.h ≤ gy then acc
      else
        let cov : Rat := (byteAt g.coverage (gy * g.w + gx) : Nat) / (255 : Nat)
        let col := [f.r, f.g, f.b].map fun (v : Nat) => cov * ((v : Rat) / 65535)
        blend 1 { c := col, a := cov } acc
    | none => acc

/-- The Anvil image at a position of a slice, over what is there, in ascending function number; nothing while the zones
are composed empty (R147). -/
def anvilPixel (s : State) (zs : List AnvZone) (x y : Nat) (acc : Cd) : Cd :=
  if s.anv.zonesEmpty then acc
  else (List.range 256).foldl (fun a n => match anvFn s n with
    | some f => zs.foldl (fun b z => drawFn s z x y b f) a
    | none => a) acc

/-- The composed image of a slice: inside a valid zone only the Anvil image, at the zone's DEPTH (R107, R129); no
light outside the engine's rectangle (R165). -/
def composed (s : State) (e : Fin 4) (j : Nat) (x y : Int) : Cd :=
  if x < 0 ∨ y < 0 ∨ (s.eng[e].w : Int) ≤ x ∨ (s.eng[e].h : Int) ≤ y then { c := [0, 0, 0], a := 0 }
  else
    let zs := zonesAt s e x.toNat y.toNat
    if zs.isEmpty then generalPixel s e j x.toNat y.toNat
    else anvilPixel s (zs.filter fun z => z.depth == j) x.toNat y.toNat { c := [0, 0, 0], a := 0 }

/-! ## Warp (R165-R168, R253) -/

/-- DX, DY in 1/64, GAIN in 1/2,048 and MASK of a slot's mesh at a pixel (R166); the identity warp without one (R170). -/
def meshPixel (s : State) (e : Fin 4) (j i x y : Nat) : MeshEntry :=
  let q : Fin 12 := Fin.ofNat 12 (3 * j + i)
  let m := (s.clw.warp[e].dirs[s.clw.warp[e].live])[q]
  if !m.valid || s.clw.warp[e].identity.contains q.val then {}
  else
    let sp := spacingOf m.spacing
    let u := x % sp
    let v := y % sp
    let node (a b : Nat) : MeshEntry := meshAt s.clw (m.base + (y / sp + b) * m.cols + x / sp + a)
    let mix (f : MeshEntry → Int) : Int :=
      rdivI (f (node 0 0) * ((sp - u) * (sp - v) : Nat) + f (node 1 0) * (u * (sp - v) : Nat)
        + f (node 0 1) * ((sp - u) * v : Nat) + f (node 1 1) * (u * v : Nat)) (sp * sp)
    { dx := mix (·.dx), dy := mix (·.dy), gain := (mix fun n => (n.gain : Int)).toNat,
      mask := (node (if 2 * u ≤ sp then 0 else 1) (if 2 * v ≤ sp then 0 else 1)).mask }

/-- What ZIGZAG adds to DY at a column, in 1/64 line (R253). -/
def zigzagDy (s : State) (e : Fin 4) (x y : Nat) : Int :=
  if !s.isLse e || !s.scn[e].zigzag then 0
  else
    let t := liveVct s.scn[e]
    let p (c : Nat) : Int := (t[c]?.map (·.phase)).getD 0
    let d := rdivI (64 * (p x + p (x + 1))) (2 ^ 21)
    if y % 2 = 0 then d else -d

/-- The Catmull-Rom weights of a phase in 1/64 (R167). -/
def cubic (ph : Nat) : List Rat :=
  let t : Rat := (ph : Nat) / (64 : Nat)
  [(2 * t * t - t * t * t - t) / 2, (3 * t * t * t - 5 * t * t + 2) / 2, (4 * t * t - 3 * t * t * t + t) / 2,
    (t * t * t - t * t) / 2]

/-- The composed slice at a position in 1/64 pixel, clamped to [0, 1] (R165, R167). -/
def resample (s : State) (e : Fin 4) (j : Nat) (sx sy : Int) : List Rat :=
  let wx := cubic (sx % 64).toNat
  let wy := cubic (sy % 64).toNat
  let px := (List.range 16).map fun n =>
    (wx.getD (n % 4) 0 * wy.getD (n / 4) 0,
      composed s e j (sx / 64 - 1 + (n % 4 : Nat)) (sy / 64 - 1 + (n / 4 : Nat)))
  (List.range 3).map fun k => clamp01 (sumR (px.map fun p => p.1 * ((p.2.c.getD k 0 : Nat) : Rat)) / 65536)

/-! ## Colour (R154, R157, R161) -/

/-- The three pair drives of a working-space colour by an engine's matrix record; OOG as the bank says. -/
def pairDrive (r : List Rat) (oog : Bool) (v : List Rat) : List Rat :=
  let a := m3vec (r.take 9) v
  if oog then a.map clamp01
  else
    let lum := r.getD 15 0 * v.getD 0 0 + r.getD 16 0 * v.getD 1 0 + r.getD 17 0 * v.getD 2 0
    let w := (m3vec (r.take 9) [1, 1, 1]).map (lum * ·)
    let need := (List.range 3).map fun i =>
      let x := a.getD i 0
      if x < 0 then x / (x - w.getD i 0) else 0
    let f := max3 need
    let b := (List.range 3).map fun i => max 0 (a.getD i 0 + f * (w.getD i 0 - a.getD i 0))
    if 1 < max3 b then b.map (· / max3 b) else b

/-- The 16-bit drive value of primary `k` at a pixel of a slice (R153-R157, R161, R167, log 53). -/
def driveValue (s : State) (e : Fin 4) (j k x y : Nat) : Nat :=
  let i := k / 2
  let m := meshPixel s e j i x y
  let r := s.clw.matrix[e]
  if m.mask || bit s.clw.pairLost[e].toNat i then 0
  else
    let v := resample s e j (64 * (x : Int) + m.dx) (64 * (y : Int) + m.dy + zigzagDy s e x y)
    let a := (pairDrive r (bit (byteAt (liveBank s e) 4) 2) v).getD i 0
    (nearest (65535 * clamp01 (r.getD (9 + k) 0 * a * (m.gain : Rat) / 2048))).toNat

/-! ## Dither (R177-R179) -/

/-- floor(d (2^b - 1) / full + T), at most 2^b - 1, with T = t / tden. -/
def quantise (d full b t tden : Nat) : Nat :=
  min (2 ^ b - 1) ((d * (2 ^ b - 1) * tden + t * full) / (full * tden))

/-- The threshold in 1/8,192: blue noise moved by f and the primary, 0.5 in round mode; f is 0 inside a zone (R178). -/
def threshold (s : State) (e : Fin 4) (k x y : Nat) : Nat :=
  let mode := wfl s.clw.dither (2 * e.val) 2
  let f := if mode = 2 ∧ (zonesAt s e x y).isEmpty then s.cmp.frameCount % 64 else 0
  if mode = 0 then 4096
  else 2 * (Config.blueNoise ((x + 37 * f + 17 * k) % 64) ((y + 23 * f + 41 * k) % 64) % 4096) + 1

/-- The code of `b` bits of a pixel. -/
def code (s : State) (e : Fin 4) (j k b x y : Nat) : Nat :=
  let d := driveValue s e j k x y
  if b = 16 then d else quantise d 65535 b (threshold s e k x y) 8192

/-! ## The corner turn (R185-R189) -/

/-- b of THR_BITS for a channel frame (R185). -/
def bitsOf (s : State) (e : Fin 4) (j k : Nat) : Nat := wfl s.thr.eng[e].bits[Fin.ofNat 4 j] (5 * k) 5

/-- Bytes of one row of a plane from its bits by column (R189). -/
def rowOf (n : Nat) (bits : List Bool) : List Byte :=
  (List.range n).map fun i => BitVec.ofNat 8 (maskOf 8 fun b => bits.getD (8 * i + b) false)

/-- Where row `y` of plane `p` of an engine stands (R189, R355). -/
def planeAddr (s : State) (e : Fin 4) (p y : Nat) : Nat :=
  e.val * 0x40000000 + s.cmp.frameCount % 2 * 530841600 + p * 4147200 + y * rowBytes s.eng[e].w

/-- The bits of a row of plane (j, k, i): those of the code, 0 for a dropped plane (R185). -/
def planeRow (s : State) (e : Fin 4) (j k i y : Nat) : List Bool :=
  let b := bitsOf s e j k
  let d := s.thr.eng[e].write.bits.getD (6 * j + k) 0 - b
  (List.range s.eng[e].w).map fun x => decide (d ≤ i) && bit (code s e j k b x y) (i - d)

/-- One plane's rows of a half: written to the plane store, their set bits counted and marked (R186, R188). -/
def turnPlane (e : Fin 4) (half : Nat) (p : Nat × Nat × Nat × Nat) (s : State) : State :=
  let rows := ((List.range 8).map (8 * half + ·)).filter fun y => decide (y < s.eng[e].h)
  let data := rows.map fun y => (y, planeRow s e p.1 p.2.1 p.2.2.1 y)
  let n := sumN (data.map fun r => r.2.countP id)
  let mark := data.any fun r => (r.2.zipIdx).any fun b => b.1 && !(zonesAt s e b.2 r.1).isEmpty
  let s1 := setGrn (fun g => data.foldl (fun g r =>
    g.store (planeAddr s e p.2.2.2 r.1) (rowOf (rowBytes s.eng[e].w) r.2)) g) s
  setThrE e (fun t =>
    let old := look t.counts p.2.2.2
    { t with counts := put t.counts p.2.2.2 ((old.map (·.1)).getD 0 + n, (old.map (·.2)).getD false || mark) }) s1

/-- Composition runs: its clock domain and the HBM serve, in READY, LIT and, where sound, SAFE (R114, R346), from 200 us
after the commit of the start-up record (R49 step 10). -/
def composing (s : State) : Bool :=
  s.hth.boot == .on && decide (s.hth.composeFrom ≤ s.now) && !s.tng.pll[(0 : Fin 4)].bypass
    && !s.tng.pll[(1 : Fin 4)].bypass && grnServes s
    && (s.hth.pwr == .ready || s.hth.pwr == .lit || (s.hth.pwr == .safe && !s.thm.safeQuench))

/-- CORNER_TURN_HALF_COMPLETE: the next half of the frame being composed goes to the plane store (R186). -/
def execCornerTurnHalfComplete (t : Time) (e : Fin 4) (half : Nat) (s : State) : Out :=
  let s := s.at t
  if !composing s || s.hth.composed == 0 || !s.isMae e || half != s.thr.eng[e].halves
      || decide (s.eng[e].h ≤ 8 * half) then .next s
  else .next (setThrE e (fun t => { t with halves := t.halves + 1 })
    (s.thr.eng[e].write.planes.foldl (fun a p => turnPlane e half p a) s))

/-! ## The scan buffer (R256) -/

/-- The 12 bytes of a pixel: six 12-bit codes in 16-bit fields (R179, R256). -/
def scanPixel (s : State) (e : Fin 4) (x y : Nat) : List Byte :=
  (List.range 6).flatMap fun k => leBytes 2 (code s e 0 k 12 x y)

/-- The frame composed in the period that ends goes to its scan buffer. -/
def scanWrite (e : Fin 4) (s : State) : State :=
  if !s.isLse e then s
  else forN s.eng[e].h (fun y a => forN s.eng[e].w (fun x b => setGrn (fun g =>
    g.store (scanAddr s e s.cmp.frameCount x y) (scanPixel s e x y)) b) a) s

/-- The code of channel k at a pixel of the scan buffer that is lit now. -/
def scanCode (s : State) (e : Fin 4) (k x y : Nat) : Nat :=
  hbmNat s (scanAddr s e (s.cmp.frameCount + 1) x y + 2 * k) 2 % 4096

/-! ## The DP mirror (R121, R176, R180) -/

/-- The mirror colour at an engine-local position: slices from the farthest inwards, the Anvil image on top. -/
def mirrorColour (s : State) (e : Fin 4) (x y : Nat) : Cd :=
  let zs := zonesAt s e x y
  let start : Cd := { c := [0, 0, 0], a := 0 }
  if !zs.isEmpty then anvilPixel s zs x y start
  else ((List.range (depthsOf s s.clw.depths e)).reverse).foldl (fun acc j =>
    let p := generalPixel s e j x y
    blend 1 { c := p.c.map fun (v : Nat) => (v : Rat) / 65536, a := (p.a : Rat) / 65536 } acc) start

/-- The 8 x 8 ordered matrix of R180, 0-63. -/
def bayer (x y : Nat) : Nat :=
  sumN ((List.range 3).map fun i => (2 * b2n (bit x i != bit y i) + b2n (bit y i)) * 4 ^ (2 - i))

/-- Component `k` of the mirror's pixel (x, y), as sent (R180). -/
def mirrorPixel (s : State) (k x y : Nat) : Nat :=
  let e : Fin 4 := Fin.ofNat 4 (wfl s.ing.winOrg 30 2)
  let ox := wfl s.ing.winOrg 0 14 - canvasX s.cmp.canvas[e]
  let oy := wfl s.ing.winOrg 16 14 - canvasY s.cmp.canvas[e]
  let p := scaled (wfl s.ing.winSize 0 14) (wfl s.ing.winSize 16 14) (wfl s.ing.dptxH 0 14) (wfl s.ing.dptxV 0 14) x y
    fun u v => { c := (mirrorColour s e (ox + u) (oy + v)).c.map fun (n : Nat) => (n : Rat) / 65536, a := 1 }
  let rgb := m3vec (m3mul (m3inv (primXyz 0)) (matrixK (3127 / 10000) (3290 / 10000))) p.c
  let mode := s.clw.dptxDither.toNat
  let m := if mode = 2 then s.ing.mirrorFrames % 4 else 0
  let t := if mode = 0 then 64 else 2 * bayer ((x + 5 * m) % 8) ((y + 3 * m) % 8) + 1
  quantise (encodeSrgb (clamp01 (rgb.getD k 0))) 65535 (mirrorBpc s.ing.dptxConfig) t 128

/-- The lines of a mirror frame: the composition of the frame period that ends (R112, R121); no light where the period
composed none. -/
def mirrorLines (stored : Bool) (s : State) : List (List Nat) :=
  (List.range (wfl s.ing.dptxV 0 14)).map fun y => (List.range (wfl s.ing.dptxH 0 14)).flatMap fun x =>
    (List.range 3).map fun k => if stored then mirrorPixel s k x y else 0

/-- The sync signal of a mirror line or frame by its position: [start, start + length) after the active end (R123). -/
def mirrorSync (active start len p : Nat) : Bool := decide (active + start ≤ p) && decide (p < active + start + len)

/-- Horizontal sync: 48 pixels after the active end, 32 pixels long (R123). -/
def mirrorHsync (s : State) (x : Nat) : Bool := mirrorSync (wfl s.ing.dptxH 0 14) 48 32 x

/-- Vertical sync: 3 lines after the active end, 5 lines long (R123). -/
def mirrorVsync (s : State) (y : Nat) : Bool := mirrorSync (wfl s.ing.dptxV 0 14) 3 5 y

end Sys2Proof.Machine
end

