-- ==== Sys2Proof/Machine/Frames.lean ====
section
/-! DEFINITION. The frame start (R331): what applies, what is fixed, and which engines light (R48), in the order in
which one value feeds the next; entry to LIT (R48, R49), and what verification expects of the frame now lit (R139,
R140). -/

namespace Sys2Proof.Machine

/-! ## Lighting (R48, R285, R286) -/

/-- The device is in LIT or on its last step into it. -/
def wayToLit (s : State) : Bool :=
  match s.hth.trans with
  | some t => t.stepTo == .lit
  | none => s.hth.pwr == .lit

/-- The engine's link or scanner is ready, with something to show (R48, R211, R246, R259). -/
def engineReady (s : State) (e : Fin 4) : Bool :=
  if s.isMae e then
    (s.swt[e].link == .ready || s.swt[e].link == .active) && s.thr.eng[e].read.unique != 0
  else
    (s.scn[e].st == .inWindow || s.scn[e].st == .active) && s.scn[e].period.isSome && vctReady s e

/-- The engine may light at this frame start; `stored`: a composed frame is in the store. -/
def mayLight (stored : Bool) (s : State) (e : Fin 4) : Bool :=
  stored && wayToLit s && s.used e && s.frg.eng[e].cause == 0 && laserEn s e && s.thm.q == 16 && engineReady s e

/-- One engine lights: its link or scanner becomes ACTIVE. -/
def engineLights (stored : Bool) (e : Fin 4) (s : State) : State :=
  if s.frg.eng[e].lit || !mayLight stored s e then s
  else
    let s1 := setFrgE e (fun g => { g with lit := true }) s
    if s.isMae e then setSwt e (fun w => { w with link := .active }) s1 else scanRelit e s1

/-- The six channels of a lit scan engine drive this frame at their levels (R277, R294). -/
def lseLit (e : Fin 4) (s : State) : State :=
  if s.isLse e && s.frg.eng[e].lit then
    (List.range 6).foldl (fun a k =>
      let c := chan e k
      setCh c (fun x => { x with litNow := chanOk s c && lseLevel s e c != 0 }) a) s
  else s

/-- The first engine lights: LIT is entered, and its count of verification failures starts again (R48, R149). -/
def litReached (s : State) : State :=
  match s.hth.trans with
  | some t =>
    if t.stepTo == .lit && (List.finRange 4).any fun e => s.frg.eng[e].lit then
      transEnds t .lit .ok (setAnv (fun a => { a with failsInLit := 0 }) s)
    else s
  | none => s

/-- Engines light, the device enters LIT, and who carries the telltales is judged (R48, R145). -/
def lightFrameStart (stored : Bool) (s : State) : State :=
  judgeHolder (forEng lseLit (litReached (forEng (engineLights stored) s)))

/-! ## What the lit frame should deliver (R139-R141) -/

/-- The part num / den of k_c, which R275 multiplies by the frame's x. -/
def energyOf (s : State) (e : Fin 4) (c : Fin 24) (num den : Nat) : Frac :=
  let x := s.frg.eng[e].x
  Frac.mk' (Config.fullEnergy c.val ((s.clw.snap[c].map (·.2)).getD 32768) * x.num * num) (x.den * den)

/-- A slot of a mirror array: one whose plane is dropped counts as delivered energy of zero against what the Sheaf planned
(R141), though nothing is expected of it in R139 (R275). -/
def slotExpect (s : State) (e : Fin 4) (n : Nat) (x : SheafEntry) : Expect :=
  let t := s.thr.eng[e]
  let c := chan e x.primary
  let w := litWeight s e t.read x
  let k := (look t.countsLit x.plane).getD (0, false)
  let of (w : Nat) : Frac := energyOf s e c (w * k.1) (65535 * (s.eng[e].w * s.eng[e].h))
  { engine := e, idx := n, ch := c, e := of w,
    planned := some (of (if droppedBit s.frg.eng[e] t.read x then x.weight else w)),
    lit := w != 0 && !t.errNext.contains n, bearing := k.2 }

/-- The zones of a scan engine, one result for each channel (R140). -/
def zoneExpect (s : State) (e : Fin 4) (z : AnvZone) (k : Nat) : Expect :=
  let sum := sumN ((List.range z.h).map fun y => sumN ((List.range z.w).map fun x =>
    scanCode s e k (z.x + x) (z.y + y)))
  { engine := e, idx := z.num, ch := chan e k, e := energyOf s e (chan e k) sum 4095, planned := none,
    lit := true, bearing := true }

/-- All expectations of one engine for the frame now lit. -/
def engineExpect (s : State) (e : Fin 4) : List Expect :=
  if !s.frg.eng[e].lit then []
  else if s.isMae e then
    (s.thr.eng[e].read.entries.zipIdx.filter fun p => !p.1.dark).map fun p => slotExpect s e p.2 p.1
  else (engZones s e).flatMap fun z => (List.range 6).map (zoneExpect s e z)

/-- The expectations are laid down for the frame now lit. -/
def expectFrame (s : State) : State :=
  let l := (List.finRange 4).flatMap (engineExpect s)
  forEng (fun e a => setThrE e (fun t => { t with errNext := [] }) a) (setAnv (fun a => { a with expect := l }) s)

/-! ## The parts of a frame start -/

/-- Numbers: CMP_FRAME_COUNT, the topology's frame, commits and barriers (R112, R125, R443, R448). -/
def frameCounts (s : State) : State :=
  let s1 := setCmp (fun c => { c with frameCount := (c.frameCount + 1) % 2 ^ 32 }) s
  commitFrame (portsFollow (brugoFrame s1))

/-- Clocks: PLLs leave bypass, the aligners step and slew, the frame's period is fixed, FRAME_SYNC_OUT rises (R331, R333,
R340, R344, R348). -/
def frameClocks (s : State) : State := syncFrame (periodFrame (clockFrame (pllFrame s)))

/-- Budgets: Sheafs on their way, refresh, grant, slot budget (R21, R202, R361). -/
def frameBudgets (s : State) : State :=
  let s1 := refreshFrame (forEng (stepEngine s.cmp.frameCount) s)
  let s2 := setGrn (fun g => { g with grant := grantNow s1 }) s1
  reassess (nextRate s2) s2

/-- The engines' frame: emission limits, scan parameters, slots, link counts (R251, R254, R187, R234, R470).
`stored`: the frame period that ends composed a frame. -/
def frameEngines (stored : Bool) (s : State) : State :=
  forEng (fun e a =>
    let a1 := setFrgE e (fun g => { g with limit := otpLimit a e }) a
    swtFrame e (slotFrame stored e (scnFrame e a1))) s

/-- Light: the ramp, the light fractions, drops and THR_BITS (R270, R271, R274, R185). -/
def frameLight (s : State) : State := forEng bitsFrame (forEng dropFrame (forEng lightFrame (rampFrame s)))

/-- Composition of the next frame begins: fences are sampled, matrices are fixed, the Anvil image is drawn (R117, R136,
R162). Without composition only store errors are taken and the flags of the frames in flight move on. -/
def frameComposition (fi : FrameIn) (s : State) : State :=
  if composing s then
    let s1 := setHth (fun h => { h with composed := h.composed + 1 }) (layersFrame s)
    anvFrame fi.ecc fi.imageOk (forEng (fun e a => matrixEngine fi.matrixReady[e] e a) s1)
  else
    let s1 := setHth (fun h => { h with composed := 0 }) (anvEcc fi.ecc s)
    setAnv (fun a => { anvFlight a with onDrawn := false }) s1

/-- Marks that hold for one frame are cleared (R360, R365, R366, R487). -/
def frameMarks (s : State) : State :=
  setTmp (fun x => { x with took01 := 0, took46 := false })
    (setGrn (fun g => { g with panicRaised := 0, parityRaised := false, fetchErr := [] }) s)

/-- The DP mirror sends video: enabled, trained, composed, its PLL sound (R124); a mirror frame begins at every d-th
frame start (R123) with the composition of the frame period that ended: `lines` (R112). CLW_DPTX_DITHER was read with
them, once for the frame (R180). -/
def mirrorFrame (lines : List (List Nat)) (s : State) : State :=
  let c := s.ing.dptxConfig
  let on := wb c 0 && s.ing.dptxTrained && composing s && !s.tng.pll[(3 : Fin 4)].bypass
  if on && s.cmp.frameCount % (wfl c 8 2 + 1) == 0 then
    { s with ing := { s.ing with mirrorFrames := s.ing.mirrorFrames + 1, mirrorOut := lines } }
  else s

/-- A frame start. -/
def frameStarts (fi : FrameIn) (s : State) : State :=
  let stored := composing s && s.hth.composed != 0
  let s1 := if stored then forEng scanWrite s else s
  let s2 := frameBudgets (frameClocks (frameCounts s1))
  let s3 := frameMarks (frameLight (frameEngines stored s2))
  let s4 := snapFrame (availFrame (frameComposition fi s3))
  brugoSends (mirrorFrame (mirrorLines stored s) (expectFrame (lightFrameStart stored s4)))

/-- FRAME_START: the frame epoch. It runs while the fast domains are up. -/
def execFrameStart (t : Time) (fi : FrameIn) (s : State) : Out :=
  let s := s.at t
  if s.fastUp then .next (frameStarts fi s) else .next s

end Sys2Proof.Machine
end

