-- ==== Sys2Proof/Machine/Dispatch.lean ====
section
/-! DEFINITION. One arm per command: its meaning. -/

namespace Sys2Proof.Machine

def exec (i : Instr) (s : State) : Host.Outcome State Fault Refusal :=
  match i with
  | .powerOn t pins patch => Sys2Proof.Machine.execPowerOn t pins patch s
  | .reset t kind pins patch => Sys2Proof.Machine.execReset t kind pins patch s
  | .delayedReset t pins patch => Sys2Proof.Machine.execDelayedReset t pins patch s
  | .ignRise t => Sys2Proof.Machine.execIgnRise t s
  | .ignFall t => Sys2Proof.Machine.execIgnFall t s
  | .ignOffDelayExpiry t => Sys2Proof.Machine.execIgnOffDelayExpiry t s
  | .wakeRise t => Sys2Proof.Machine.execWakeRise t s
  | .estopAssert t => Sys2Proof.Machine.execEstopAssert t s
  | .xtalStartTimeout t => Sys2Proof.Machine.execXtalStartTimeout t s
  | .xtalReturn t => Sys2Proof.Machine.execXtalReturn t s
  | .rcTrim t temp => Sys2Proof.Machine.execRcTrim t temp s
  | .rcIdleStop t => Sys2Proof.Machine.execRcIdleStop t s
  | .transitionComplete t retrain => Sys2Proof.Machine.execTransitionComplete t retrain s
  | .quenchRecovery t => Sys2Proof.Machine.execQuenchRecovery t s
  | .pcieLinkUp t gen width => Sys2Proof.Machine.execPcieLinkUp t gen width s
  | .pwrGoodCheck t good badRail lbistFail => Sys2Proof.Machine.execPwrGoodCheck t good badRail lbistFail s
  | .pwrSequenceRetry t => Sys2Proof.Machine.execPwrSequenceRetry t s
  | .pwrGoodLoss t => Sys2Proof.Machine.execPwrGoodLoss t s
  | .railDischargeDone t => Sys2Proof.Machine.execRailDischargeDone t s
  | .hbmTrainingComplete t failed taps => Sys2Proof.Machine.execHbmTrainingComplete t failed taps s
  | .chaffWipeComplete t => Sys2Proof.Machine.execChaffWipeComplete t s
  | .firmwareVerifyComplete t v => Sys2Proof.Machine.execFirmwareVerifyComplete t v s
  | .mainFirmwareWatchdog t => Sys2Proof.Machine.execMainFirmwareWatchdog t s
  | .firmwareActivation t => Sys2Proof.Machine.execFirmwareActivation t s
  | .spiWritePacket t code bytes => Sys2Proof.Machine.execSpiWritePacket t code bytes s
  | .spiReadReply t n => Sys2Proof.Machine.execSpiReadReply t n s
  | .spiReadStatus t => Sys2Proof.Machine.execSpiReadStatus t s
  | .mbxDoorbell t value slotBytes => Sys2Proof.Machine.execMbxDoorbell t value slotBytes s
  | .mbxStatusClear t value => Sys2Proof.Machine.execMbxStatusClear t value s
  | .canFrameReceive t ident fd data => Sys2Proof.Machine.execCanFrameReceive t ident fd data s
  | .canReassemblyTimeout t safety => Sys2Proof.Machine.execCanReassemblyTimeout t safety s
  | .canFrameSent t => Sys2Proof.Machine.execCanFrameSent t s
  | .canBusOff t => Sys2Proof.Machine.execCanBusOff t s
  | .canBusOffRecovery t => Sys2Proof.Machine.execCanBusOffRecovery t s
  | .replyCacheExpiry t => Sys2Proof.Machine.execReplyCacheExpiry t s
  | .forwardTimeout t => Sys2Proof.Machine.execForwardTimeout t s
  | .nop t rq => Sys2Proof.Machine.execNop t rq s
  | .identify t rq => Sys2Proof.Machine.execIdentify t rq s
  | .status t rq => Sys2Proof.Machine.execStatus t rq s
  | .stateRequest t rq estopN => Sys2Proof.Machine.execStateRequest t rq estopN s
  | .eventRead t rq => Sys2Proof.Machine.execEventRead t rq s
  | .eventClear t rq => Sys2Proof.Machine.execEventClear t rq s
  | .eventRoute t rq => Sys2Proof.Machine.execEventRoute t rq s
  | .paramRead t rq => Sys2Proof.Machine.execParamRead t rq s
  | .paramWrite t rq => Sys2Proof.Machine.execParamWrite t rq s
  | .layerDefine t rq => Sys2Proof.Machine.execLayerDefine t rq s
  | .layerShadow t rq => Sys2Proof.Machine.execLayerShadow t rq s
  | .commit t rq => Sys2Proof.Machine.execCommit t rq s
  | .commitStatus t rq => Sys2Proof.Machine.execCommitStatus t rq s
  | .anvilClaim t rq => Sys2Proof.Machine.execAnvilClaim t rq s
  | .anvilRequest t rq => Sys2Proof.Machine.execAnvilRequest t rq s
  | .anvilVerifyRead t rq => Sys2Proof.Machine.execAnvilVerifyRead t rq s
  | .sheafLoad t rq => Sys2Proof.Machine.execSheafLoad t rq s
  | .warpLoad t rq => Sys2Proof.Machine.execWarpLoad t rq s
  | .gamutLoad t rq => Sys2Proof.Machine.execGamutLoad t rq s
  | .lightLevel t rq => Sys2Proof.Machine.execLightLevel t rq s
  | .lampFunctionSet t rq => Sys2Proof.Machine.execLampFunctionSet t rq s
  | .loopConfigure t rq => Sys2Proof.Machine.execLoopConfigure t rq s
  | .loopBankWrite t rq => Sys2Proof.Machine.execLoopBankWrite t rq s
  | .loopBankSwap t rq => Sys2Proof.Machine.execLoopBankSwap t rq s
  | .loopMode t rq => Sys2Proof.Machine.execLoopMode t rq s
  | .traceArm t rq => Sys2Proof.Machine.execTraceArm t rq s
  | .traceRead t rq => Sys2Proof.Machine.execTraceRead t rq s
  | .timingProfile t rq => Sys2Proof.Machine.execTimingProfile t rq s
  | .memTrain t rq => Sys2Proof.Machine.execMemTrain t rq s
  | .memStatus t rq => Sys2Proof.Machine.execMemStatus t rq s
  | .thermalPolicy t rq => Sys2Proof.Machine.execThermalPolicy t rq s
  | .calControl t rq => Sys2Proof.Machine.execCalControl t rq s
  | .calRead t rq => Sys2Proof.Machine.execCalRead t rq s
  | .bistRun t rq => Sys2Proof.Machine.execBistRun t rq s
  | .bistResult t rq => Sys2Proof.Machine.execBistResult t rq s
  | .linkTopology t rq => Sys2Proof.Machine.execLinkTopology t rq s
  | .attestChallenge t rq => Sys2Proof.Machine.execAttestChallenge t rq s
  | .lifecycleAdvance t rq => Sys2Proof.Machine.execLifecycleAdvance t rq s
  | .limitedSettingWrite t rq => Sys2Proof.Machine.execLimitedSettingWrite t rq s
  | .firmwareLoad t rq => Sys2Proof.Machine.execFirmwareLoad t rq s
  | .cmpFenceWrite t layer value => Sys2Proof.Machine.execCmpFenceWrite t layer value s
  | .swtRetry t e => Sys2Proof.Machine.execSwtRetry t e s
  | .scnRestart t e => Sys2Proof.Machine.execScnRestart t e s
  | .emitReset t e => Sys2Proof.Machine.execEmitReset t e s
  | .tripReset t e => Sys2Proof.Machine.execTripReset t e s
  | .srvLoopFlagClear t slot value => Sys2Proof.Machine.execSrvLoopFlagClear t slot value s
  | .evtLatchedClear t group value => Sys2Proof.Machine.execEvtLatchedClear t group value s
  | .thrSheafDataHiRead t => Sys2Proof.Machine.execThrSheafDataHiRead t s
  | .frgDerateDataWrite t value => Sys2Proof.Machine.execFrgDerateDataWrite t value s
  | .counterClear t pid value => Sys2Proof.Machine.execCounterClear t pid value s
  | .registerWrite t pid value => Sys2Proof.Machine.execRegisterWrite t pid value s
  | .bar2Write t addr bytes => Sys2Proof.Machine.execBar2Write t addr bytes s
  | .bar2Read t addr len => Sys2Proof.Machine.execBar2Read t addr len s
  | .frameStart t fi => Sys2Proof.Machine.execFrameStart t fi s
  | .slotEpoch t e lead => Sys2Proof.Machine.execSlotEpoch t e lead s
  | .lightWindowOpen t e => Sys2Proof.Machine.execLightWindowOpen t e s
  | .bandLoadDeadline t e band flits => Sys2Proof.Machine.execBandLoadDeadline t e band flits s
  | .cornerTurnHalfComplete t e half => Sys2Proof.Machine.execCornerTurnHalfComplete t e half s
  | .sheafRecompileComplete t e => Sys2Proof.Machine.execSheafRecompileComplete t e s
  | .servoTick t inp => Sys2Proof.Machine.execServoTick t inp s
  | .loopSampleDeadline t slot done => Sys2Proof.Machine.execLoopSampleDeadline t slot done s
  | .referenceEdge t al => Sys2Proof.Machine.execReferenceEdge t al s
  | .referenceLoss t al => Sys2Proof.Machine.execReferenceLoss t al s
  | .holdoverLongExpiry t al => Sys2Proof.Machine.execHoldoverLongExpiry t al s
  | .pllLossOfLock t pll => Sys2Proof.Machine.execPllLossOfLock t pll s
  | .pllRelockAttemptExpiry t pll => Sys2Proof.Machine.execPllRelockAttemptExpiry t pll s
  | .pllRelock t pll dptxTrained => Sys2Proof.Machine.execPllRelock t pll dptxTrained s
  | .safePllAttempt t locked => Sys2Proof.Machine.execSafePllAttempt t locked s
  | .returnStatusFrame t e bytes => Sys2Proof.Machine.execReturnStatusFrame t e bytes s
  | .returnLaneBlockLockLoss t e => Sys2Proof.Machine.execReturnLaneBlockLockLoss t e s
  | .statusFrameMissing t e => Sys2Proof.Machine.execStatusFrameMissing t e s
  | .linkBringupStepTimeout t e => Sys2Proof.Machine.execLinkBringupStepTimeout t e s
  | .linkSoakComplete t e => Sys2Proof.Machine.execLinkSoakComplete t e s
  | .laneCorrSecond t => Sys2Proof.Machine.execLaneCorrSecond t s
  | .pickoffEdge t e => Sys2Proof.Machine.execPickoffEdge t e s
  | .predictedEdgeMissed t e => Sys2Proof.Machine.execPredictedEdgeMissed t e s
  | .scanStartTimeout t e => Sys2Proof.Machine.execScanStartTimeout t e s
  | .amplitudeSample t e code => Sys2Proof.Machine.execAmplitudeSample t e code s
  | .verticalDeviationTimeout t e => Sys2Proof.Machine.execVerticalDeviationTimeout t e s
  | .rowStart t e fetched complete => Sys2Proof.Machine.execRowStart t e fetched complete s
  | .flyback t e => Sys2Proof.Machine.execFlyback t e s
  | .emissionSample t e power => Sys2Proof.Machine.execEmissionSample t e power s
  | .derateRecompute t => Sys2Proof.Machine.execDerateRecompute t s
  | .pdFaultCount t ch => Sys2Proof.Machine.execPdFaultCount t ch s
  | .matrixFrameStart t => Sys2Proof.Machine.execMatrixFrameStart t s
  | .matrixRowSlot t row volts rowSupply => Sys2Proof.Machine.execMatrixRowSlot t row volts rowSupply s
  | .columnOvervoltageCount t row col => Sys2Proof.Machine.execColumnOvervoltageCount t row col s
  | .nonceExpiry t => Sys2Proof.Machine.execNonceExpiry t s
  | .claimLockoutExpiry t => Sys2Proof.Machine.execClaimLockoutExpiry t s
  | .ownerTimeout t => Sys2Proof.Machine.execOwnerTimeout t s
  | .frameVerdict t meas => Sys2Proof.Machine.execFrameVerdict t meas s
  | .cameraFrame t cam crcErr covers quiet tests => Sys2Proof.Machine.execCameraFrame t cam crcErr covers quiet tests s
  | .cameraTimeout t cam => Sys2Proof.Machine.execCameraTimeout t cam s
  | .glyphReloadComplete t => Sys2Proof.Machine.execGlyphReloadComplete t s
  | .estimateHoldExpiry t ch => Sys2Proof.Machine.execEstimateHoldExpiry t ch s
  | .gamutHoldTimeout t e => Sys2Proof.Machine.execGamutHoldTimeout t e s
  | .colourSensorReading t e rgb pairEnergy => Sys2Proof.Machine.execColourSensorReading t e rgb pairEnergy s
  | .colourSensorTimeout t e => Sys2Proof.Machine.execColourSensorTimeout t e s
  | .dpFrameComplete t n => Sys2Proof.Machine.execDpFrameComplete t n s
  | .dpLinkLoss t n => Sys2Proof.Machine.execDpLinkLoss t n s
  | .dpStaleTimeout t n => Sys2Proof.Machine.execDpStaleTimeout t n s
  | .refreshInterval t pc checkOk => Sys2Proof.Machine.execRefreshInterval t pc checkOk s
  | .parityError t pc addr port write replaysFailed => Sys2Proof.Machine.execParityError t pc addr port write replaysFailed s
  | .eccError t pc addr port uncorrectable syndrome => Sys2Proof.Machine.execEccError t pc addr port uncorrectable syndrome s
  | .retrainComplete t pc found checkOk taps => Sys2Proof.Machine.execRetrainComplete t pc found checkOk taps s
  | .dieSensorSample t n value => Sys2Proof.Machine.execDieSensorSample t n value s
  | .dieSensorReading t values => Sys2Proof.Machine.execDieSensorReading t values s
  | .stackSensorReading t k value => Sys2Proof.Machine.execStackSensorReading t k value s
  | .stackSensorTimeout t k => Sys2Proof.Machine.execStackSensorTimeout t k s
  | .stackLevelDwellExpiry t k => Sys2Proof.Machine.execStackLevelDwellExpiry t k s
  | .ntcReading t m value => Sys2Proof.Machine.execNtcReading t m value s
  | .sensorSuspectExpiry t n => Sys2Proof.Machine.execSensorSuspectExpiry t n s
  | .levelDwellExpiry t => Sys2Proof.Machine.execLevelDwellExpiry t s
  | .throttleHoldExpiry t => Sys2Proof.Machine.execThrottleHoldExpiry t s
  | .throttleStep t => Sys2Proof.Machine.execThrottleStep t s
  | .quenchRampStep t => Sys2Proof.Machine.execQuenchRampStep t s
  | .supplyMonitorExcursion t rail beyond6 pins patch => Sys2Proof.Machine.execSupplyMonitorExcursion t rail beyond6 pins patch s
  | .processMonitorMeasure t ratios => Sys2Proof.Machine.execProcessMonitorMeasure t ratios s
  | .temperMeasurementWindow t q tap preOk target => Sys2Proof.Machine.execTemperMeasurementWindow t q tap preOk target s
  | .temperMove t q tap => Sys2Proof.Machine.execTemperMove t q tap s
  | .journalWriteStart t => Sys2Proof.Machine.execJournalWriteStart t s
  | .journalWriteComplete t readBackOk => Sys2Proof.Machine.execJournalWriteComplete t readBackOk s
  | .journalRetry t => Sys2Proof.Machine.execJournalRetry t s
  | .marchSliceStart t inst idle free => Sys2Proof.Machine.execMarchSliceStart t inst idle free s
  | .marchSliceComplete t inst predicted actual fail => Sys2Proof.Machine.execMarchSliceComplete t inst predicted actual fail s
  | .marchSliceAbort t inst => Sys2Proof.Machine.execMarchSliceAbort t inst s
  | .passLimitExpiry t inst => Sys2Proof.Machine.execPassLimitExpiry t inst s
  | .repairRecordWrite t readBackOk => Sys2Proof.Machine.execRepairRecordWrite t readBackOk s
  | .timeMarkReceive t f tm => Sys2Proof.Machine.execTimeMarkReceive t f tm s
  | .refclkMismatchCount t => Sys2Proof.Machine.execRefclkMismatchCount t s
  | .delayReqReceive t port t1 => Sys2Proof.Machine.execDelayReqReceive t port t1 s
  | .delayRespReceive t port t2 t3 => Sys2Proof.Machine.execDelayRespReceive t port t2 t3 s
  | .delayMeasureTimer t => Sys2Proof.Machine.execDelayMeasureTimer t s
  | .enumReceive t f en => Sys2Proof.Machine.execEnumReceive t f en s
  | .brugoCmdReceive t f packet => Sys2Proof.Machine.execBrugoCmdReceive t f packet s
  | .brugoReplyReceive t f packet => Sys2Proof.Machine.execBrugoReplyReceive t f packet s
  | .brugoEventReceive t f records => Sys2Proof.Machine.execBrugoEventReceive t f records s
  | .anvilMirrorSend t => Sys2Proof.Machine.execAnvilMirrorSend t s
  | .anvilMirrorReceive t f m => Sys2Proof.Machine.execAnvilMirrorReceive t f m s
  | .mirrorMissingCount t => Sys2Proof.Machine.execMirrorMissingCount t s
  | .brugoStatusReceive t f ws => Sys2Proof.Machine.execBrugoStatusReceive t f ws s
  | .barrierPrepare t f number apply packet => Sys2Proof.Machine.execBarrierPrepare t f number apply packet s
  | .barrierVote t f number yes element reason => Sys2Proof.Machine.execBarrierVote t f number yes element reason s
  | .barrierApply t f number => Sys2Proof.Machine.execBarrierApply t f number s
  | .barrierAck t f number => Sys2Proof.Machine.execBarrierAck t f number s
  | .barrierCancel t f number => Sys2Proof.Machine.execBarrierCancel t f number s
  | .barrierDecisionDeadline t => Sys2Proof.Machine.execBarrierDecisionDeadline t s
  | .barrierAckDeadline t => Sys2Proof.Machine.execBarrierAckDeadline t s
  | .flitResendTimeout t port seq => Sys2Proof.Machine.execFlitResendTimeout t port seq s
  | .brugoPortSilence t port => Sys2Proof.Machine.execBrugoPortSilence t port s
  | .brugoPortUp t port => Sys2Proof.Machine.execBrugoPortUp t port s
  | .memberStatusTimeout t dev => Sys2Proof.Machine.execMemberStatusTimeout t dev s
  | .managerLoss t => Sys2Proof.Machine.execManagerLoss t s
  | .eventGatherExpiry t => Sys2Proof.Machine.execEventGatherExpiry t s
  | .starvationExpiry t activity => Sys2Proof.Machine.execStarvationExpiry t activity s
  | .powerLoss t => Sys2Proof.Machine.execPowerLoss t s
  | .supplyMonitorRecovery t rail within3 => Sys2Proof.Machine.execSupplyMonitorRecovery t rail within3 s
  | .returnLaneBlockLock t e => Sys2Proof.Machine.execReturnLaneBlockLock t e s
  | .brugoCodewordLockLoss t port => Sys2Proof.Machine.execBrugoCodewordLockLoss t port s
  | .dpLinkLock t n rate dsc w h refreshMilliHz col => Sys2Proof.Machine.execDpLinkLock t n rate dsc w h refreshMilliHz col s
  | .estimateValidTimeout t ch => Sys2Proof.Machine.execEstimateValidTimeout t ch s
  | .bistRunComplete t readBackOk fails rows => Sys2Proof.Machine.execBistRunComplete t readBackOk fails rows s
  | .otpWriteComplete t readBackOk => Sys2Proof.Machine.execOtpWriteComplete t readBackOk s
  | .bootFlashWriteComplete t readBackOk v anvil => Sys2Proof.Machine.execBootFlashWriteComplete t readBackOk v anvil s
  | .svnMinWriteRetry t readBackOk => Sys2Proof.Machine.execSvnMinWriteRetry t readBackOk s

end Sys2Proof.Machine
end

