-- ==== Sys2Proof/Safety.lean ====
section
/-! DEFINITION. What the claims speak of: the invariant of every run, when a queued command stops, and when the
interpreter serves a request or a register row at once. -/

namespace Sys2Proof.Machine

/-- The invariant of every run: the HBM memory is in canonical form, so that equal contents are equal data. -/
def State.Inv (s : State) : Prop := Mem.wf s.grn.hbm = true

/-- The command's operands name bytes outside the 16 GiB window of BAR2 (R357): the one case that stops. -/
def outsideWindow : Instr → Bool
  | .bar2Write _ a b => decide (2 ^ 34 < a + b.length)
  | .bar2Read _ a n => decide (2 ^ 34 < a + n)
  | _ => false

/-- A queue runs to its end without a stop. -/
def runsSafely : List Instr → Bool
  | [] => true
  | c :: r => !outsideWindow c && runsSafely r

/-- A request of opcode `op` that the interpreter grants now, and that the power state, the transition and the life
cycle accept, for this device itself (R63, R73-R75, R78). -/
def serves (op : Nat) (rq : Req) (s : State) : Bool :=
  rq.opcode == op && s.hth.boot != .hold && s.hst.requests.contains rq && grantedNow s == some rq
    && admission s rq == none && !rqForward rq

/-- A register row is served: STANDBY, READY or LIT, in a life-cycle state that admits PARAM_WRITE (R32, R492, R504). -/
def rowOpen (s : State) : Bool :=
  inSRL s.hth.pwr
    && lcOk { port := .spi, opcode := 0x09, tag := 0, flags := 0, payload := [], crc := 0, at' := 0 } s.otp.lifecycle

/-- A flit that a device of the role takes and acts on: its port is up, it is a first copy, and it is for this device (R439,
R441). -/
def hears (role : Nat) (f : Flit) (s : State) : Bool :=
  s.hth.role == role && role != 0 && s.brg.ports[f.port].st == .up && firstCopy f s && forMe f s

/-- The state after a first copy has been acknowledged, remembered and forwarded, before the device acts on it (R440,
R441). -/
def flitTaken (f : Flit) (s : State) : State :=
  forwardFlit f (setBrg (fun b => { b with seen := ((f.src, f.msgno) :: b.seen).take 64 }) (ackSettles f s))

end Sys2Proof.Machine
end

