-- ==== Sys2Proof/Certificates/Slice0/Obligations.lean ====
section
/-! DEFINITION. The statements for the provers. Each names the rules of the spec that it formalises; a clause that rests on
a choice of the model names the log entry. -/

open Sys2Proof Sys2Proof.Machine

/-! ## The block as a whole -/

/-- A step runs the command at the front of the queue, on the state with the queue's rest; an empty queue idles (the
model's choice: log 1). -/
def Obligations.StepRunsTheFrontCommand : Prop :=
  (∀ (s : State) (c : Instr) (r : List Instr), s.pending = c :: r → step s = exec c { s with pending := r }) ∧
  (∀ s : State, s.pending = [] → step s = .next s)

/-- The state after reset: an empty queue, memory in canonical form, HTH_STATE reading SLEEP with BUSY set,
EVT_FAULT_SRC reading the reset hold alone, the frame count 0, and ANV_STATUS with the matrix as HOLDER for REASON 5
(R35, R151, R547). The content of OTP and flash at reset is the model's choice (log 5). -/
def Obligations.ResetStateIsAsStated : Prop :=
  State.reset.Inv ∧ State.reset.pending = [] ∧
  paramValue 0x0101 State.reset = some 0x101 ∧ paramValue 0x1303 State.reset = some 1 ∧
  paramValue 0x0402 State.reset = some 0 ∧ paramValue 0x0501 State.reset = some 0x51 ∧
  State.reset.hst.requests = [] ∧ State.reset.hst.pend = [] ∧ State.reset.evt.recs = []

/-- Every step keeps the canonical form of the HBM memory, from every state that has it. -/
def Obligations.MemoryStaysCanonical : Prop :=
  ∀ s x : State, s.Inv → step s = .next x → x.Inv

/-- The queue runs in order and time goes forward: a step takes exactly the front command off the queue, whatever it
does, and never moves model time back. -/
def Obligations.QueueRunsInOrder : Prop :=
  ∀ (s x : State) (c : Instr) (r : List Instr), s.pending = c :: r → step s = .next x →
    x.pending = r ∧ s.now ≤ x.now

/-- OTP only gains (R464, R476: derived from what writes OTP): whatever step runs, the UID stands, no programmed bit of
a life-cycle word is lost and the SVN minima do not fall. -/
def Obligations.OtpIsNeverUnprogrammed : Prop :=
  ∀ s x : State, step s = .next x →
    x.otp.uid = s.otp.uid ∧ (∀ i : Fin 5, s.otp.lcWords[i] &&& x.otp.lcWords[i] = s.otp.lcWords[i]) ∧
    s.otp.svnMinPatch ≤ x.otp.svnMinPatch ∧ s.otp.svnMinMain ≤ x.otp.svnMinMain

/-- Every command completes in every state, but for a BAR2 access outside the 16 GiB window, which stops. A queue of
commands none of which names bytes outside BAR2's window runs to its end: after as many steps as it has commands the
queue is empty, and the memory is still in canonical form. -/
def Obligations.CommandsCompleteAndSafeQueuesEnd : Prop :=
  (∀ (c : Instr) (s : State),
     (outsideWindow c = false → ∃ x, exec c s = .next x) ∧
     (outsideWindow c = true → ∃ a, exec c s = .fault (.outsideBar2 a))) ∧
  (∀ s : State, s.Inv → runsSafely s.pending = true →
     ∃ x, Host.Core.run core s.pending.length s = .next x ∧ x.pending = [] ∧ x.Inv)

/-! ## HBM through BAR2 -/

/-- BAR2_WRITE and BAR2_READ inside a surface while the HBM serves (R357): a write puts its bytes at the addresses it
names, leaves every other byte and every other part of the state alone, and sets the written bit of exactly the
redirected granules it touches (R377); a read returns the bytes stored there and changes no byte. BAR2 outside a
surface (R357): the write is dropped with GRN_BAR_VIOLATION, the read completes as Unsupported Request; outside the
window there is no such access. -/
def Obligations.Bar2ReadsAndWrites : Prop :=
  (∀ (t : Time) (a : Nat) (l : List Byte) (s : State), s.Inv → a + l.length ≤ 2 ^ 34 → s.hst.linkUp = true →
    inSurface s a l.length = true → grnServes s = true →
    ∃ m w, exec (.bar2Write t a l) s = .next { s.at t with grn := { s.grn with hbm := m, written := w } } ∧
      Mem.wf m = true ∧
      (∀ b, Mem.read m b = if a ≤ b ∧ b < a + l.length then l.getD (b - a) 0 else Mem.read s.grn.hbm b) ∧
      ∀ k, k ∈ w ↔ k ∈ s.grn.written ∨ (a / 4096 ≤ k ∧ k < (a + l.length + 4095) / 4096 ∧
        s.grn.pc[pcOf s.grn.stacksUsed (4096 * k)].failed = true)) ∧
  (∀ (t : Time) (a n : Nat) (s : State), a + n ≤ 2 ^ 34 → s.hst.linkUp = true → inSurface s a n = true →
    grnServes s = true →
    exec (.bar2Read t a n) s = .next { s.at t with grn := { s.grn with
      barData := (s.at t).hbmReads a n, barStatus := 0 } } ∧ ((s.at t).hbmReads a n).length = n) ∧
  (∀ (a n i : Nat) (s : State), s.grn.spoilt = none → i < n →
    (s.hbmReads a n).getD i 0 = Mem.read s.grn.hbm (a + i)) ∧
  (∀ (t : Time) (a : Nat) (l : List Byte) (s : State), a + l.length ≤ 2 ^ 34 → s.hst.linkUp = true →
    inSurface s a l.length = false → exec (.bar2Write t a l) s = .next (raise evGrnBarViolation 0 (s.at t))) ∧
  (∀ (t : Time) (a n : Nat) (s : State), a + n ≤ 2 ^ 34 → s.hst.linkUp = true → inSurface s a n = false →
    exec (.bar2Read t a n) s = .next { s.at t with grn := { s.grn with barData := [], barStatus := 1 } }) ∧
  (∀ (t : Time) (a : Nat) (l : List Byte) (s : State), 2 ^ 34 < a + l.length →
    exec (.bar2Write t a l) s = .fault (.outsideBar2 a)) ∧
  (∀ (t : Time) (a n : Nat) (s : State), 2 ^ 34 < a + n → exec (.bar2Read t a n) s = .fault (.outsideBar2 a))

/-! ## Power, reset and clocks -/

/-- POWER_ON, a RESET by an internal reset or by a PORST_N pulse of at least 10 us, and a DELAYED_RESET that is due all
run the cold start (R49, R52, R468), which leaves no request, PENDING command or reply and an HBM of zeros (R52,
R69). A shorter pulse does nothing. POWER_LOSS (R55, R56): the device is OFF; the host, event, compositor, Anvil and
Servo blocks are at their reset values and the HBM reads zero; OTP keeps its UID, and the stored images, the Anvil
sets, the topology and the journal stand. -/
def Obligations.ResetsAndPowerLoss : Prop :=
  (∀ (t : Time) (p : Pins) (v : Verify) (s : State), ∃ x, exec (.powerOn t p v) s = .next x ∧
    x = coldStart p v { s.at t with hth := { s.hth with xtalOk := true, onRc := false } } ∧
    x.hst.requests = [] ∧ x.hst.pend = [] ∧ x.hst.spiReplies = [] ∧ x.grn.hbm = []) ∧
  (∀ (t : Time) (k : ResetKind) (p : Pins) (v : Verify) (s : State), s.hth.pwr ≠ .off →
    (∀ w, k = .porst w → 10 * us ≤ w) →
    ∃ x, exec (.reset t k p v) s = .next x ∧ x = coldStart p v (s.at t) ∧
      x.hst.requests = [] ∧ x.hst.pend = [] ∧ x.hst.spiReplies = [] ∧ x.grn.hbm = []) ∧
  (∀ (t w : Time) (p : Pins) (v : Verify) (s : State), w < 10 * us →
    exec (.reset t (.porst w) p v) s = .next (s.at t)) ∧
  (∀ (t d : Time) (p : Pins) (v : Verify) (s : State), s.hth.resetDue = some d → d ≤ t →
    ∃ x, exec (.delayedReset t p v) s = .next x ∧ x = coldStart p v (s.at t) ∧
      x.hst.requests = [] ∧ x.hst.pend = [] ∧ x.hst.spiReplies = [] ∧ x.grn.hbm = []) ∧
  (∀ (t : Time) (s : State), ∃ x, exec (.powerLoss t) s = .next x ∧
     x.hth.pwr = .off ∧ x.hth.boot = .hold ∧ x.hst = {} ∧ x.evt = {} ∧ x.cmp = {} ∧ x.anv = {} ∧ x.srv = {} ∧
     x.grn.hbm = [] ∧ x.otp.uid = s.otp.uid ∧ x.flash.patch = s.flash.patch ∧ x.flash.main = s.flash.main ∧
     x.flash.anvil = s.flash.anvil ∧ x.flash.brgConfig = s.flash.brgConfig ∧ x.flash.journal = s.flash.journal)

/-- The IGN-off delay (R37): IGN_FALL starts it from HTH_IGN_OFF_DELAY in units of 100 ms, IGN_RISE inside it cancels
it, and its expiry makes the move to IGN_OFF_TARGET. With IGN_EN 0 an edge moves only the pin's level. The IGN-off
move (R37, R566): from a state above IGN_OFF_TARGET it starts the transition with cause 0x03; at or below it, and
with no target, it changes no state; while BUSY or in QUENCH it is held; in SAFE nothing is held. WAKE_RISE and
IGN_RISE (R39, R566): below WAKE_TARGET, with no transition running and no refusal of R44, they start the transition
to it with causes 0x04 and 0x02, WAKE_SRC showing the source of a wake from SLEEP; the IGN rise from SLEEP lights
the lamp check first. ESTOP_ASSERT (R46, R285): outside LIT every engine is held dark by its ESTOP cause and the
state stays; in LIT the device enters SAFE with cause 0x20. -/
def Obligations.InputsMoveTheDevice : Prop :=
  (∀ (t : Time) (s : State), s.hth.boot ≠ .hold → wb s.hth.wakeConfig 0 = true → s.hth.ign = true →
    exec (.ignFall t) s = .next { s.at t with hth := { s.hth with
      ign := false, ignOffDue := some (max s.now t + s.hth.ignOffDelay.toNat * (100 * ms)) } }) ∧
  (∀ (t : Time) (s : State), wb s.hth.wakeConfig 0 = false →
    exec (.ignFall t) s = .next { s.at t with hth := { s.hth with ign := false } }) ∧
  (∀ (t : Time) (s : State), s.hth.boot ≠ .hold → wb s.hth.wakeConfig 0 = true →
    ∃ x, exec (.ignRise t) s = .next x ∧ x.hth.ignOffDue = none ∧ x.hth.ign = true) ∧
  (∀ (t d : Time) (s : State), s.hth.ignOffDue = some d → d ≤ t →
    exec (.ignOffDelayExpiry t) s
      = .next (ignOffActs { s.at t with hth := { s.hth with ignOffDue := none } })) ∧
  (∀ s : State, ignOffTarget s = none → ignOffActs s = s) ∧
  (∀ (p : PState) (s : State), ignOffTarget s = some p → s.hth.pwr = .safe → ignOffActs s = s) ∧
  (∀ (p : PState) (s : State), ignOffTarget s = some p → s.hth.pwr ≠ .safe → s.hth.pwr ≠ .off →
    (s.busy = true ∨ s.hth.pwr = .quench) →
    ignOffActs s = { s with hth := { s.hth with held := some .ignOff } }) ∧
  (∀ (p : PState) (s : State), ignOffTarget s = some p → s.busy = false →
    (s.hth.pwr = .sleep ∨ s.hth.pwr = .standby ∨ s.hth.pwr = .ready ∨ s.hth.pwr = .lit) →
    ignOffActs s = if p.rank < s.hth.pwr.rank then startTrans p 0x03 none s else s) ∧
  (∀ (t : Time) (s : State), s.hth.boot ≠ .hold → wb s.hth.wakeConfig 1 = true → s.hth.pwr = .sleep → s.busy = false →
    exec (.wakeRise t) s = .next (startTrans (wakeTarget s) 0x04 none { s.at t with hth := { s.hth with
      wake := true, rcRun := true, lastActivity := max s.now t, wakeSrc := 2 } })) ∧
  (∀ (t : Time) (s : State), s.hth.boot ≠ .hold → wb s.hth.wakeConfig 0 = true → s.hth.pwr = .sleep → s.busy = false →
    exec (.ignRise t) s = .next (startTrans (wakeTarget s) 0x02 none { s.at t with hth := { s.hth with
      ign := true, rcRun := true, lastActivity := max s.now t, ignOffDue := none, lampCheck := true,
      lampCheckEnded := [], wakeSrc := 1 } })) ∧
  (∀ (t : Time) (s : State), s.hth.pwr = .safe →
    exec (.wakeRise t) s = .next { s.at t with hth := { s.hth with
      wake := true, rcRun := true, lastActivity := max s.now t } }) ∧
  (∀ (t : Time) (s : State), s.hth.boot ≠ .hold → s.hth.pwr ≠ .lit →
    exec (.estopAssert t) s
      = .next (forEng (fun e a => darkCause e 0 a) { s.at t with hth := { s.hth with estopLow := true } })) ∧
  (∀ (t : Time) (s : State), s.hth.boot ≠ .hold → s.hth.pwr = .lit →
    exec (.estopAssert t) s = .next (enterSafe 0x20
      (forEng (fun e a => darkCause e 0 a) { s.at t with hth := { s.hth with estopLow := true } }))) ∧
  (∀ (c : Nat) (s : State), s.hth.pwr = .lit → (enterSafe c s).hth.pwr = .safe ∧ (enterSafe c s).hth.cause = c)

/-- The Hearth's oscillators (R29, R30, R40): XTAL_START_TIMEOUT moves to the RC with HTH_XTAL_FAIL, XTAL_RETURN moves
back, RC_TRIM trims while both run and takes the Hearth temperature, RC_IDLE_STOP stops the RC in an idle SLEEP 50
ms after the last activity. The power-up sequence of the switched rails (R552, R553, R555): PWR_GOOD at step 4
brings the fast domains up; a first failure lowers the three enables and arms a repeat 100 ms later; the repeat
raises them again; a discharge that ends lets a waiting wake begin. The supplies (R399, R554): an excursion beyond 3
% raises THM_SUPPLY_WARN once until it ends; one beyond 6 % of an always-on rail resets the device as at power-on;
of a switched rail it raises THM_SUPPLY_FAULT and its PLLs lose lock; a return inside the window clears it; a loss
of PWR_GOOD counts as every switched rail beyond 6 %. -/
def Obligations.OscillatorsAndRails : Prop :=
  (∀ (t : Time) (s : State), s.hth.boot ≠ .hold → s.hth.onRc = false →
    exec (.xtalStartTimeout t) s = .next (raise evHthXtalFail 0
      { s.at t with hth := { s.hth with xtalOk := false, onRc := true, rcRun := true } })) ∧
  (∀ (t : Time) (s : State),
    exec (.xtalReturn t) s = .next { s.at t with hth := { s.hth with xtalOk := true, onRc := false } }) ∧
  (∀ (t : Time) (k : Int) (s : State), s.hth.boot ≠ .hold → s.hth.xtalOk = true → s.hth.rcRun = true →
    exec (.rcTrim t k) s = .next { s.at t with hth := { s.hth with temp := k, rcTrims := s.hth.rcTrims + 1 } }) ∧
  (∀ (t : Time) (s : State), s.hth.pwr = .sleep → s.busy = false → s.hth.onRc = false →
    s.hth.lastActivity + 50 * ms ≤ t →
    exec (.rcIdleStop t) s = .next { s.at t with hth := { s.hth with rcRun := false } }) ∧
  (∀ (t : Time) (s : State), max s.now t < s.hth.lastActivity + 50 * ms → exec (.rcIdleStop t) s = .next (s.at t)) ∧
  (∀ (t : Time) (r : Option (Fin 13)) (f : BitVec 4) (s : State), s.hth.boot = .rails →
    exec (.pwrGoodCheck t true r f) s = .next (domainsUp f (s.at t))) ∧
  (∀ (t : Time) (r : Option (Fin 13)) (f : BitVec 4) (s : State), s.hth.boot = .rails → s.hth.railRetried = false →
    exec (.pwrGoodCheck t false r f) s = .next { s.at t with hth := { s.hth with
      boot := .retryWait, pwrEn := 0, railRetried := true, railRetryDue := some (max s.now t + 100 * ms) } }) ∧
  (∀ (t d : Time) (s : State), s.hth.boot = .retryWait → s.hth.railRetryDue = some d → d ≤ t →
    exec (.pwrSequenceRetry t) s
      = .next { s.at t with hth := { s.hth with boot := .rails, pwrEn := 7, railRetryDue := none } }) ∧
  (∀ (t : Time) (s : State), s.hth.boot = .discharge → s.hth.wakeWaiting = true →
    exec (.railDischargeDone t) s = .next { s.at t with hth := { s.hth with
      boot := .rails, pwrEn := 7, dischargeDue := none, wakeWaiting := false, railRetried := false,
      railRetryDue := none } }) ∧
  (∀ (t : Time) (s : State), s.hth.boot = .discharge → s.hth.wakeWaiting = false →
    exec (.railDischargeDone t) s
      = .next { s.at t with hth := { s.hth with boot := .off, dischargeDue := none, wakeWaiting := false } }) ∧
  (∀ (t : Time) (r : Fin 13) (p : Pins) (v : Verify) (s : State), s.hth.boot ≠ .hold → railWatched s r = true →
    exec (.supplyMonitorExcursion t r false p v) s = .next (railWarn r (s.at t))) ∧
  (∀ (t : Time) (r : Fin 13) (p : Pins) (v : Verify) (s : State), s.hth.boot ≠ .hold → railWatched s r = true →
    r.val < 2 → exec (.supplyMonitorExcursion t r true p v) s = .next (coldStart p v (s.at t))) ∧
  (∀ (t : Time) (r : Fin 13) (p : Pins) (v : Verify) (s : State), 2 ≤ r.val → s.hth.boot ≠ .hold →
    railWatched s r = true → s.thm.supplyFault &&& railBit r = 0 →
    exec (.supplyMonitorExcursion t r true p v) s = .next ((railPlls r.val).foldl (fun a q => pllLoss q a)
      (raise evThmSupplyFault r.val (setThm (fun x => { x with supplyFault := x.supplyFault ||| railBit r })
        (railWarn r (s.at t)))))) ∧
  (∀ (t : Time) (r : Fin 13) (s : State), exec (.supplyMonitorRecovery t r true) s = .next { s.at t with
    thm := { s.thm with supplyWarn := s.thm.supplyWarn &&& ~~~railBit r,
                        supplyFault := s.thm.supplyFault &&& ~~~railBit r } }) ∧
  (∀ (t : Time) (s : State), s.fastUp = true → exec (.pwrGoodLoss t) s = .next ((List.finRange 13).foldl
    (fun a r => if r.val < 2 ∨ a.thm.supplyFault &&& railBit r ≠ 0 then a else railFault r (railWarn r a)) (s.at t)))

/-- The start of the fast domains (R49 steps 5 to 9, R51): firmware that verifies runs; none that verifies leads to SAFE
with cause 0x23; trained HBM is sound; the wipe leaves zeros and lets the state be reached; a watchdog expiry leads
to SAFE with cause 0x24. A pending image that has run 10 s becomes the active one and its minimum SVN rises to its
SVN, at once or, where R397 refuses the write, at a retry 1 s later (R476). -/
def Obligations.FastDomainsStart : Prop :=
  (∀ (t : Time) (v : Verify) (s : State), s.hth.boot = .loading → s.hth.fwDone = false → bootVerifies s true v = true →
    exec (.firmwareVerifyComplete t v) s = .next (stepSix (measure (bootSlot s.flash true)
      (firmwareRuns s.flash.mainPending v.version v.svn (s.at t))))) ∧
  (∀ (t : Time) (v : Verify) (s : State), s.hth.boot = .loading → s.hth.fwDone = false → bootVerifies s true v = false →
    s.flash.mainPending = false → s.hth.pwr ≠ .off → s.hth.pwr ≠ .safe →
    ∃ x, exec (.firmwareVerifyComplete t v) s = .next x ∧ x.hth.cause = 0x23 ∧ x.hth.pwr = .safe) ∧
  (∀ (t : Time) (s : State) (q : List (Nat × Int)), s.hth.boot = .loading → s.hth.trainDone = false →
    ∃ x, exec (.hbmTrainingComplete t [] q) s = .next x ∧ x.hth.trainDone = true ∧ x.grn.sound = true ∧
      x.hth.boot = .loading) ∧
  (∀ (t : Time) (s : State), s.hth.boot = .loading → s.hth.fwDone = true → s.hth.trainDone = true →
    ∃ x, exec (.chaffWipeComplete t) s = .next x ∧ x.grn.hbm = [] ∧ x.hth.boot = .on) ∧
  (∀ (t : Time) (s : State), s.hth.fwRuns = true → s.sec.mainTrial = false →
    exec (.mainFirmwareWatchdog t) s = .next (enterSafe 0x24 { s.at t with hth := { s.hth with fwRuns := false } })) ∧
  (∀ (t a : Time) (s : State), s.hth.runSince = some a → a + 10 * sec ≤ t → s.sec.mainTrial = true →
    s.sec.patchTrial = false → s.sec.svnPatch = false → writeRefused (s.at t) = none →
    exec (.firmwareActivation t) s = .next { s.at t with
      flash := { s.flash with mainActive := other s.flash.mainActive, mainPending := false },
      sec := { s.sec with mainTrial := false, svnMain := false, svnRetry := none },
      otp := { s.otp with svnMinMain := max s.otp.svnMinMain s.hth.mainSvn } }) ∧
  (∀ (t a : Time) (s : State) (st : Status), s.hth.runSince = some a → a + 10 * sec ≤ t → s.sec.mainTrial = true →
    writeRefused (s.at t) = some st →
    exec (.firmwareActivation t) s = .next (svnLater (activate (s.at t)))) ∧
  (∀ (t d : Time) (s : State), s.sec.svnRetry = some d → d ≤ t → writeRefused (s.at t) = none →
    exec (.svnMinWriteRetry t true) s = .next (svnRaise (s.at t))) ∧
  (∀ (t d : Time) (s : State), s.sec.svnRetry = some d → d ≤ t →
    exec (.svnMinWriteRetry t false) s = .next { s.at t with
      sec := { s.sec with svnRetry := some (max s.now t + sec) } })

/-- A hop of a transition that ends (R566): towards SLEEP, or towards READY on a device whose start is done,
TRANSITION_COMPLETE reaches the state; at the target, with no event held, STATE, PREV and CAUSE are the transition's
and BUSY falls. A move to SLEEP that ends is in SLEEP. STATE_REQUEST (R499): granted and admitted, it replies OK in
the state it asks for, PENDING with a transition of cause 0x01 towards another one, BUSY while a transition runs,
THERMAL_INHIBIT in QUENCH and BAD_PARAM for a code outside 1-4. -/
def Obligations.TransitionsAndStateRequest : Prop :=
  (∀ (t : Time) (l : List (Fin 64)) (tr : Trans) (s : State), s.hth.trans = some tr →
    (tr.stepTo = .sleep ∨ (tr.stepTo = .standby ∧ tr.leaving ≠ .sleep) ∨
      (tr.stepTo = .ready ∧ s.hth.boot = .on ∧ tr.leaving ≠ .standby)) →
    exec (.transitionComplete t l) s = .next (stepDone tr (s.at t))) ∧
  (∀ (t : Time) (l : List (Fin 64)) (tr : Trans) (s : State), s.hth.trans = some tr → tr.stepTo = .quench →
    exec (.transitionComplete t l) s = .next (quenchDone tr (s.at t))) ∧
  (∀ (tr : Trans) (p : PState) (st : Status) (s : State), s.hth.held = none → tr.cmd = none →
    ∃ e, transEnds tr p st s = { s with evt := e, hth := { s.hth with
      held := none, pwr := p, prev := tr.start, cause := tr.cause, trans := none,
      runSince := if p = .ready ∨ p = .lit then
        (if s.hth.pwr = .ready ∨ s.hth.pwr = .lit then s.hth.runSince else some s.now) else none } }) ∧
  (∀ (t : Time) (l : List (Fin 64)) (tr : Trans) (s : State), s.hth.trans = some tr → tr.stepTo = .sleep →
    tr.target = .sleep → tr.leaving ≠ .quench → tr.cmd = none → s.hth.held = none →
    ∃ x, exec (.transitionComplete t l) s = .next x ∧ x.hth.pwr = .sleep ∧ x.hth.prev = tr.start ∧
      x.hth.cause = tr.cause ∧ x.hth.trans = none) ∧
  (∀ (t : Time) (rq : Req) (h : Bool) (s x : State), x = estopSample h (s.at t) → serves 0x03 rq x = true →
    exec (.stateRequest t rq h) s = .next (finishReply rq (stateRequestBody rq (takeReq rq x)).2.1
      (stateRequestBody rq (takeReq rq x)).2.2 (stateRequestBody rq (takeReq rq x)).1)) ∧
  (∀ (rq : Req) (s : State), byteAt rq.payload 0 = 3 → s.busy = false → s.hth.pwr = .ready →
    stateRequestBody rq s = (s, .ok, [])) ∧
  (∀ (rq : Req) (s : State), byteAt rq.payload 0 = 3 → s.busy = false → s.hth.pwr = .standby →
    stateRequestBody rq s = (startTrans .ready 0x01 (some (reqKey rq)) s, .pending, [])) ∧
  (∀ (rq : Req) (s : State), byteAt rq.payload 0 = 1 → s.busy = false → (s.hth.pwr = .ready ∨ s.hth.pwr = .standby ∨ s.hth.pwr = .lit) →
    stateRequestBody rq s = (startTrans .sleep 0x01 (some (reqKey rq)) s, .pending, [])) ∧
  (∀ (rq : Req) (s : State), 1 ≤ byteAt rq.payload 0 → byteAt rq.payload 0 ≤ 4 → s.busy = true →
    stateRequestBody rq s = (s, .busy, [])) ∧
  (∀ (rq : Req) (s : State), 1 ≤ byteAt rq.payload 0 → byteAt rq.payload 0 ≤ 4 → s.busy = false → s.hth.pwr = .quench →
    stateRequestBody rq s = (s, .thermalInhibit, [])) ∧
  (∀ (rq : Req) (s : State), byteAt rq.payload 0 = 0 ∨ 4 < byteAt rq.payload 0 →
    stateRequestBody rq s = (s, .badParam, []))

/-- QUENCH_RECOVERY and the quench ramp (R392, R395): the ramp takes one sixteenth a step; recovery after the dwell
leaves QUENCH for the state before it, or STANDBY, with cause 0x12, and takes the engines back to full brightness.
The move that recovery starts is BUSY towards its target. -/
def Obligations.QuenchRampAndRecovery : Prop :=
  (∀ (t : Time) (s : State), s.thm.quenching = true → 2 ≤ s.thm.q →
    exec (.quenchRampStep t) s = .next { s.at t with thm := { s.thm with q := s.thm.q - 1 } }) ∧
  (∀ (t : Time) (s : State), s.thm.quenching = true → s.thm.q = 1 →
    exec (.quenchRampStep t) s = .next (quenchDark { s.at t with thm := { s.thm with q := 0 } })) ∧
  (∀ (t d : Time) (s : State), s.thm.coolSince = some d → d + dwell ≤ t → s.hth.pwr = .quench → s.busy = false →
    s.thm.repeated = false → wb s.hth.wakeConfig 5 = true →
    exec (.quenchRecovery t) s = .next (startTrans s.hth.beforeQuench 0x12 none
      (forEng (releaseCause · 1) { s.at t with thm := { s.thm with q := 16, slopeStop := false } }))) ∧
  (∀ (t d : Time) (s : State), s.thm.coolSince = some d → d + dwell ≤ t → s.hth.pwr = .quench → s.busy = false →
    wb s.hth.wakeConfig 5 = false →
    exec (.quenchRecovery t) s = .next (startTrans .standby 0x12 none
      (forEng (releaseCause · 1) { s.at t with thm := { s.thm with q := 16, slopeStop := false } }))) ∧
  (∀ (t d : Time) (s : State), s.thm.coolSince = some d → max s.now t < d + dwell →
    exec (.quenchRecovery t) s = .next (s.at t)) ∧
  (∀ (c : Nat) (s : State), ∃ tr, (startTrans .standby c none s).hth.trans = some tr ∧ tr.target = .standby ∧
    tr.cause = c ∧ tr.start = s.hth.pwr)

/-! ## Transports and requests -/

/-- A packet on quad SPI (R82-R84): in a state that hears it, WRITE_PACKET with RX_BUSY low takes the packet in, with
RX_BUSY high drops it with HST_SPI_OVERRUN, and another command code raises HST_FRAMING_ERR. How long RX_BUSY then
holds is a free value (log 23). On every transport a packet that is whole and whose CRC is right goes to the request
checks (R63), and one that passes them joins the waiting requests. Reading on quad SPI (R83, R85): READ_REPLY clocks
the oldest reply out, which leaves the queue when it is read to its end, and zeros when none waits; READ_STATUS
gives the status byte and changes no reply. -/
def Obligations.SpiPacketsAndReplies : Prop :=
  (∀ (t : Time) (b : List Byte) (s : State), hearthHears 3 s = true → rxBusy (s.at t) = false →
    ∃ d ≤ 200 * us, exec (.spiWritePacket t 0x02 b) s = .next (packetIn .spi b { s.at t with
      free := s.free + 1, hth := { s.hth with rcRun := true, lastActivity := max s.now t },
      hst := { s.hst with spiBusyUntil := some (max s.now t + d) } })) ∧
  (∀ (t : Time) (b : List Byte) (s : State), hearthHears 3 s = true → rxBusy (s.at t) = true →
    exec (.spiWritePacket t 0x02 b) s = .next (raise evHstSpiOverrun 0 (wakeHearth (s.at t)))) ∧
  (∀ (t : Time) (c : Nat) (b : List Byte) (s : State), hearthHears 3 s = true → c ≠ 0x02 → c ≠ 0x0B → c ≠ 0x05 →
    exec (.spiWritePacket t c b) s = .next (raise evHstFramingErr 0 (wakeHearth (s.at t)))) ∧
  (∀ (p : Port) (b : List Byte) (s : State), byteAt b 0 = 0xA5 → b.length = 10 + le16 b 4 → le16 b 4 ≤ portLimit p →
    crc32c (b.take (6 + le16 b 4)) = leNat (slice b (6 + le16 b 4) 4) →
    packetIn p b s = arrive { port := p, opcode := byteAt b 1, tag := b.getD 2 0, flags := b.getD 3 0,
                              payload := slice b 6 (le16 b 4), crc := leNat (slice b (6 + le16 b 4) 4),
                              at' := s.now } s) ∧
  (∀ (rq : Req) (s : State), flagCheck s rq = none → opcodes.contains rq.opcode = true → lenOk rq = true →
    keptReply rq s = none → s.hst.outst = [] → longBlocked s rq = false → admission s rq = none →
    arrive rq s = enqueue rq s) ∧
  (∀ (t : Time) (n : Nat) (b : List Byte) (q : List (List Byte)) (s : State), hearthHears 3 s = true →
    s.hst.spiReplies = b :: q → b.length ≤ n →
    exec (.spiReadReply t n) s = .next { s.at t with
      hth := { s.hth with rcRun := true, lastActivity := max s.now t },
      hst := { s.hst with spiOut := b ++ List.replicate (n - b.length) 0, spiReplies := q } }) ∧
  (∀ (t : Time) (n : Nat) (b : List Byte) (q : List (List Byte)) (s : State), hearthHears 3 s = true →
    s.hst.spiReplies = b :: q → n < b.length →
    exec (.spiReadReply t n) s = .next { s.at t with
      hth := { s.hth with rcRun := true, lastActivity := max s.now t },
      hst := { s.hst with spiOut := b.take n } }) ∧
  (∀ (t : Time) (n : Nat) (s : State), hearthHears 3 s = true → s.hst.spiReplies = [] →
    exec (.spiReadReply t n) s = .next { s.at t with
      hth := { s.hth with rcRun := true, lastActivity := max s.now t },
      hst := { s.hst with spiOut := List.replicate n 0 } }) ∧
  (∀ (t : Time) (s : State), hearthHears 3 s = true →
    ∃ d : Byte, exec (.spiReadStatus t) s = .next { s.at t with
        hth := { s.hth with rcRun := true, lastActivity := max s.now t }, hst := { s.hst with spiOut := [d] } } ∧
      d.toNat = spiStatus (s.at t) % 256)

/-- The PCIe link (R34, R567): it comes up once its time has come, outside SLEEP and STANDBY and on no way there, with
the HOST PLL locked, at the width and rate trained; the vectors of groups that hold a latched MSI-X source are sent,
or fall pending while they are masked (R88). The PCIe mailbox (R86-R88): a doorbell on a free slot sets its BUSY bit
and takes the packet in; on a slot that is busy or done it sets ERR and raises HST_MBX_ERR, a busy slot keeping its
bytes; MBX_STATUS clears the DONE and ERR bits written 1, but for those that hardware sets in the same cycle (R6);
with the link down nothing happens. -/
def Obligations.MailboxAndLink : Prop :=
  (∀ (t d : Time) (g w : Nat) (s : State), s.hst.linkDue = some d → d ≤ t → s.fastUp = true → s.hth.pwr ≠ .standby →
    (∀ q, s.hth.trans = some q → q.target ≠ .standby ∧ q.target ≠ .sleep) →
    (s.hth.trans = none → s.hth.pwr ≠ .sleep) → s.tng.pll[(3 : Fin 4)].locked = true → s.hst.linkUp = false →
    exec (.pcieLinkUp t g w) s = .next { s.at t with
      hst := { s.hst with linkUp := true, linkGen := g % 16, linkWidth := w % 16, linkDue := none },
      evt := s.evt.msixGroups.foldl (fun e g => e.msixSend g) s.evt }) ∧
  (∀ (g : Nat) (e : Evt), e.msixSend g = if e.msixMask.getLsbD g = true
    then { e with msixPend := e.msixPend ||| BitVec.ofNat 20 (2 ^ g) } else { e with msix := g :: e.msix }) ∧
  (∀ (t : Time) (g w : Nat) (s : State), s.hth.pwr = .standby → exec (.pcieLinkUp t g w) s = .next (s.at t)) ∧
  (∀ (t : Time) (k : Fin 4) (b : List Byte) (s : State), s.hst.linkUp = true → b.length = 4106 →
    (s.hst.mbxBusy ||| s.hst.mbxDone) &&& BitVec.ofNat 4 (2 ^ k.val) = 0 →
    exec (.mbxDoorbell t (BitVec.ofNat 32 k.val) b) s = .next (packetIn (.mbx k) (b.take (10 + le16 b 4)) { s.at t with
      hst := { s.hst with mbxBusy := s.hst.mbxBusy ||| BitVec.ofNat 4 (2 ^ k.val), mbxReq := upd s.hst.mbxReq k b } })) ∧
  (∀ (t : Time) (k : Fin 4) (b : List Byte) (s : State), s.hst.linkUp = true →
    (s.hst.mbxBusy ||| s.hst.mbxDone) &&& BitVec.ofNat 4 (2 ^ k.val) ≠ 0 →
    exec (.mbxDoorbell t (BitVec.ofNat 32 k.val) b) s = .next (raise evHstMbxErr (2 ^ k.val) { s.at t with
      hst := { s.hst with
        mbxErr := s.hst.mbxErr ||| BitVec.ofNat 4 (2 ^ k.val),
        mbxErrAt := upd s.hst.mbxErrAt k (some (max s.now t)),
        mbxReq := if s.hst.mbxBusy &&& BitVec.ofNat 4 (2 ^ k.val) = 0 then upd s.hst.mbxReq k b
          else s.hst.mbxReq } })) ∧
  (∀ (t : Time) (v : Word) (s : State), s.hst.linkUp = true →
    ∃ d e, exec (.mbxStatusClear t v) s = .next { s.at t with hst := { s.hst with mbxDone := d, mbxErr := e } } ∧
      ∀ i : Fin 4, d.getLsbD i.val = (s.hst.mbxDone.getLsbD i.val &&
          (!v.getLsbD (16 + i.val) || s.hst.mbxDoneAt[i] == some (max s.now t))) ∧
        e.getLsbD i.val = (s.hst.mbxErr.getLsbD i.val &&
          (!v.getLsbD (24 + i.val) || s.hst.mbxErrAt[i] == some (max s.now t)))) ∧
  (∀ (t : Time) (v : Word) (b : List Byte) (s : State), s.hst.linkUp = false →
    exec (.mbxDoorbell t v b) s = .next (s.at t) ∧ exec (.mbxStatusClear t v) s = .next (s.at t))

/-- CAN FD (R89-R93): a single-frame packet on the command identifier, with no packet open, goes to the request checks
with its padding dropped, out of a receive buffer of 16 frames; a reassembly that has waited more than 10 ms is
abandoned; bus-off raises HST_CAN_BUSOFF, keeps the queues and stops sending until the recovery. Whether the
controller is error-passive is a free value (log 24). -/
def Obligations.CanFdFrames : Prop :=
  (∀ (t : Time) (b : List Byte) (s : State), hearthHears 2 s = true → s.hst.busOff = false →
    s.hth.can[(1 : Fin 4)] ≠ s.hth.can[(3 : Fin 4)] → s.hst.reCmd = {} → s.hst.canRx = [] → 6 ≤ b.length → byteAt b 0 = 0xA5 →
    10 + le16 b 4 ≤ b.length → ∃ p,
    exec (.canFrameReceive t s.hth.can[(3 : Fin 4)] true (0xC0 :: b)) s
      = .next (packetIn .canCmd (b.take (10 + le16 b 4)) { s.at t with
          free := s.free + 1, hth := { s.hth with rcRun := true, lastActivity := max s.now t },
          hst := { s.hst with errPassive := p, canRx := [], reCmd := {} } })) ∧
  (∀ (f : CanFrame) (s : State), (canBuffer f s).hst.canRx = if s.hst.canRx.length < 16 then s.hst.canRx ++ [f]
    else s.hst.canRx) ∧
  (∀ (t : Time) (x : Bool) (s : State), (reasm x s).opened = true → (reasm x s).last + 10 * ms < t →
    exec (.canReassemblyTimeout t x) s = .next (abandon x (s.at t))) ∧
  (∀ (t : Time) (s : State), s.hst.busOff = true →
    ∃ p, exec (.canFrameSent t) s = .next { s.at t with free := s.free + 1, hst := { s.hst with errPassive := p } }) ∧
  (∀ (t : Time) (f : List Rec) (s : State), s.hst.busOff = false → s.hst.canWire = .event →
    s.evt.canFrames = [f] → s.hst.canSafetyTx = [] → s.hst.canCmdTx = [] →
    ∃ p, exec (.canFrameSent t) s = .next { s.at t with
      free := s.free + 1, evt := { s.evt with canFrames := [] },
      hst := { s.hst with
        errPassive := p, rotCan := 0, canWire := .none,
        canOut := (s.hth.can[(5 : Fin 6)], eventFrame f) :: s.hst.canOut } }) ∧
  (∀ (t : Time) (s : State), s.hth.boot ≠ .hold →
    ∃ p, exec (.canBusOff t) s = .next (raise evHstCanBusoff 0 { s.at t with
      free := s.free + 1, hst := { s.hst with errPassive := p, busOff := true, canWire := .none } })) ∧
  (∀ (t : Time) (s : State), ∃ p, exec (.canBusOffRecovery t) s = .next { s.at t with
      free := s.free + 1, hst := { s.hst with errPassive := p, busOff := false } })

/-- The safety channel goes first (R75): while a safety-channel request waits, the interpreter grants one of those;
nothing is granted on a transport that waits for a forwarded request (R73). Commands may not run twice, nor unheard
(R72, R73): a row of an opcode whose request waits behind another one, bears another opcode, or meets a device in
reset hold changes nothing but time. A request that the power state or the life cycle refuses (R63 steps 9, 10) is
answered with that status and an empty payload, and its command does not run. Kept replies and forwarded requests
(R72, R80): a reply kept for 1 s leaves, a younger one stays; a forwarded request of one device that is due is
answered TIMEOUT and leaves; one not yet due stays. -/
def Obligations.RequestQueueDiscipline : Prop :=
  (∀ (h : Hst) (r : Req), r ∈ h.requests → rqSafety r = true →
    ∃ g, granted h = some g ∧ g ∈ h.requests ∧ rqSafety g = true) ∧
  (∀ (s : State) (g : Req), grantedNow s = some g → g ∈ s.hst.requests ∧ transportWaits s g = false) ∧
  (∀ (op : Nat) (body : Req → State → Ans) (rq : Req) (s : State),
     (rq.opcode ≠ op ∨ s.hth.boot = .hold ∨
       (s.hst.requests.contains rq = true ∧ grantedNow s ≠ some rq)) → serve op body rq s = s) ∧
  (∀ (op : Nat) (body : Req → State → Ans) (rq : Req) (st : Status) (s : State), rq.opcode = op → s.hth.boot ≠ .hold →
     s.hst.requests.contains rq = true → grantedNow s = some rq → admission (takeReq rq s) rq = some st →
     serve op body rq s = finishReply rq st [] (takeReq rq s)) ∧
  (∀ (t : Time) (s : State), ∃ l, exec (.replyCacheExpiry t) s = .next { s.at t with hst := { s.hst with kept := l } } ∧
    ∀ k, k ∈ l ↔ k ∈ s.hst.kept ∧ max s.now t < k.at' + sec) ∧
  (∀ (t : Time) (s : State), (∀ f ∈ s.brg.fwds, max s.now t < f.due) → exec (.forwardTimeout t) s = .next (s.at t)) ∧
  (∀ (t : Time) (f : Fwd) (n : Nat) (s : State), s.brg.fwds = [f] → f.due ≤ t → f.waiting = [n] → f.status = [] → n < 8 →
    f.payload = [] → f.riders = [] → f.rq.opcode ≠ 0x38 → rqTarget f.rq ≠ 15 →
    exec (.forwardTimeout t) s
      = .next (finishReply f.rq .timeout [] { s.at t with brg := { s.brg with fwds := [] } }))

/-- NOP (R496) has an empty payload, replies OK with an empty payload and changes nothing else: only its request leaves
and its reply joins, and the Anvil with its owner timer, OTP and the Hearth stand, but for CAN FD parameters that
waited for a reply which the new one displaces (R89, R92). -/
def Obligations.NopChangesNothing : Prop :=
  (∀ (t : Time) (rq : Req) (s : State), serves 0x00 rq (s.at t) = true →
    exec (.nop t rq) s = .next (finishReply rq .ok [] (takeReq rq (s.at t)))) ∧
  (∀ rq : Req, rq.opcode = 0x00 → (lenOk rq = true ↔ rq.payload = [])) ∧
  (∀ (rq : Req) (st : Status) (pl : List Byte) (s : State), (finishReply rq st pl (takeReq rq s)).anv = s.anv ∧
    (finishReply rq st pl (takeReq rq s)).otp = s.otp ∧
    { (finishReply rq st pl (takeReq rq s)).hth with can := s.hth.can } = s.hth)

/-- STATUS (R498) changes nothing and replies with 16 bytes. How an answer leaves on quad SPI (R60, R66, R71, R72): for
a request with no outstanding copy, whose flags ask for a reply or which fails, with no records waiting to
piggyback, an answer other than PENDING ends the tag, is kept and joins the reply queue; a request that wants no
reply and succeeds adds no reply. -/
def Obligations.StatusAndAnswers : Prop :=
  (∀ (t : Time) (rq : Req) (s : State), serves 0x02 rq (s.at t) = true →
    exec (.status t rq) s = .next (finishReply rq .ok (statusReply (takeReq rq (s.at t))) (takeReq rq (s.at t)))) ∧
  (∀ s : State, (statusReply s).length = 16) ∧
  (∀ (rq : Req) (st : Status) (pl : List Byte) (s : State), rq.port = .spi → st ≠ .pending → wantsReply rq st = true →
    reqOutst rq s.hst = none → (s.evt.recs.filter fun r => r.piggy) = [] → s.hst.spiReplies.length < 8 →
    ∃ k, finishReply rq st pl s = { s with hst := { s.hst with
      outst := dropOutst .spi rq.tag s.hst.outst, kept := keepReply s.hst.kept k,
      spiReplies := s.hst.spiReplies ++ [replyPacket rq.opcode rq.tag st.code pl] } }) ∧
  (∀ (rq : Req) (pl : List Byte) (s : State), bit rq.flags.toNat 0 = false → rq.port ≠ .brugo →
    (finishReply rq .ok pl s).hst.spiReplies = s.hst.spiReplies ∧
    (finishReply rq .ok pl s).evt = s.evt) ∧
  (∀ (rq : Req) (pl : List Byte) (s : State), reqKey rq ∈ (finishReply rq .pending pl s).hst.pend)

/-! ## Events -/

/-- EVENT_READ, EVENT_CLEAR and EVENT_ROUTE (R500-R502): a read returns the oldest records and clears nothing; a clear
or a route with every entry accepted applies them all; with a refused entry nothing changes and its index is
returned. -/
def Obligations.EventCommands : Prop :=
  (∀ (t : Time) (rq : Req) (s : State), serves 0x04 rq (s.at t) = true → 1 ≤ byteAt rq.payload 0 →
    byteAt rq.payload 0 ≤ 127 → byteAt rq.payload 1 = 0 →
    ∃ l, exec (.eventRead t rq) s = .next (finishReply rq .ok (leBytes 1 l.length ++ (l.map (recBytes false)).flatten)
      (takeReq rq (s.at t))) ∧ l <+: s.evt.recs ∧ l.length ≤ byteAt rq.payload 0) ∧
  (∀ (t : Time) (rq : Req) (s : State), serves 0x05 rq (s.at t) = true → rq.payload.length = 2 →
    le16 rq.payload 0 < 1024 → evDefined (le16 rq.payload 0) = true →
    exec (.eventClear t rq) s = .next (finishReply rq .ok [] { takeReq rq (s.at t) with
      evt := s.evt.clear (max s.now t) (le16 rq.payload 0) })) ∧
  (∀ (t : Time) (rq : Req) (s : State), serves 0x06 rq (s.at t) = true → rq.payload.length = 4 →
    routeRefused (routeEntry rq.payload 0) = none →
    exec (.eventRoute t rq) s = .next (finishReply rq .ok [] { takeReq rq (s.at t) with
      evt := routeOne s.evt (routeEntry rq.payload 0) })) ∧
  (∀ (t : Time) (rq : Req) (s : State) (st : Status), serves 0x06 rq (s.at t) = true → rq.payload.length = 4 →
    routeRefused (routeEntry rq.payload 0) = some st →
    exec (.eventRoute t rq) s = .next (finishReply rq st [0] (takeReq rq (s.at t)))) ∧
  (∀ (id e r : Nat), evSev id = some 3 → (e = 0 ∨ bit r 0 = false) → routeRefused (id, e, r) = some .badParam)

/-- Latching (R536, R537): a source that is not enabled leaves no record; an enabled one that is not latched leaves one
record of its ID, with its severity, DETAIL and a count; raising changes nothing but the event block.
EVENT_GATHER_EXPIRY (R543): when the gather time of event frames has passed, the pending records are queued as a
frame; before, nothing changes. EVT_LATCHED_CLEAR (R539, R547): it clears the latched sources that its mask names in
one group, but for those whose condition holds the record, and no record of another group. -/
def Obligations.EventsLatchAndClear : Prop :=
  (∀ (id d : Nat) (s : State), s.evt.enabled id = false → raise id d s = s) ∧
  (∀ (id d : Nat) (s : State), ∃ e, raise id d s = { s with evt := e }) ∧
  (∀ (id d : Nat) (s : State), s.evt.enabled id = true → s.evt.latched id = false → id ≠ evHstCmdDone →
    id ≠ evEvtCanDropped →
    ∃ r ∈ (raise id d s).evt.recs, r.id = id ∧ r.detail = d % 2 ^ 24 ∧ r.sev = (evSev id).getD 0) ∧
  (∀ (t d : Time) (s : State), s.evt.gatherDue = some d → d ≤ t → s.evt.pushFrame.2 = false →
    exec (.eventGatherExpiry t) s = .next { s.at t with evt := s.evt.pushFrame.1 }) ∧
  (∀ (t d : Time) (s : State), s.evt.gatherDue = some d → max s.now t < d →
    exec (.eventGatherExpiry t) s = .next (s.at t)) ∧
  (∀ (t : Time) (g : Nat) (v : Word) (s : State), rowOpen s = true → 1 ≤ g → g ≤ 0x13 → within v (groupMask g) = true →
    exec (.evtLatchedClear t g v) s
      = .next { s.at t with last := .ok, evt := s.evt.clearMask (max s.now t) g v.toNat }) ∧
  (∀ (t : Time) (g : Nat) (v : Word) (s : State), rowOpen s = true → 1 ≤ g → g ≤ 0x13 → within v (groupMask g) = false →
    exec (.evtLatchedClear t g v) s = .next { s.at t with last := .badParam }) ∧
  (∀ (t : Time) (g : Nat) (v : Word) (s : State), rowOpen s = true → 0x13 < g →
    exec (.evtLatchedClear t g v) s = .next { s.at t with last := .badParam }) ∧
  (∀ (e : Evt) (t : Time) (g m : Nat) (r : Rec), r ∈ (e.clearMask t g m).recs ↔
    r ∈ e.recs ∧ (r.id / 32 ≠ g ∨ bit m (r.id % 32) = false ∨ r.stays t = true))

/-- FAULT_N (R545): it is low while the reset hold, SAFE or QUENCH, a condition of R145 marked Yes, a lamp function off
or a latched SAFETY source holds, and high otherwise; EVT_FAULT_SRC reports which of them hold; enables, routes and
the gather time do not bear on it. -/
def Obligations.FaultSources : Prop :=
  (∀ s : State, faultLow s = true ↔ s.hth.boot = .hold ∨ s.hth.pwr = .safe ∨ s.hth.pwr = .quench ∨
    fallbackHolds s = true ∨ s.mtx.lampOff ≠ 0 ∨ ∃ r ∈ s.evt.recs, r.sev = 3) ∧
  (∀ s : State, ∃ v, paramValue 0x1303 s = some v ∧
    (bit v 0 = true ↔ s.hth.boot = .hold) ∧
    (bit v 1 = true ↔ s.hth.pwr = .safe ∨ s.hth.pwr = .quench) ∧
    (bit v 2 = true ↔ fallbackHolds s = true) ∧ (bit v 3 = true ↔ s.mtx.lampOff ≠ 0) ∧
    (bit v 4 = true ↔ ∃ r ∈ s.evt.recs, r.sev = 3)) ∧
  (∀ (e x : Evt) (s : State), e.recs = x.recs → faultLow { s with evt := e } = faultLow { s with evt := x })

/-! ## Layers, inputs and commits -/

/-- LAYER_DEFINE writes the whole shadow of one layer and no live descriptor; a descriptor with a field out of range, a
layer above 15 or a reserved byte set is refused with BAD_PARAM and changes nothing (R99, R505). LAYER_SHADOW writes
the groups it names of one layer's shadow: with ALPHA alone, the opacity bits and no other bit; with POSITION alone,
the destination corner and no other bit (R99, R506). -/
def Obligations.LayerDefineAndShadow : Prop :=
  (∀ (t : Time) (rq : Req) (n : Fin 16) (d : Layer) (s : State), serves 0x10 rq (s.at t) = true →
    byteAt rq.payload 0 = n.val → zeroAt rq.payload 1 3 = true → leNat (slice rq.payload 4 32) = d.toNat →
    lyFieldsOk d = true →
    exec (.layerDefine t rq) s = .next (finishReply rq .ok [] { takeReq rq (s.at t) with
      cmp := { s.cmp with shadow := upd s.cmp.shadow n d } })) ∧
  (∀ (t : Time) (rq : Req) (s : State), serves 0x10 rq (s.at t) = true →
    (16 ≤ byteAt rq.payload 0 ∨ zeroAt rq.payload 1 3 = false ∨
      lyFieldsOk (BitVec.ofNat 256 (leNat (slice rq.payload 4 32))) = false) →
    exec (.layerDefine t rq) s = .next (finishReply rq .badParam [] (takeReq rq (s.at t)))) ∧
  (∀ (t : Time) (rq : Req) (n : Fin 16) (s : State), serves 0x11 rq (s.at t) = true → byteAt rq.payload 0 = n.val →
    byteAt rq.payload 1 = 4 → zeroAt rq.payload 2 2 = true → zeroAt rq.payload 17 3 = true →
    lyFieldsOk s.cmp.shadow[n] = true →
    ∃ d, exec (.layerShadow t rq) s = .next (finishReply rq .ok [] { takeReq rq (s.at t) with
        cmp := { s.cmp with shadow := upd s.cmp.shadow n d } }) ∧ lyAlpha d = byteAt rq.payload 16 ∧
      ∀ i < 256, (i < 56 ∨ 64 ≤ i) → d.getLsbD i = s.cmp.shadow[n].getLsbD i) ∧
  (∀ (t : Time) (rq : Req) (n : Fin 16) (s : State), serves 0x11 rq (s.at t) = true → byteAt rq.payload 0 = n.val →
    byteAt rq.payload 1 = 2 → zeroAt rq.payload 2 2 = true → zeroAt rq.payload 17 3 = true →
    le16 rq.payload 12 < 16384 → le16 rq.payload 14 < 16384 → lyFieldsOk s.cmp.shadow[n] = true →
    ∃ d, exec (.layerShadow t rq) s = .next (finishReply rq .ok [] { takeReq rq (s.at t) with
        cmp := { s.cmp with shadow := upd s.cmp.shadow n d } }) ∧
      lyDstX d = le16 rq.payload 12 ∧ lyDstY d = le16 rq.payload 14 ∧
      ∀ i < 256, (i < 92 ∨ 120 ≤ i) → d.getLsbD i = s.cmp.shadow[n].getLsbD i)

/-- Fences (R116): a write over the link, or by PARAM_WRITE, sets the register of its layer and no other; without a link
nothing reaches the device. The buffer of a layer is ready when the register, written before this cycle, minus the
descriptor's fence is not negative as a signed value. -/
def Obligations.FencesMakeBuffersReady : Prop :=
  (∀ (t : Time) (n : Fin 16) (v : Word) (s : State), s.hst.linkUp = true →
    ∃ x, exec (.cmpFenceWrite t n v) s = .next { s.at t with cmp := x } ∧ x.fence[n] = v ∧
      (∀ m : Fin 16, m ≠ n → x.fence[m] = s.cmp.fence[m]) ∧ x.shadow = s.cmp.shadow ∧ x.live = s.cmp.live ∧
      x.shown = s.cmp.shown ∧ x.release = s.cmp.release ∧ x.notReady = s.cmp.notReady) ∧
  (∀ (n : Fin 16) (v : Word) (s : State),
    ∃ x, paramWrite (0x0440 + n.val) v s = (.ok, { s with cmp := x }) ∧ x.fence[n] = v ∧
      (∀ m : Fin 16, m ≠ n → x.fence[m] = s.cmp.fence[m]) ∧ x.shadow = s.cmp.shadow ∧ x.live = s.cmp.live) ∧
  (∀ (n : Fin 16) (d : Layer) (s : State), lyIsDp d = false → s.cmp.fenceAt[n] < s.now →
    (layerReady s n d = true ↔ 0 ≤ (s.cmp.fence[n] - BitVec.ofNat 32 (lyFence d)).toInt)) ∧
  (∀ (t : Time) (n : Fin 16) (v : Word) (s : State), s.hst.linkUp = false →
    exec (.cmpFenceWrite t n v) s = .next (s.at t)) ∧
  (∀ (v f : Word), fenceReady v f.toNat = true ↔ 0 ≤ (v - f).toInt)

/-- What a layer shows at a frame start (R118): a ready enabled layer shows its buffer, opaque; one that is not ready
counts once, saturating at 65,535, latches CMP_LAYER_NOT_READY, and shows its previous buffer exactly when RETAIN is
set and that buffer has the descriptor's format and size; else it is transparent. -/
def Obligations.NotReadyRule : Prop :=
  (∀ (n : Fin 16) (s : State), lyEnable s.cmp.live[n] = true → layerReady s n s.cmp.live[n] = true →
    (layerFrame n s).cmp.shown[n] = some (shownOf s s.cmp.live[n]) ∧
    (layerFrame n s).cmp.transparent.getLsbD n.val = false ∧
    (layerFrame n s).cmp.notReady = s.cmp.notReady) ∧
  (∀ (n : Fin 16) (s : State), lyEnable s.cmp.live[n] = true → layerReady s n s.cmp.live[n] = false →
    (layerFrame n s).cmp.notReady[n] = satInc 16 s.cmp.notReady[n] ∧
    (layerFrame n s).evt = (raise evCmpLayerNotReady (2 ^ n.val) s).evt ∧
    ((layerFrame n s).cmp.transparent.getLsbD n.val = false ↔
      lyRetain s.cmp.live[n] = true ∧ ∃ b, s.cmp.shown[n] = some b ∧ b.format = (shownOf s s.cmp.live[n]).format ∧
        b.srcW = lySrcW s.cmp.live[n] ∧ b.srcH = lySrcH s.cmp.live[n]) ∧
    (lyRetain s.cmp.live[n] = true → (layerFrame n s).cmp.shown[n] = s.cmp.shown[n])) ∧
  (∀ (n : Fin 16) (s : State), lyEnable s.cmp.live[n] = false →
    (layerFrame n s).cmp.shown[n] = none ∧ (layerFrame n s).cmp.transparent.getLsbD n.val = true)

/-- The DP inputs (R101, R102, R120, R355, R366, R546): a lock takes the stream trained, stored at 4 or 8 bytes per
pixel by its bits per component; one beyond 16.0 GB/s of stored rate is not stored and lost at once. A complete
frame is stored in a frame buffer that no layer shows (which one is the model's choice: log 54) and makes the input
fresh; a frame with a failed write is not complete; a lost link is unlocked; an input without a frame for the stale
limit is stale; each is judged at once. With the fast domains down nothing happens. -/
def Obligations.DpInputs : Prop :=
  (∀ (t : Time) (i : Fin 2) (r w h f : Nat) (c : DpColour) (d : Bool) (s : State), s.fastUp = true →
    w * h * f * dpBytes c ≤ 16000000000 * 1000 →
    exec (.dpLinkLock t i r d w h f c) s = .next (judgeDp i { s.at t with ing := { s.ing with
      dp := updWith s.ing.dp i fun x => { x with
        locked := true, rate := r, dsc := d, w := w, h := h, col := c, tooFast := false } } })) ∧
  (∀ (t : Time) (i : Fin 2) (r w h f : Nat) (c : DpColour) (d : Bool) (s : State), s.fastUp = true →
    16000000000 * 1000 < w * h * f * dpBytes c →
    exec (.dpLinkLock t i r d w h f c) s = .next (raise evIngDpLost (2 ^ i.val) { s.at t with ing := { s.ing with
      dp := updWith s.ing.dp i fun x => { x with
        locked := true, rate := r, dsc := d, w := w, h := h, col := c, tooFast := true, wasReady := false } } })) ∧
  (∀ c : DpColour, dpBytes c = if c.bpc ≤ 10 then 4 else 8) ∧
  (∀ (t : Time) (i : Fin 2) (p : List Nat) (s : State), s.fastUp = true → s.ing.dp[i].locked = true →
    s.ing.dp[i].tooFast = false → s.ing.dp[i].bad = false →
    exec (.dpFrameComplete t ⟨i, p⟩) s = .next (judgeDp i { s.at t with
      grn := s.grn.store (dpAddr i (dpFree s i)) (dpFrameBytes s.ing.dp[i] p),
      ing := { s.ing with dp := updWith s.ing.dp i fun x => { x with
        frameAt := some (max s.now t), stale := false, newest := dpFree s i,
        bufs := upd x.bufs (dpFree s i) (some (x.w, x.col)) } } })) ∧
  (∀ (t : Time) (i : Fin 2) (p : List Nat) (s : State), s.fastUp = true → s.ing.dp[i].locked = true →
    s.ing.dp[i].tooFast = false → s.ing.dp[i].bad = true →
    exec (.dpFrameComplete t ⟨i, p⟩) s = .next { s.at t with ing := { s.ing with
      dp := updWith s.ing.dp i fun x => { x with bad := false } } }) ∧
  (∀ (t : Time) (i : Fin 2) (s : State), s.fastUp = true →
    exec (.dpLinkLoss t i) s = .next (judgeDp i { s.at t with ing := { s.ing with
      dp := updWith s.ing.dp i fun x => { x with locked := false } } })) ∧
  (∀ (t : Time) (i : Fin 2) (a : Time) (s : State), s.fastUp = true → s.ing.dp[i].frameAt = some a →
    a + s.ing.dpStale.toNat * ms ≤ t →
    exec (.dpStaleTimeout t i) s = .next (judgeDp i { s.at t with ing := { s.ing with
      dp := updWith s.ing.dp i fun x => { x with stale := true } } })) ∧
  (∀ (t : Time) (i : Fin 2) (p : List Nat) (s : State), s.fastUp = false →
    exec (.dpFrameComplete t ⟨i, p⟩) s = .next (s.at t) ∧ exec (.dpLinkLoss t i) s = .next (s.at t) ∧
    exec (.dpStaleTimeout t i) s = .next (s.at t)) ∧
  (∀ (i : Fin 2) (s : State), (judgeDp i s).ing.dp[i].wasReady = dpReady s i)

/-- COMMIT (R109, R111-R113, R507): in LIT or READY, with no commit armed and a shadow set that validates, it arms a
snapshot of the shadow, raises SEQ by one and replies with SEQ and the frame it applies at; a failure names its
element and leaves the live set; an armed commit answers BUSY; in STANDBY the command waits as PENDING (R493).
COMMIT_STATUS (R508) changes nothing and replies with CMP_COMMIT_STATE, the apply frame and the last rejection. -/
def Obligations.CommitIsAcceptedAndReported : Prop :=
  (∀ (t : Time) (rq : Req) (s : State), serves 0x12 rq (s.at t) = true → commitPre rq s = none →
    (s.hth.pwr = .lit ∨ s.hth.pwr = .ready) → s.brg.barrier = none → s.cmp.armed = none →
    commitReject (commitFlags rq.payload) (takeReq rq (s.at t)) = none →
    ∃ x, exec (.commit t rq) s = .next (finishReply rq .ok (leBytes 2 x.cmp.seq ++ leBytes 4 x.cmp.applyFrame) x) ∧
      x.cmp.seq = (s.cmp.seq + 1) % 65536 ∧ x.cmp.phase = .armed ∧ x.cmp.live = s.cmp.live ∧
      x.cmp.shadow = s.cmp.shadow ∧ ∃ z, x.cmp.armed = some z ∧ z.layers = s.cmp.shadow ∧ z.canvas = s.cmp.canvasSh ∧
        z.accepted = max s.now t ∧ z.inBarrier = false) ∧
  (∀ (t : Time) (rq : Req) (r : Reject) (s : State), serves 0x12 rq (s.at t) = true → commitPre rq s = none →
    (s.hth.pwr = .lit ∨ s.hth.pwr = .ready) → s.brg.barrier = none → s.cmp.armed = none →
    commitReject (commitFlags rq.payload) (takeReq rq (s.at t)) = some r →
    exec (.commit t rq) s = .next (finishReply rq .commitRejected r.bytes { takeReq rq (s.at t) with
      cmp := { s.cmp with result := 2, rejection := r.bytes } })) ∧
  (∀ (t : Time) (rq : Req) (z : Snapshot) (s : State), serves 0x12 rq (s.at t) = true → commitPre rq s = none →
    (s.hth.pwr = .lit ∨ s.hth.pwr = .ready) → s.brg.barrier = none → s.cmp.armed = some z →
    exec (.commit t rq) s = .next (finishReply rq .busy [] (takeReq rq (s.at t)))) ∧
  (∀ (t : Time) (rq : Req) (s : State), serves 0x12 rq (s.at t) = true → commitPre rq s = none → s.hth.pwr = .standby →
    exec (.commit t rq) s = .next (finishReply rq .pending [] { takeReq rq (s.at t) with
      hst := { (takeReq rq (s.at t)).hst with deferred := s.hst.deferred ++ [rq] } })) ∧
  (∀ (t : Time) (rq : Req) (s : State), serves 0x13 rq (s.at t) = true →
     exec (.commitStatus t rq) s = .next (finishReply rq .ok (leBytes 4 (commitState s) ++ leBytes 4 s.cmp.applyFrame
       ++ s.cmp.rejection ++ s.brg.lastStatuses.map (BitVec.ofNat 8)) (takeReq rq (s.at t))))

/-- FRAME_START (R12, R13, R125): with the fast domains up the frame begins, its count rising by one modulo 2^32 before
an armed commit is judged; with them down nothing happens. When a commit applies (R112, R115): not before 200 us
after its acceptance; at the first frame start from then the snapshot's layers and canvas become the live set, none
stays armed, RESULT reads 1 and CMP_APPLY_FRAME the frame count. -/
def Obligations.CommitAppliesAtAFrameStart : Prop :=
  (∀ (t : Time) (fi : FrameIn) (s : State), s.fastUp = true →
    exec (.frameStart t fi) s = .next (frameStarts fi (s.at t))) ∧
  (∀ (t : Time) (fi : FrameIn) (s : State), s.fastUp = false → exec (.frameStart t fi) s = .next (s.at t)) ∧
  (∀ s : State, (frameCounts s).cmp.frameCount = (s.cmp.frameCount + 1) % 2 ^ 32) ∧
  (∀ (z : Snapshot) (s : State), s.cmp.armed = some z → z.inBarrier = false → s.now < z.accepted + 200 * us →
    commitFrame s = s) ∧
  (∀ (z : Snapshot) (s : State), s.cmp.armed = some z → z.inBarrier = false → z.accepted + 200 * us ≤ s.now →
    (commitFrame s).cmp.live = z.layers ∧ (commitFrame s).cmp.canvas = z.canvas ∧ (commitFrame s).cmp.armed = none ∧
    (commitFrame s).cmp.result = 1 ∧ (commitFrame s).cmp.applyFrame = s.cmp.frameCount ∧
    (commitFrame s).cmp.seq = s.cmp.seq ∧ (commitFrame s).cmp.shadow = s.cmp.shadow)

/-! ## Slots, Sheafs and links -/

/-- The slots of a mirror array (R205, R210, R211): SLOT_EPOCH opens the next slot, none after the dark slot S; in a
slot of a lit engine, LIGHT_WINDOW_OPEN gives light to the slot's own channel only, and none to a dark or empty
entry. A slot that begins is dark until its window opens. A band that has not been sent in full by its deadline
(R207, R223): it and the bands after it go dark in that slot, each counted, and THR_UNDERRUN is raised; one that has
been sent in full leaves the FIFO and nothing else changes; a band already dark is not counted again. -/
def Obligations.SlotsAndLateBands : Prop :=
  (∀ (t : Time) (e : Fin 4) (l : Nat) (s : State), s.fastUp = true → s.isMae e = true →
    s.thr.eng[e].epochs ≤ s.thr.eng[e].s →
    exec (.slotEpoch t e l) s = .next (slotBegins e s.thr.eng[e].epochs l (s.at t))) ∧
  (∀ (t : Time) (e : Fin 4) (l : Nat) (s : State),
    (s.fastUp = false ∨ s.isMae e = false ∨ s.thr.eng[e].s < s.thr.eng[e].epochs) →
    exec (.slotEpoch t e l) s = .next (s.at t)) ∧
  (∀ (t : Time) (e : Fin 4) (x : SheafEntry) (s : State), s.fastUp = true → s.isMae e = true →
    s.frg.eng[e].lit = true → s.thr.eng[e].epochs ≠ 0 → slotEntry s.thr.eng[e].read s.thr.eng[e].slot = some x →
    x.dark = false →
    exec (.lightWindowOpen t e) s = .next (openWindow e x (s.at t))) ∧
  (∀ (t : Time) (e : Fin 4) (s : State), (s.fastUp = false ∨ s.isMae e = false ∨ s.frg.eng[e].lit = false ∨
      s.thr.eng[e].epochs = 0 ∨ slotEntry s.thr.eng[e].read s.thr.eng[e].slot = none) →
    exec (.lightWindowOpen t e) s = .next (s.at t)) ∧
  (∀ (e : Fin 4) (x : SheafEntry) (s : State), focusUsed s e = false → litWeight s e s.thr.eng[e].read x ≠ 0 →
    (slotPulse s e (litWeight s e s.thr.eng[e].read x) (windowTaps s e)
      (chan e x.primary)).len ≠ 0 →
    ∀ c, c ≠ chan e x.primary → (openWindow e x s).frg.ch[c] = s.frg.ch[c]) ∧
  (∀ (e : Fin 4) (n l : Nat) (s : State), (slotBegins e n l s).thr.eng[e].slot = n ∧
    (slotBegins e n l s).thr.eng[e].epochs = n + 1 ∧ (slotBegins e n l s).thr.eng[e].lit = false) ∧
  (∀ (t : Time) (e : Fin 4) (k : Fin 16) (f : Nat) (s : State), s.fastUp = true → s.isMae e = true →
    transmits s e = true → s.thr.eng[e].epochs ≠ 0 → max s.now t < s.thr.eng[e].epochAt + 500 * k.val →
    slotZero s.thr.eng[e].read s.thr.eng[e].slot = false → s.thr.eng[e].darkBands.contains k.val = false →
    bandFlits ((s.eng[e].h * (k.val + 1) / 16 - s.eng[e].h * k.val / 16) * rowBytes s.eng[e].w) ≤ f →
    exec (.bandLoadDeadline t e k f) s = .next { s.at t with thr := { s.thr with
      eng := updWith s.thr.eng e fun x => { x with fifo := x.fifo.filter fun y => y.1 != k.val } } }) ∧
  (∀ (t : Time) (e : Fin 4) (k : Fin 16) (f : Nat) (s : State), s.fastUp = true → s.isMae e = true →
    transmits s e = true → s.thr.eng[e].epochs ≠ 0 → max s.now t < s.thr.eng[e].epochAt + 500 * k.val →
    slotZero s.thr.eng[e].read s.thr.eng[e].slot = false → s.thr.eng[e].darkBands.contains k.val = false →
    f < bandFlits ((s.eng[e].h * (k.val + 1) / 16 - s.eng[e].h * k.val / 16) * rowBytes s.eng[e].w) →
    exec (.bandLoadDeadline t e k f) s = .next (raise evThrUnderrun
      (k.val * 2 ^ 11 + slotAfter s.thr.eng[e] s.thr.eng[e].slot 0 * 4 + e.val) (blankBands e .now k.val f (s.at t)))) ∧
  (∀ (t : Time) (e : Fin 4) (k : Fin 16) (f : Nat) (s : State), max s.now t < s.thr.eng[e].epochAt + 500 * k.val →
    s.thr.eng[e].darkBands.contains k.val = true → exec (.bandLoadDeadline t e k f) s = .next (s.at t)) ∧
  (∀ (e : Fin 4) (k f : Nat) (s : State), k < 16 →
    ∀ j, (j ∈ (blankBands e .now k f s).thr.eng[e].darkBands ↔ j ∈ s.thr.eng[e].darkBands ∨ (k ≤ j ∧ j < 16)))

/-- The corner turn and the recompilation of a Sheaf (R186, R202): the next half of 8 lines of a composing mirror array
is turned and counted, a half out of order is not; a recompilation that ends lays its map down for the next frame
starts. SHEAF_LOAD (R191, R213, R512): for a mirror array in READY, LIT or SAFE with no armed commit naming its
Sheaf, the compiled Sheaf goes into the bank that is not live and the reply reports it; for another kind of engine
WRONG_STATE. THR_SHEAF_DATA reads its low word first; the read of its high word moves the entry number on. -/
def Obligations.CornerTurnAndSheafLoad : Prop :=
  (∀ (t : Time) (e : Fin 4) (s : State), composing (s.at t) = true → s.hth.composed ≠ 0 → s.isMae e = true →
    8 * s.thr.eng[e].halves < s.eng[e].h →
    ∃ x, exec (.cornerTurnHalfComplete t e s.thr.eng[e].halves) s = .next x ∧
      x.thr.eng[e].halves = s.thr.eng[e].halves + 1) ∧
  (∀ (t : Time) (e : Fin 4) (h : Nat) (s : State), h ≠ s.thr.eng[e].halves →
    exec (.cornerTurnHalfComplete t e h) s = .next (s.at t)) ∧
  (∀ (t : Time) (e : Fin 4) (s : State), s.thr.eng[e].recompiling = none →
    exec (.sheafRecompileComplete t e) s = .next (s.at t)) ∧
  (∀ (t : Time) (e : Fin 4) (n u r : Nat) (b : Bool) (s : State), s.thr.eng[e].recompiling = some (n, u, r, b) →
    ∃ x, exec (.sheafRecompileComplete t e) s = .next { s.at t with thr := { s.thr with
        eng := updWith s.thr.eng e fun k => { k with recompiling := none, steps := k.steps ++ [x] } } } ∧
      x.writeAt = s.cmp.frameCount + 1 ∧ x.readAt = (if b then s.cmp.frameCount + 2 else s.cmp.frameCount + 1) ∧
      x.s = n ∧ x.u = u ∧ x.rate = r) ∧
  (∀ (t : Time) (rq : Req) (e : Fin 4) (s : State), serves 0x20 rq (s.at t) = true → sheafLoadPre rq s = none →
    byteAt rq.payload 0 = e.val → s.hth.pwr ≠ .standby → s.isMae e = true → armedNames s (·.sheaf) e = false →
    ∃ y, exec (.sheafLoad t rq) s = .next (finishReply rq .ok (leBytes 4 (sheafReport y)) { takeReq rq (s.at t) with
        thr := { s.thr with eng := updWith s.thr.eng e fun k => { k with
          banks := upd k.banks (other k.live) ⟨true, slice rq.payload 4 32, y⟩ } } }) ∧
      y = compileSheaf {} (slice rq.payload 4 32) (depthsOf s s.clw.depths e) s.thr.eng[e].s s.thr.eng[e].u) ∧
  (∀ (t : Time) (rq : Req) (e : Fin 4) (s : State), serves 0x20 rq (s.at t) = true → sheafLoadPre rq s = none →
    byteAt rq.payload 0 = e.val → s.hth.pwr ≠ .standby → s.isMae e = false →
    exec (.sheafLoad t rq) s = .next (finishReply rq .wrongState [] (takeReq rq (s.at t)))) ∧
  (∀ (t : Time) (s : State), inSRL s.hth.pwr = true →
    ∃ w, exec (.thrSheafDataHiRead t) s = .next { s.at t with
      last := .ok, readData := toW (selEntry s / 2 ^ 32), thr := { s.thr with sel := w } } ∧
      ∀ i, 9 ≤ i → w.getLsbD i = s.thr.sel.getLsbD i)

/-- What the lanes of an array carry (R217-R219, R221, R226, R229, R232): flits of 100 bytes that go to the lanes in
turn, each lane counting FSEQ modulo 32; in each slot the plan of the slot, with the band-sync pulse SYNC_ADV before
its epoch, 32 ns long in slot 0, else 16 ns: nothing where the lanes do not run, ALIGN and idle-blank flits in
bring-up, idle-blank flits of an engine that is not lit, else PLANE_BEGIN first. The flit that ends a band is
DATA_LAST; one ALIGN leaves in the dark slot of a lit engine. -/
def Obligations.LanesCarryFlits : Prop :=
  (∀ (l f : Nat) (c : List SwtCmd), (flitStream l f c).length = sentFlits l c) ∧
  (∀ (l f i : Nat) (c : List SwtCmd) (x : Nat × List Byte), 0 < l → (flitStream l f c)[i]? = some x →
    x.1 = (f + i) % l ∧ x.2.length = 100 ∧ byteAt x.2 0 % 32 = (f + i) / l % 32) ∧
  (∀ (l n : Nat) (c : List SwtCmd), sentFlits l (takeFlits l n c) ≤ n) ∧
  (∀ (e : Fin 4) (n : Nat) (s : State), (lanesSlot e n s).swt[e].sent = slotPlan s e n ∧
    (lanesSlot e n s).swt[e].sentWas = s.swt[e].sent ∧
    (s.swt[e].link ≠ .off → (lanesSlot e n s).swt[e].sync
      = some (s.now - wfl s.swt[e].config 16 14, if n = 0 then 128 else 64)) ∧
    (s.swt[e].link = .off → (lanesSlot e n s).swt[e].sync = none)) ∧
  (∀ (e : Fin 4) (n : Nat) (s : State), lanesRun s e = false → slotPlan s e n = []) ∧
  (∀ (e : Fin 4) (n : Nat) (s : State), lanesRun s e = true → s.swt[e].link = .training →
    ∃ r, slotPlan s e n = [.train s.swt[e].aligns r]) ∧
  (∀ (e : Fin 4) (n : Nat) (s : State), lanesRun s e = true → s.swt[e].link ≠ .training → s.swt[e].link ≠ .active →
    ∃ r, slotPlan s e n = [.idle true r]) ∧
  (∀ (e : Fin 4) (n : Nat) (s : State), s.swt[e].link = .active → lanesRun s e = true → n < s.thr.eng[e].s →
    (slotPlan s e n).head? = some (.planeBegin (n + 1) (frameParity s 0) (nextEntry s e n).isNone)) ∧
  (∀ (l i m k n : Nat) (d : List Byte),
    (SwtCmd.flit l i m (.band k d n)).1 = if i + 1 = bandFlits d.length then 2 else 0) ∧
  (∀ (e : Fin 4) (s : State), s.swt[e].link = .active → lanesRun s e = true →
    .align s.swt[e].aligns 1 ∈ slotPlan s e s.thr.eng[e].s)

/-- Reference edges (R334, R335, R337, R338): an edge reaches its aligner only with the fast domains up, and the frame
aligner only while FRAME_REF_IN is selected and the cold start has ended (R50); a locked aligner ignores an edge
outside a sixteenth of the period; a locked aligner without an edge for one and a half periods coasts, and a second
later the holdover is long. TIMING_PROFILE (R515, R345): RATE on a device without workers sets the ramp to the new
rate, refused when its checks refuse it; ENGINE sets the kind and size of an engine; an unknown OP is refused with
BAD_PARAM (the model's choice: log 19). -/
def Obligations.ReferencesAndTimingProfiles : Prop :=
  (∀ (t : Time) (a : Aligner) (s : State), s.fastUp = true → (a = .frame → wfl s.tng.config 30 2 = 1 ∧ coldStarts s = false) →
    exec (.referenceEdge t a) s = .next (refEdge a (s.at t))) ∧
  (∀ (t : Time) (a : Aligner) (s : State), (s.fastUp = false ∨ (a = .frame ∧ (wfl s.tng.config 30 2 ≠ 1 ∨ coldStarts s = true))) →
    exec (.referenceEdge t a) s = .next (s.at t)) ∧
  (∀ (a : Aligner) (p : Time) (s : State), (aligner a s).st = .locked → (aligner a s).edge = some p →
    edgeFits (refPeriod a s) (s.now - p) 16 = false → refEdge a s = edgeSpurious a s) ∧
  (∀ (t p : Time) (s : State), s.fastUp = true → s.tng.frm.st = .locked → s.tng.frm.edge = some p →
    3 * refPeriod .frame (s.at t) ≤ 2 * (max s.now t - p) →
    exec (.referenceLoss t .frame) s = .next (loseRef .frame (s.at t))) ∧
  (∀ (t : Time) (a : Aligner) (s : State), hasRef (aligner a (s.at t)) = false →
    exec (.referenceLoss t a) s = .next (s.at t)) ∧
  (∀ (t d : Time) (s : State), s.tng.frm.lostAt = some d → s.tng.frm.st = .coasting → d + sec ≤ t →
    s.tng.frm.long = false →
    exec (.holdoverLongExpiry t .frame) s = .next (raise evTngHoldoverLong (alNo .frame) { s.at t with
      tng := { s.tng with frm := { s.tng.frm with long := true } } })) ∧
  (∀ (t : Time) (rq : Req) (s : State), serves 0x38 rq (s.at t) = true → byteAt rq.payload 0 = 1 → rateFieldsOk rq.payload = true →
    s.hth.role ≠ 1 → rateRefused (takeReq rq (s.at t)) false (le32 rq.payload 4) = none →
    exec (.timingProfile t rq) s = .next (finishReply rq .ok [] (rateAccept (byteAt rq.payload 1) (le16 rq.payload 2)
      (le32 rq.payload 4) none (takeReq rq (s.at t))))) ∧
  (∀ (p n r : Nat) (s : State), s.tng.frameAt + s.tng.framePeriod < s.now + 200 * us →
    rateAccept p n r none s = { s with tng := { s.tng with bellows := some {
      f1 := s.tng.rate, f2 := r, profile := p, n := n, j := 0, accepted := s.now, applyAt := none } } }) ∧
  (∀ (t : Time) (rq : Req) (e : Fin 4) (s : State), serves 0x38 rq (s.at t) = true → byteAt rq.payload 0 = 0 →
    byteAt rq.payload 1 = e.val → byteAt rq.payload 2 = 0 → zeroAt rq.payload 3 1 = true →
    engineRefused (takeReq rq (s.at t)) e {} = none →
    exec (.timingProfile t rq) s = .next (finishReply rq .ok [] (engineSet e {} (takeReq rq (s.at t))))) ∧
  (∀ (t : Time) (rq : Req) (s : State), serves 0x38 rq (s.at t) = true → 3 ≤ byteAt rq.payload 0 →
    exec (.timingProfile t rq) s = .next (finishReply rq .badParam [] (takeReq rq (s.at t))))

/-- The PLLs (R347-R349): a lost lock puts a running PLL into bypass; an attempt that ends without lock is counted, the
third leads to SAFE with TNG_PLL_FAIL; one that locks ends the search and leaves bypass at a frame start; in SAFE
one attempt runs for each PLL. -/
def Obligations.PllsAreLostAndLock : Prop :=
  (∀ (t : Time) (p : Fin 4) (s : State), s.fastUp = true →
    exec (.pllLossOfLock t p) s = .next (pllLoss p (s.at t))) ∧
  (∀ (p : Fin 4) (s : State), s.tng.pll[p].off = false → s.tng.pll[p].locked = true → s.tng.pll[p].relockAt = none →
    (pllLoss p s).tng.pll[p].locked = false ∧ (pllLoss p s).tng.pll[p].bypass = true ∧
    (pllLoss p s).tng.pll[p].attempts = 0) ∧
  (∀ (t : Time) (p : Fin 4) (s : State), s.tng.pll[p].lost = true → s.tng.pll[p].off = false →
    s.tng.pll[p].lbist = false → s.tng.pll[p].attempts < 2 →
    exec (.pllRelockAttemptExpiry t p) s = .next { s.at t with tng := { s.tng with
      pll := updWith s.tng.pll p fun x => { x with attempts := x.attempts + 1 } } }) ∧
  (∀ (t : Time) (p : Fin 4) (s : State), s.tng.pll[p].lost = true → s.tng.pll[p].off = false →
    s.tng.pll[p].lbist = false → s.tng.pll[p].attempts = 2 →
    exec (.pllRelockAttemptExpiry t p) s = .next (pllFailed p { s.at t with tng := { s.tng with
      pll := updWith s.tng.pll p fun x => { x with attempts := x.attempts + 1 } } })) ∧
  (∀ (t : Time) (p : Fin 4) (b : Bool) (s : State), s.tng.pll[p].lost = true → s.tng.pll[p].off = false →
    s.tng.pll[p].lbist = false → s.tng.refclk = true → p ≠ 3 →
    exec (.pllRelock t p b) s = .next { s.at t with tng := { s.tng with
      pll := updWith (updWith s.tng.pll p fun x => { x with attempts := min 3 (x.attempts + 1) }) p fun x => { x with
        locked := true, lost := false, leaving := true, relockAt := some (max s.now t) } } }) ∧
  (∀ (t : Time) (m : BitVec 4) (s : State), s.hth.pwr ≠ .safe → exec (.safePllAttempt t m) s = .next (s.at t)) ∧
  (∀ (t : Time) (s : State), s.hth.pwr = .safe → exec (.safePllAttempt t 0) s = .next (s.at t)) ∧
  (∀ (t : Time) (s : State), s.hth.pwr = .safe → s.tng.refclk = true → s.tng.pll[(0 : Fin 4)].lost = true →
    s.tng.pll[(0 : Fin 4)].off = false → s.tng.pll[(0 : Fin 4)].lbist = false →
    exec (.safePllAttempt t 1) s = .next (pllLocks 0 (s.at t)))

/-- Bring-up of a Swath link (R232, R233): SWT_RETRY starts it again on a failed link of an engine that may run; a step
that misses its time fails the attempt, which raises SWT_RETRAIN and starts again from defaults, the third
SWT_LINK_FAIL; a soak that passes makes the link READY with SWT_LINK_UP; in SAFE a link keeps its state. -/
def Obligations.LinkBringup : Prop :=
  (∀ (t : Time) (e : Fin 4) (s : State), rowOpen s = true → (s.swt[e].link = .failed ∨ s.swt[e].link = .down) →
    linkMayStart s e = true →
    exec (.swtRetry t e) s = .next { linkStart e (s.at t) with last := .ok }) ∧
  (∀ (t : Time) (e : Fin 4) (s : State), s.swt[e].link = .training → s.hth.pwr ≠ .safe →
    exec (.linkBringupStepTimeout t e) s = .next (attemptFailed e (s.at t))) ∧
  (∀ (t : Time) (e : Fin 4) (s : State), (s.swt[e].link ≠ .training ∨ s.hth.pwr = .safe) →
    exec (.linkBringupStepTimeout t e) s = .next (s.at t) ∧ exec (.linkSoakComplete t e) s = .next (s.at t)) ∧
  (∀ (e : Fin 4) (s : State), s.swt[e].attempts = 2 → (attemptFailed e s).swt[e].link = .failed) ∧
  (∀ (e : Fin 4) (s : State), s.swt[e].attempts < 2 → (attemptFailed e s).swt[e].link = s.swt[e].link ∧
    (attemptFailed e s).swt[e].step = 1 ∧ (attemptFailed e s).swt[e].tapsDefault = true ∧
    (attemptFailed e s).swt[e].attempts = s.swt[e].attempts + 1) ∧
  (∀ (t : Time) (e : Fin 4) (s : State), s.swt[e].link = .training → s.hth.pwr ≠ .safe → s.swt[e].step = 6 →
    ∃ x, exec (.linkSoakComplete t e) s = .next x ∧ x.swt[e].link = .ready ∧
      x.swt[e].step = 7) ∧
  (∀ (e : Fin 4) (s : State), (linkStart e s).swt[e].link = .training ∧ (linkStart e s).swt[e].step = 1 ∧
    (linkStart e s).swt[e].attempts = 0)

/-- The return lane of a Swath link (R230, R231, R234, R568): a frame that is not whole counts as missing, two in a row
of a link that is up are a loss; a good frame of a healthy link records its counts; a lost block lock of a link that
is up is a loss, of one in bring-up that has passed the step that gained it a missed step; a lost link is DOWN,
FAILED or training again. LANE_CORR_SECOND (R238): each lane's corrected-codeword count of the second becomes its
statistic and starts again from zero. -/
def Obligations.ReturnLaneAndLaneStatistics : Prop :=
  (∀ (t : Time) (e : Fin 4) (s : State), linkRuns s e = true →
    exec (.statusFrameMissing t e) s = .next (frameMissing e (s.at t))) ∧
  (∀ (t : Time) (e : Fin 4) (b : List Byte) (s : State), linkRuns s e = true → statusFrameOk b = false →
    exec (.returnStatusFrame t e b) s = .next (frameMissing e (s.at t))) ∧
  (∀ (t : Time) (e : Fin 4) (b : List Byte) (s : State), linkRuns s e = true → statusFrameOk b = true →
    (s.swt[e].link = .ready ∨ s.swt[e].link = .active) → frameLoss (frameRecord e b (s.at t)) e b = false →
    exec (.returnStatusFrame t e b) s = .next (frameRecord e b (s.at t))) ∧
  (∀ (e : Fin 4) (b : List Byte) (s : State), (frameRecord e b s).swt[e].missing = 0) ∧
  (∀ (t : Time) (e : Fin 4) (s : State), linkRuns s e = true →
    exec (.returnLaneBlockLock t e) s = .next { s.at t with swt := updWith s.swt e fun w => { w with blockLock := true } }) ∧
  (∀ (t : Time) (e : Fin 4) (s : State), linkRuns s e = true →
    (s.swt[e].link = .ready ∨ s.swt[e].link = .active) →
    exec (.returnLaneBlockLockLoss t e) s = .next (linkLoss e { s.at t with
      swt := updWith s.swt e fun w => { w with blockLock := false } })) ∧
  (∀ (n : Nat) (e : Fin 4) (s : State), s.swt[e].link = .training → s.hth.pwr ≠ .safe →
    lossIfUp n e s = if n ≤ s.swt[e].step then attemptFailed e s else s) ∧
  (∀ (e : Fin 4) (s : State), s.swt[e].missing = 0 → frameMissing e s = { s with
    swt := updWith s.swt e fun w => { w with missing := w.missing + 1 } }) ∧
  (∀ (e : Fin 4) (s : State), (linkLoss e s).swt[e].link = .down ∨ (linkLoss e s).swt[e].link = .failed ∨
    (linkLoss e s).swt[e].link = .training) ∧
  (∀ (t : Time) (s : State), s.fastUp = true →
    ∃ x, exec (.laneCorrSecond t) s = .next x ∧
      ∀ (e : Fin 4) (m : Fin 8), x.swt[e].laneCorr[m] = s.swt[e].laneAcc[m] ∧ x.swt[e].laneAcc[m] = 0) ∧
  (∀ (t : Time) (s : State), s.fastUp = false → exec (.laneCorrSecond t) s = .next (s.at t))

/-! ## Scanners -/

/-- The scanner's start and stops (R244, R259, R260, R262): SCN_RESTART excites a stopped scanner again; a start that is
slow is said once; a vertical deviation of 50 us, and a fourth sample of low amplitude in a row, stop it; a stop
leaves it STOPPED or FAILED, dark and its count one higher, the fourth within 60 s FAILED. -/
def Obligations.ScannerStartsAndStops : Prop :=
  (∀ (t : Time) (e : Fin 4) (s : State), rowOpen s = true → s.isLse e = true →
    (s.scn[e].st = .stopped ∨ s.scn[e].st = .failed) →
    ∃ x, exec (.scnRestart t e) s = .next x ∧ x.last = .ok ∧ x.scn[e].excited = true ∧ x.scn[e].st = .excite ∧
      x.scn[e].asked = true) ∧
  (∀ (t : Time) (e : Fin 4) (s : State), s.isLse e = true → s.scn[e].excited = true → s.scn[e].st = .excite →
    s.scn[e].slowRaised = false → s.scn[e].excitedAt + 250 * ms ≤ t →
    exec (.scanStartTimeout t e) s = .next (raise evScnStartSlow e.val { s.at t with
      scn := updWith s.scn e fun w => { w with slowRaised := true } })) ∧
  (∀ (t a : Time) (e : Fin 4) (s : State), s.isLse e = true → s.scn[e].excited = true → s.scn[e].devSince = some a →
    a + 50 * us ≤ t → exec (.verticalDeviationTimeout t e) s = .next (scanStop e 5 (s.at t))) ∧
  (∀ (t : Time) (e : Fin 4) (s : State), s.scn[e].devSince = none →
    exec (.verticalDeviationTimeout t e) s = .next (s.at t)) ∧
  (∀ (e : Fin 4) (c : Nat) (s : State), stopsIn s.scn[e] = true →
    ((scanStop e c s).scn[e].st = .stopped ∨ (scanStop e c s).scn[e].st = .failed) ∧
    (scanStop e c s).scn[e].stops = satInc 16 s.scn[e].stops ∧ (scanStop e c s).frg.eng[e].lit = false ∧
    (3 ≤ (recentStops s e).length → (scanStop e c s).scn[e].st = .failed) ∧
    ((c = 1 ∨ c = 5) → s.scn[e].autoRestart = false → (scanStop e c s).scn[e].excited = false)) ∧
  (∀ (e : Fin 4) (c : Nat) (s : State), stopsIn s.scn[e] = false → scanStop e c s = s) ∧
  (∀ (t : Time) (e : Fin 4) (a : Nat) (s : State), s.isLse e = true → s.scn[e].excited = true → s.scn[e].ampLow < 3 →
    ∃ x, exec (.amplitudeSample t e a) s = .next x ∧ x.scn[e].amp = a ∧ x.scn[e].st = s.scn[e].st ∧
      x.scn[e].ampLow ≤ s.scn[e].ampLow + 1) ∧
  (∀ (t : Time) (e : Fin 4) (s : State), s.isLse e = false → exec (.verticalDeviationTimeout t e) s = .next (s.at t) ∧
    exec (.scanStartTimeout t e) s = .next (s.at t) ∧ ∀ a, exec (.amplitudeSample t e a) s = .next (s.at t))

/-- Pick-off edges (R245): an edge within 4 % of the prediction is accepted, one outside is ignored and counted; with no
period formed yet it joins the intervals; once the window of a missing edge has closed the prediction stands in for
it, the second in a row stops the scanner, and before it closes nothing happens. The rows of a scanned engine (R247,
R249, R252, R255, R256): ROW_START begins the next row when its half-period is due, row 0 setting t0, and none past
the last row; a lit row has one column for each pixel of a channel that may be driven; an incomplete row is drawn
dark and, of a lit engine, counts one underrun, saturating; FLYBACK, once the last row's half-period has ended, ends
the drawing and starts the set-point's way back. -/
def Obligations.PickoffEdgesAndRows : Prop :=
  (∀ (t : Time) (e : Fin 4) (p : Frac) (s : State), s.isLse e = true → s.scn[e].excited = true →
    s.scn[e].period = some p →
    (((max s.now t - s.scn[e].edge.getD (max s.now t)) * p.den : Nat) - (p.num : Int)).natAbs * 25 ≤ p.num →
    exec (.pickoffEdge t e) s = .next (edgeAccepted e p (s.at t))) ∧
  (∀ (t : Time) (e : Fin 4) (p : Frac) (s : State), s.isLse e = true → s.scn[e].excited = true →
    s.scn[e].period = some p →
    p.num < (((max s.now t - s.scn[e].edge.getD (max s.now t)) * p.den : Nat) - (p.num : Int)).natAbs * 25 →
    ∃ x, exec (.pickoffEdge t e) s = .next x ∧ x.scn[e].spurious = s.scn[e].spurious + 1 ∧
      x.scn[e].edge = s.scn[e].edge ∧ x.scn[e].period = some p) ∧
  (∀ (t : Time) (e : Fin 4) (s : State), s.isLse e = true → s.scn[e].excited = true → s.scn[e].period = none →
    exec (.pickoffEdge t e) s = .next (edgeForming e (s.at t))) ∧
  (∀ (t a : Time) (e : Fin 4) (p : Frac) (s : State), s.isLse e = true → s.scn[e].excited = true →
    s.scn[e].period = some p → s.scn[e].edge = some a → 26 * p.num ≤ 25 * (max s.now t - a) * p.den →
    s.scn[e].missed = 0 → exec (.predictedEdgeMissed t e) s = .next (lineFollows e { s.at t with
      scn := updWith s.scn e fun w => { w with
        edge := some (a + p.round), edgeWas := some a, missed := w.missed + 1 } })) ∧
  (∀ (t a : Time) (e : Fin 4) (p : Frac) (s : State), s.isLse e = true → s.scn[e].excited = true →
    s.scn[e].period = some p → s.scn[e].edge = some a → 26 * p.num ≤ 25 * (max s.now t - a) * p.den →
    s.scn[e].missed = 1 → exec (.predictedEdgeMissed t e) s = .next (scanStop e 2 (lineFollows e { s.at t with
      scn := updWith s.scn e fun w => { w with
        edge := some (a + p.round), edgeWas := some a, missed := w.missed + 1 } }))) ∧
  (∀ (t a : Time) (e : Fin 4) (p : Frac) (s : State), s.scn[e].period = some p → s.scn[e].edge = some a →
    25 * (max s.now t - a) * p.den < 26 * p.num → exec (.predictedEdgeMissed t e) s = .next (s.at t)) ∧
  (∀ (e : Fin 4) (s : State), s.scn[e].line = none → lineFollows e s = s) ∧
  (∀ (t : Time) (e : Fin 4) (n : Nat) (l : Line) (s : State), rowLine (s.at t) e = some l →
    rowDue (s.at t) e l = true →
    ∃ x, exec (.rowStart t e n true) s = .next x ∧ x.scn[e].row = s.scn[e].row + 1 ∧ x.scn[e].drawing = true ∧
      x.scn[e].underrun = s.scn[e].underrun ∧ (s.scn[e].row = 0 → x.scn[e].t0 = (halfStart s.scn[e] l).toNat) ∧
      (s.scn[e].row ≠ 0 → x.scn[e].t0 = s.scn[e].t0)) ∧
  (∀ (t : Time) (e : Fin 4) (n : Nat) (l : Line) (s : State), rowLine (s.at t) e = some l →
    rowDue (s.at t) e l = true → s.frg.eng[e].lit = true →
    ∃ x y, exec (.rowStart t e n false) s = .next x ∧ x.scn[e].row = s.scn[e].row + 1 ∧
      x.scn[e].underrun = satInc 16 s.scn[e].underrun ∧ x.scn[e].line = some y ∧ ∀ k : Fin 6, y.cols[k] = []) ∧
  (∀ (t : Time) (e : Fin 4) (n : Nat) (b : Bool) (s : State), s.eng[e].h ≤ s.scn[e].row →
    exec (.rowStart t e n b) s = .next (s.at t)) ∧
  (∀ (e : Fin 4) (l : Line) (k : Fin 6) (s : State), l.dark = false → s.frg.eng[e].lit = true →
    chanOk s (chan e k.val) = true → (lineCols s e l k).length = s.eng[e].w) ∧
  (∀ (t : Time) (e : Fin 4) (p : Frac) (s : State), s.isLse e = true → s.scn[e].drawing = true →
    s.scn[e].period = some p → s.eng[e].h ≤ s.scn[e].row → s.scn[e].rowAt + p.floor / 2 ≤ t →
    exec (.flyback t e) s = .next { s.at t with
      scn := updWith s.scn e fun w => { w with
        drawing := false, line := none, fifo := [], yRows := rowsNow (s.at t) e,
        fly := some (max s.now t, rowsNow (s.at t) e) } }) ∧
  (∀ (t : Time) (e : Fin 4) (s : State), s.scn[e].drawing = false → exec (.flyback t e) s = .next (s.at t))

/-! ## Parameters -/

/-- PARAM_READ and PARAM_WRITE (R503, R504): a read returns the values of its IDs in order, or the index of the first
that is none; a write applies all its entries, or none of them when one is refused, and returns that entry's index.
A register row writes one parameter (R32, R492, R504): in STANDBY, READY or LIT as PARAM_WRITE does, with its status
as the row's answer; in another state, outside group 0x01, it is refused with WRONG_STATE and writes nothing. The
answer's place is the model's (log 4). COUNTER_CLEAR (R5, R125): a write of 0 to a not-ready counter clears that
counter and no other; any other value, or an ID that names no counter, is refused with BAD_PARAM and changes
nothing. -/
def Obligations.ParametersAndCounters : Prop :=
  (∀ (t : Time) (rq : Req) (v : Nat) (s x : State), serves 0x08 rq (s.at t) = true → rq.payload.length = 2 →
    paramRead (le16 rq.payload 0) (takeReq rq (s.at t)) = some (v, x) →
    exec (.paramRead t rq) s = .next (finishReply rq .ok (leBytes 4 v) x)) ∧
  (∀ (t : Time) (rq : Req) (s : State), serves 0x08 rq (s.at t) = true → rq.payload.length = 2 →
    paramRead (le16 rq.payload 0) (takeReq rq (s.at t)) = none →
    exec (.paramRead t rq) s = .next (finishReply rq .badParam [0] (takeReq rq (s.at t)))) ∧
  (∀ (t : Time) (rq : Req) (s x : State), serves 0x09 rq (s.at t) = true → rq.payload.length = 6 →
    paramWrite (le16 rq.payload 0) (toW (le32 rq.payload 2)) (takeReq rq (s.at t)) = (.ok, x) →
    exec (.paramWrite t rq) s = .next (finishReply rq .ok []
      (canFollow ((rq.port == .canCmd || rq.port == .canSafety) && rqReply rq)
        [(le16 rq.payload 0, toW (le32 rq.payload 2))] x))) ∧
  (∀ (t : Time) (rq : Req) (i : Nat) (st : Status) (s : State), serves 0x09 rq (s.at t) = true →
    paramWrites ((List.range (rq.payload.length / 6)).map fun i =>
      (le16 rq.payload (6 * i), toW (le32 rq.payload (6 * i + 2)))) 0 (takeReq rq (s.at t)) = .inr (i, st) →
    exec (.paramWrite t rq) s = .next (finishReply rq st (leBytes 1 i) (takeReq rq (s.at t)))) ∧
  (∀ (t : Time) (id : Nat) (v : Word) (s : State), rowOpen s = true → s.hth.boot ≠ .hold → id / 256 ≠ 1 →
    exec (.registerWrite t id v) s = .next { (paramWrite id v (s.at t)).2 with last := (paramWrite id v (s.at t)).1 }) ∧
  (∀ (t : Time) (v : Word) (s : State), s.hth.boot ≠ .hold → s.hth.pwr ≠ .off → s.hth.can = s.hth.canNext →
    v.toNat < 65536 → exec (.registerWrite t 0x0103 v) s
      = .next { s.at t with last := .ok, hth := { s.hth with ignOffDelay := v } }) ∧
  (∀ (t : Time) (id : Nat) (v : Word) (s : State), inSRL s.hth.pwr = false → id / 256 ≠ 1 → s.hth.boot ≠ .hold →
    exec (.registerWrite t id v) s = .next { s.at t with last := .wrongState }) ∧
  (∀ (n : Fin 4) (v : Word) (s : State), v &&& 0x3FFF3FFF = v →
    paramWrite (0x0410 + n.val) v s = (.ok, { s with cmp := { s.cmp with canvasSh := upd s.cmp.canvasSh n v } })) ∧
  (∀ (n : Fin 16) (v : Word) (s : State), paramWrite (0x0440 + n.val) v s = (.ok, writeFence n v s)) ∧
  (∀ (t : Time) (n : Fin 16) (s : State), rowOpen s = true →
    exec (.counterClear t (0x0420 + n.val) 0) s = .next { s.at t with
      last := .ok, cmp := { s.cmp with notReady := upd s.cmp.notReady n 0 } }) ∧
  (∀ (t : Time) (n : Fin 16) (v : Word) (s : State), rowOpen s = true → v ≠ 0 →
    exec (.counterClear t (0x0420 + n.val) v) s = .next { s.at t with last := .badParam }) ∧
  (∀ (t : Time) (id : Nat) (v : Word) (s : State), rowOpen s = true → isCounter id = false →
    exec (.counterClear t id v) s = .next { s.at t with last := .badParam }) ∧
  (∀ (t : Time) (id : Nat) (v : Word) (s : State), rowOpen s = false →
    exec (.counterClear t id v) s = .next { s.at t with last := .wrongState })

/-! ## The Servo -/

/-- SERVO_TICK (R305, R317): while the engine runs, its tick counter rises by one a tick; stopped, nothing happens.
LOOP_SAMPLE_DEADLINE (R305, R307): the oldest sample of a running AUTO or MANUAL slot leaves; met, it takes effect
and ends the run of misses; missed, the run grows by one, the miss flag is set and the count rises, saturating. A
sample without data leaves the slot's output as it was and sets its no-data flag. The traces (R327, R519, R520): a
valid TRACE_ARM arms its buffer for the slot, node and trigger it names; TRACE_READ of a buffer that is not complete
answers BUSY, of a complete one the samples asked for, and changes nothing. -/
def Obligations.TicksSamplesAndTraces : Prop :=
  (∀ (t : Time) (i : ServoIn) (s : State), s.srv.running = true →
    ∃ x, exec (.servoTick t i) s = .next x ∧ x.srv.tick = s.srv.tick + 1) ∧
  (∀ (t : Time) (i : ServoIn) (s : State), s.srv.running = false → exec (.servoTick t i) s = .next (s.at t)) ∧
  (∀ (t : Time) (n : Fin 64) (x : Sample) (r : List Sample) (s : State), s.srv.loops[n].samples = x :: r →
    s.srv.running = true → (s.srv.loops[n].mode = .auto ∨ s.srv.loops[n].mode = .manual) →
    exec (.loopSampleDeadline t n true) s = .next (traceSample n (sampleDone n x
      (setLoop n (fun l => { l with missRun := 0 }) (setLoop n (fun l => { l with samples := r }) (s.at t)))))) ∧
  (∀ (t : Time) (n : Fin 64) (x : Sample) (r : List Sample) (s : State), s.srv.loops[n].samples = x :: r →
    s.srv.running = true → (s.srv.loops[n].mode = .auto ∨ s.srv.loops[n].mode = .manual) →
    exec (.loopSampleDeadline t n false) s = .next (traceSample n (sampleMissed n
      (setLoop n (fun l => { l with samples := r }) (s.at t))))) ∧
  (∀ (n : Fin 64) (s : State), s.srv.loops[n].ty ≠ 4 → s.srv.loops[n].missRun < 15 →
    (sampleMissed n s).srv.loops[n].miss = true ∧
    (sampleMissed n s).srv.loops[n].missed = satInc 16 s.srv.loops[n].missed ∧
    (sampleMissed n s).srv.loops[n].missRun = s.srv.loops[n].missRun + 1) ∧
  (∀ (t : Time) (n : Fin 64) (d : Bool) (s : State), s.srv.loops[n].samples = [] →
    exec (.loopSampleDeadline t n d) s = .next (s.at t)) ∧
  (∀ (n : Fin 64) (x : Sample) (s : State), s.srv.loops[n].ty ≠ 6 → x.data = false →
    sampleDone n x s = { s with srv := { s.srv with loops := updWith s.srv.loops n fun l => { l with nodata := true } } }) ∧
  (∀ (t : Time) (rq : Req) (b : Fin 8) (n : Fin 64) (s : State), serves 0x34 rq (s.at t) = true →
    byteAt rq.payload 0 = b.val → byteAt rq.payload 1 = n.val → byteAt rq.payload 2 < 13 → byteAt rq.payload 3 = 0 →
    le16 rq.payload 6 < 16384 → le16 rq.payload 8 = 0 → zeroAt rq.payload 10 2 = true → le32 rq.payload 12 = 0 →
    ∃ x, exec (.traceArm t rq) s = .next (finishReply rq .ok [] { takeReq rq (s.at t) with
        srv := { s.srv with traces := updWith s.srv.traces b fun _ => x } }) ∧ x.st = 1 ∧ x.slot = n ∧
      x.node = byteAt rq.payload 2 ∧ x.dec = le16 rq.payload 4 + 1 ∧ x.trigger = 0 ∧ x.samples = []) ∧
  (∀ (t : Time) (rq : Req) (b : Fin 8) (s : State), serves 0x35 rq (s.at t) = true → byteAt rq.payload 0 = b.val →
    zeroAt rq.payload 1 1 = true → zeroAt rq.payload 6 2 = true → 1 ≤ le16 rq.payload 4 → le16 rq.payload 4 ≤ 253 →
    le16 rq.payload 2 + le16 rq.payload 4 ≤ 16384 → s.srv.traces[b].st ≠ 3 →
    exec (.traceRead t rq) s = .next (finishReply rq .busy [] (takeReq rq (s.at t)))) ∧
  (∀ (t : Time) (rq : Req) (b : Fin 8) (s : State), serves 0x35 rq (s.at t) = true → byteAt rq.payload 0 = b.val →
    zeroAt rq.payload 1 1 = true → zeroAt rq.payload 6 2 = true → 1 ≤ le16 rq.payload 4 → le16 rq.payload 4 ≤ 253 →
    le16 rq.payload 2 + le16 rq.payload 4 ≤ 16384 → s.srv.traces[b].st = 3 →
    ∃ p, exec (.traceRead t rq) s = .next (finishReply rq .ok p (takeReq rq (s.at t))) ∧
      p.take 8 = leBytes 8 s.srv.traces[b].tick)

/-- LOOP_CONFIGURE, LOOP_BANK_WRITE and LOOP_BANK_SWAP (R308, R310, R312, R518): a valid configuration replaces an OFF
loop's with its running state zeroed; a valid bank goes into the bank that is not live; a swap of an OFF loop is at
once, of a running one at its next sample boundary. LOOP_MODE and the loop's flags (R314, R317, R328): with the
engine stopped the loop takes the mode asked for, AUTO and MANUAL only with a live bank; SRV_LOOP flags are cleared
by the bits written 1, but for a flag that hardware sets in the same cycle (R6), and a write of other bits is
refused. -/
def Obligations.LoopCommands : Prop :=
  (∀ (t : Time) (rq : Req) (n : Fin 64) (c : BitVec 64) (s : State), serves 0x30 rq (s.at t) = true →
    byteAt rq.payload 0 = n.val → zeroAt rq.payload 1 3 = true → leNat (slice rq.payload 4 8) = c.toNat →
    cfgOk c = true → s.srv.loops[n].mode = .off →
    allocationOk (updWith s.srv.loops n fun l => { zeroLoop l with cfg := c }) n = true → s.otp.lifecycle ≠ 3 →
    (Frac.ofNat 1000).lt (srvLoad (updWith s.srv.loops n fun l => { zeroLoop l with cfg := c })) = false →
    exec (.loopConfigure t rq) s = .next (finishReply rq .ok
      (leBytes 2 (srvLoadWord (updWith s.srv.loops n fun l => { zeroLoop l with cfg := c }))) { takeReq rq (s.at t) with
        srv := { s.srv with loops := updWith s.srv.loops n fun l => { zeroLoop l with cfg := c } } })) ∧
  (∀ (t : Time) (rq : Req) (n : Fin 64) (s : State), serves 0x31 rq (s.at t) = true → byteAt rq.payload 0 = n.val →
    zeroAt rq.payload 1 3 = true → s.srv.loops[n].ty ≠ 0 → s.srv.loops[n].ty ≠ 6 →
    bankFieldsOk s s.srv.loops[n] (slice rq.payload 4 112) = true → armedLoop s n = false → s.otp.lifecycle ≠ 3 →
    exec (.loopBankWrite t rq) s = .next (finishReply rq .ok [] { takeReq rq (s.at t) with
      srv := { s.srv with loops := updWith s.srv.loops n fun l => { l with
        banks := upd l.banks (other l.live) (some (slice rq.payload 4 112)) } } })) ∧
  (∀ (t : Time) (rq : Req) (n : Fin 64) (b : Bank) (s : State), serves 0x32 rq (s.at t) = true → byteAt rq.payload 0 = n.val →
    zeroAt rq.payload 1 3 = true → s.hth.pwr ≠ .standby →
    s.srv.loops[n].banks[other s.srv.loops[n].live] = some b → armedLoop s n = false →
    ∃ x, exec (.loopBankSwap t rq) s = .next (finishReply rq .ok [] { takeReq rq (s.at t) with
        srv := { s.srv with loops := updWith s.srv.loops n fun _ => x } }) ∧
      (s.srv.loops[n].mode = .off → x.live = other s.srv.loops[n].live ∧ x.swapAt = none) ∧
      (s.srv.loops[n].mode ≠ .off → x.live = s.srv.loops[n].live ∧ x.swapAt = some 0)) ∧
  (∀ (t : Time) (rq : Req) (n : Fin 64) (s : State), serves 0x33 rq (s.at t) = true → byteAt rq.payload 0 = n.val →
    byteAt rq.payload 1 = 0 → byteAt rq.payload 2 = 0 → zeroAt rq.payload 3 1 = true → le32 rq.payload 4 = 0 →
    s.srv.running = false →
    exec (.loopMode t rq) s = .next (finishReply rq .ok [] { takeReq rq (s.at t) with
      srv := { s.srv with loops := updWith s.srv.loops n fun l => { l with
        mode := .off, held := .off, man := s.srv.loops[n].uOut } } })) ∧
  (∀ (t : Time) (rq : Req) (n : Fin 64) (s : State), serves 0x33 rq (s.at t) = true → byteAt rq.payload 0 = n.val →
    (byteAt rq.payload 1 = 1 ∨ byteAt rq.payload 1 = 2) → byteAt rq.payload 2 = 0 → zeroAt rq.payload 3 1 = true →
    le32 rq.payload 4 = 0 → s.srv.loops[n].banks[s.srv.loops[n].live] = none →
    exec (.loopMode t rq) s = .next (finishReply rq .wrongState [] (takeReq rq (s.at t)))) ∧
  (∀ (t : Time) (n : Fin 64) (v : Word) (s : State), rowOpen s = true → v.toNat < 256 →
    s.srv.loops[n].flagAt ≠ some (max s.now t) →
    ∃ x, exec (.srvLoopFlagClear t n v) s = .next { s.at t with
        last := .ok, srv := { s.srv with loops := updWith s.srv.loops n fun _ => x } } ∧
      x.miss = (s.srv.loops[n].miss && !v.getLsbD 7) ∧ x.plaus = (s.srv.loops[n].plaus && !v.getLsbD 1) ∧
      x.mode = s.srv.loops[n].mode ∧ x.uOut = s.srv.loops[n].uOut ∧ x.banks = s.srv.loops[n].banks) ∧
  (∀ (t : Time) (n : Fin 64) (v : Word) (s : State), rowOpen s = true → v.toNat < 256 →
    s.srv.loops[n].flagAt = some (max s.now t) → s.srv.loops[n].flagNow.getLsbD 7 = true →
    ∃ x, exec (.srvLoopFlagClear t n v) s = .next x ∧ x.last = .ok ∧ x.srv.loops[n].miss = s.srv.loops[n].miss) ∧
  (∀ (t : Time) (n : Fin 64) (v : Word) (s : State), rowOpen s = true → 256 ≤ v.toNat →
    exec (.srvLoopFlagClear t n v) s = .next { s.at t with last := .badParam })

/-! ## Light and telltales -/

/-- Emission and photodiode supervision (R284, R285, R287): a sample above a limit, of an engine that has not tripped,
darkens the engine for EMISSION and raises FRG_EMISSION_TRIP, any other is only recorded; a channel fault is said
once and ends the pulse and the columns of its row. TRIP_RESET and EMIT_RESET (R326, R284; the status WRONG_STATE of
EMIT_RESET is the model's: log 40): refused until 1 s after the trip; then the trip ends and its dark cause is
released. -/
def Obligations.EmissionAndTrips : Prop :=
  (∀ (t : Time) (e : Fin 4) (l : List Nat) (s : State), s.fastUp = true → s.used e = true → emitLimit s e ≠ 0 →
    s.frg.eng[e].tripAt = none → emitLimit s e % 65536 * 8 < sumN l →
    ∃ x, exec (.emissionSample t e l) s = .next x ∧ x.frg.eng[e].tripAt = some (max s.now t) ∧
      x.frg.eng[e].lit = false ∧ x.frg.eng[e].cause.getLsbD 2 = true) ∧
  (∀ (t : Time) (e : Fin 4) (l : List Nat) (s : State), s.fastUp = true → s.used e = true → emitLimit s e ≠ 0 →
    sumN l ≤ emitLimit s e % 65536 * 8 →
    sumN ((sumN l :: s.frg.eng[e].sums).take 1000) ≤ emitLimit s e / 65536 * 8 * 1000 →
    ∃ x, exec (.emissionSample t e l) s = .next { s.at t with frg := { s.frg with
        eng := updWith s.frg.eng e fun _ => x } } ∧ x.lit = s.frg.eng[e].lit ∧ x.cause = s.frg.eng[e].cause ∧
      x.tripAt = s.frg.eng[e].tripAt ∧ x.sums = (sumN l :: s.frg.eng[e].sums).take 1000) ∧
  (∀ (t : Time) (c : Fin 24) (s : State), s.fastUp = true → s.frg.ch[c].pdFault = false →
    wb s.frg.ch[c].cfg 0 = true →
    ∃ l, exec (.pdFaultCount t c) s = .next (raise evFrgChFault c.val { s.at t with
        frg := { s.frg with ch := updWith s.frg.ch c fun x => { x with pdFault := true, pulse := {} } },
        scn := updWith s.scn (chanEng c) fun w => { w with line := l } }) ∧
      ∀ y, l = some y → y.cols[Fin.ofNat 6 c.val] = []) ∧
  (∀ (t : Time) (c : Fin 24) (s : State), s.frg.ch[c].pdFault = true → exec (.pdFaultCount t c) s = .next (s.at t)) ∧
  (∀ (t a : Time) (e : Fin 4) (s : State), rowOpen s = true → s.srv.trip[e] = some a → max s.now t < a + sec →
    exec (.tripReset t e) s = .next { s.at t with last := .wrongState }) ∧
  (∀ (t a : Time) (e : Fin 4) (s : State), rowOpen s = true → s.srv.trip[e] = some a → a + sec ≤ t →
    ∃ x, exec (.tripReset t e) s = .next x ∧ x.last = .ok ∧ x.srv.trip[e] = none ∧
      x.frg.eng[e].cause.getLsbD 3 = false) ∧
  (∀ (t a : Time) (e : Fin 4) (s : State), rowOpen s = true → s.frg.eng[e].tripAt = some a → max s.now t < a + sec →
    exec (.emitReset t e) s = .next { s.at t with last := .wrongState }) ∧
  (∀ (t a : Time) (e : Fin 4) (s : State), rowOpen s = true → s.frg.eng[e].tripAt = some a → a + sec ≤ t →
    ∃ x, exec (.emitReset t e) s = .next x ∧ x.last = .ok ∧ x.frg.eng[e].tripAt = none ∧
      x.frg.eng[e].sums = [] ∧ x.frg.eng[e].peakAvg = 0 ∧ x.frg.eng[e].cause.getLsbD 2 = false)

/-- LIGHT_LEVEL and derating (R270, R279, R281, R516): a valid level becomes the target of the ramp that the next frame
start begins; DERATE_RECOMPUTE computes every channel; a curve written through FRG_DERATE_DATA takes force with its
eighth point, when the points rise. -/
def Obligations.LightLevelAndDerating : Prop :=
  (∀ (t : Time) (rq : Req) (s : State), serves 0x28 rq (s.at t) = true → lightLevelOk (le32 rq.payload 0) = true →
    le16 rq.payload 4 ≤ 1000 → zeroAt rq.payload 6 2 = true →
    exec (.lightLevel t rq) s = .next (finishReply rq .ok [] { takeReq rq (s.at t) with frg := { s.frg with
      level := le32 rq.payload 0, rampNext := some (le32 rq.payload 0, le16 rq.payload 4) } })) ∧
  (∀ (t : Time) (s : State), s.fastUp = true →
    ∃ v, exec (.derateRecompute t) s = .next { s.at t with frg := { s.frg with ch := v } } ∧
      ∀ c : Fin 24, v[c].full ≤ v[c].cap ∧ v[c].full ≤ s.frg.ch[c].full ∧ v[c].curveNext = none) ∧
  (∀ (t : Time) (s : State), s.fastUp = false → exec (.derateRecompute t) s = .next (s.at t)) ∧
  (∀ (t : Time) (v : Word) (c : Fin 24) (p : Fin 8) (s : State), rowOpen s = true → s.hth.lock = false →
    v.toNat < 65536 → wfl s.frg.derateSel 3 5 = c.val → wfl s.frg.derateSel 0 3 = p.val → p ≠ 7 →
    exec (.frgDerateDataWrite t v) s = .next { s.at t with last := .ok, frg := { s.frg with
      ch := updWith s.frg.ch c fun x => { x with staged := upd x.staged p (wfl v 8 8, wfl v 0 8) } } }) ∧
  (∀ (t : Time) (v : Word) (s : State), rowOpen s = true → s.hth.lock = true →
    exec (.frgDerateDataWrite t v) s = .next { s.at t with last := .wrongState })

/-- The telltale matrix (R288-R293, R517): every matrix frame fixes which lamps are on; a row slot drives the row's
LEDs; a column over its voltage is limited and said once; LAMP_FUNCTION_SET writes one lamp outside FIELD and clears
its faults. -/
def Obligations.TelltaleMatrix : Prop :=
  (∀ (t : Time) (s : State), s.hth.pwr ≠ .off → s.hth.boot ≠ .hold →
    exec (.matrixFrameStart t) s = .next { s.at t with mtx := { s.mtx with
      on := lampStates (s.at t), diag := diagLeds (s.at t) s.mtx.frame, row := [], frame := s.mtx.frame + 1 } }) ∧
  (∀ (t : Time) (r : Fin 12) (v : List Nat) (u : Nat) (s : State), s.hth.pwr ≠ .off → s.hth.boot ≠ .hold →
    ∃ x, exec (.matrixRowSlot t r v u) s = .next x ∧ x.mtx.row = rowLeds (s.at t) r) ∧
  (∀ (t : Time) (r : Fin 12) (c : Fin 16) (s : State), s.hth.pwr ≠ .off → s.hth.boot ≠ .hold →
    s.mtx.limited.getLsbD c.val = false →
    ∃ d, exec (.columnOvervoltageCount t r c) s = .next (raise evHthLampLedFault d { s.at t with mtx := { s.mtx with
      limited := s.mtx.limited ||| BitVec.ofNat 16 (2 ^ c.val) } })) ∧
  (∀ (t : Time) (r : Fin 12) (c : Fin 16) (s : State), s.mtx.limited.getLsbD c.val = true →
    exec (.columnOvervoltageCount t r c) s = .next (s.at t)) ∧
  (∀ (t : Time) (rq : Req) (i : Fin 48) (s : State), serves 0x29 rq (s.at t) = true → byteAt rq.payload 0 = i.val →
    zeroAt rq.payload 1 3 = true → fld (leNat (slice rq.payload 4 32)) 3 53 = 0 → s.otp.lifecycle ≠ 3 →
    (lampEntry (slice rq.payload 4 32)).valid = false →
    exec (.lampFunctionSet t rq) s
      = .next (finishReply rq .ok [] (setLamp i (lampEntry (slice rq.payload 4 32)) (takeReq rq (s.at t))))) ∧
  (∀ (i : Fin 48) (f : LampFn) (s : State), (setLamp i f s).mtx.lamps[i] = f ∧
    ∀ j : Fin 48, j ≠ i → (setLamp i f s).mtx.lamps[j] = s.mtx.lamps[j])

/-! ## The Anvil -/

/-- ANVIL_CLAIM (R131, R132, R509): without an owner key, or locked out, it is refused with DENIED_OWNER; STEP 0 hands
out a NONCE, whose value is free (log 10), valid for 1 s; STEP 1 with its MAC opens a session; a fourth wrong MAC in
a row locks claims out for 10 s. The Anvil's timers (R128, R132, R138): a NONCE, a lockout and the owner's time run
out when they are due and not before; a reloaded glyph is drawn again. A stale owner leaves the telltales to the
matrix. -/
def Obligations.AnvilClaimsAndTimers : Prop :=
  (∀ (t : Time) (rq : Req) (s : State), serves 0x18 rq (s.at t) = true → s.hth.role ≠ 2 → zeroAt rq.payload 1 3 = true →
    byteAt rq.payload 0 = 0 → rq.payload.length = 4 → (ownerKey s = none ∨ lockedOut (s.at t) = true) →
    exec (.anvilClaim t rq) s = .next (finishReply rq .deniedOwner [] (takeReq rq (s.at t)))) ∧
  (∀ (t : Time) (rq : Req) (k : List Byte) (s : State), serves 0x18 rq (s.at t) = true → s.hth.role ≠ 2 →
    zeroAt rq.payload 1 3 = true → byteAt rq.payload 0 = 0 → rq.payload.length = 4 → ownerKey s = some k →
    lockedOut (s.at t) = false →
    ∃ n : List Byte, n.length = 8 ∧ exec (.anvilClaim t rq) s = .next (finishReply rq .ok n { takeReq rq (s.at t) with
      free := s.free + 1, anv := { s.anv with nonce := some (n, max s.now t + sec) } })) ∧
  (∀ (t d : Time) (rq : Req) (k n : List Byte) (s : State), serves 0x18 rq (s.at t) = true → s.hth.role ≠ 2 →
    zeroAt rq.payload 1 3 = true → byteAt rq.payload 0 = 1 → rq.payload.length = 12 → ownerKey s = some k →
    lockedOut (s.at t) = false → s.anv.nonce = some (n, d) → max s.now t < d →
    slice rq.payload 4 8 = mac8 k (s.otp.uidBytes ++ n ++ leBytes 1 (ownerCode rq.port)) →
    exec (.anvilClaim t rq) s = .next (finishReply rq .ok [] { takeReq rq (s.at t) with
      anv := { s.anv with session := some ⟨n, rq.port⟩, lastSeq := 0, claimFails := 0 } })) ∧
  (∀ s : State, s.anv.claimFails = 3 → (claimRefused s).1.anv.lockout = some (s.now + 10 * sec) ∧
    (claimRefused s).2.1 = .deniedOwner) ∧
  (∀ (t d : Time) (n : List Byte) (s : State), s.anv.nonce = some (n, d) →
    exec (.nonceExpiry t) s = .next { s.at t with
      anv := { s.anv with nonce := if max s.now t < d then some (n, d) else none } }) ∧
  (∀ (t d : Time) (s : State), s.anv.lockout = some d →
    exec (.claimLockoutExpiry t) s = .next { s.at t with
      anv := { s.anv with lockout := if max s.now t < d then some d else none } }) ∧
  (∀ (t d : Time) (s : State), s.anv.ownerDue = some d → d ≤ t → s.hth.role ≠ 2 →
    exec (.ownerTimeout t) s = .next (judgeHolder (raise evAnvOwnerStale 0 { s.at t with
      anv := { s.anv with ownerDue := none, ownerStale := true } }))) ∧
  (∀ (t : Time) (s : State), s.hth.role = 2 → exec (.ownerTimeout t) s = .next (s.at t)) ∧
  (∀ (t : Time) (s : State), exec (.glyphReloadComplete t) s = .next { s.at t with
    anv := { s.anv with badGlyphs := [] } }) ∧
  (∀ (t d : Time) (s : State), s.anv.ownerDue = some d → d ≤ t → s.hth.role ≠ 2 →
    ∃ x, exec (.ownerTimeout t) s = .next x ∧ x.anv.ownerStale = true ∧ x.anv.ownerDue = none ∧
      x.anv.holderMatrix = true)

/-- ANVIL_REQUEST and ANVIL_VERIFY_READ (R134, R135, R510, R511): a request of the session's transport with the right
MAC and a higher SEQ, of defined functions, takes the SEQ and sets those functions; without a session it is refused
with DENIED_OWNER and changes nothing; a verify read changes nothing. -/
def Obligations.AnvilRequests : Prop :=
  (∀ (t : Time) (rq : Req) (s : State), serves 0x19 rq (s.at t) = true → s.hth.role ≠ 2 → s.anv.session = none →
    exec (.anvilRequest t rq) s = .next (finishReply rq .deniedOwner [] (takeReq rq (s.at t)))) ∧
  (∀ (t : Time) (rq : Req) (x : Session) (k : List Byte) (s : State), serves 0x19 rq (s.at t) = true → s.hth.role ≠ 2 →
    s.anv.session = some x → ownerKey s = some k → portSame x.port rq.port = true →
    slice rq.payload (6 + 2 * byteAt rq.payload 4) 8
      = mac8 k (s.otp.uidBytes ++ x.nonce ++ (rqPacket rq).take (12 + 2 * byteAt rq.payload 4)) →
    s.anv.lastSeq < le32 rq.payload 0 → byteAt rq.payload 5 = 0 → byteAt rq.payload 4 = 1 →
    (anvFn s (byteAt rq.payload 6)).isSome = true → byteAt rq.payload 7 < 4 →
    ∃ p a h e, exec (.anvilRequest t rq) s = .next (finishReply rq .ok p { takeReq rq (s.at t) with
        anv := a, hth := h, evt := e }) ∧
      p.take 4 = leBytes 4 (le32 rq.payload 0) ∧ a.lastSeq = le32 rq.payload 0 ∧ a.ownerStale = false ∧
      a.states[Fin.ofNat 256 (byteAt rq.payload 6)] = BitVec.ofNat 2 (byteAt rq.payload 7) ∧
      (∀ i, i ≠ Fin.ofNat 256 (byteAt rq.payload 6) → a.states[i] = s.anv.states[i])) ∧
  (∀ (t : Time) (rq : Req) (s : State), serves 0x1A rq (s.at t) = true →
    ∃ p, exec (.anvilVerifyRead t rq) s = .next (finishReply rq .ok p (takeReq rq (s.at t))) ∧ p.length = 88 ∧
      p.take 4 = leBytes 4 (anvStatus s))

/-- Who carries the telltales (R145, R148): with a fallback condition the matrix does, and ANV_HANDOVER is raised when
it took over; with none left, probation begins while the matrix holds them; the eighth frame without a FAIL gives
them back. The frame verdict (R141, R144): in LIT a frame with no function on is recorded without judgement; one
without fault ends the run of failures; a fault lengthens it and ends probation, and the FAIL_FRAMES-th in a row
fails verification. Outside LIT nothing is judged. -/
def Obligations.TelltalesAndVerdicts : Prop :=
  (∀ s : State, fallback s ≠ 0 → (judgeHolder s).anv.holderMatrix = true ∧
    (judgeHolder s).anv.reason = fallback s ∧ (judgeHolder s).anv.probation = false) ∧
  (∀ s : State, fallback s = 0 → (judgeHolder s).anv.holderMatrix = s.anv.holderMatrix ∧
    (judgeHolder s).anv.reason = 0 ∧ (judgeHolder s).anv.probation = s.anv.holderMatrix) ∧
  (∀ s : State, s.anv.probation = true → s.anv.probCount = 7 → (probationStep s).anv.holderMatrix = false ∧
    (probationStep s).anv.probation = false) ∧
  (∀ s : State, s.anv.probation = true → s.anv.probCount < 7 → (probationStep s).anv.holderMatrix = s.anv.holderMatrix ∧
    (probationStep s).anv.probCount = s.anv.probCount + 1) ∧
  (∀ (t : Time) (m : List Meas) (s : State), s.hth.pwr ≠ .lit → exec (.frameVerdict t m) s = .next (s.at t)) ∧
  (∀ (t : Time) (m : List Meas) (s : State), s.hth.pwr = .lit → s.anv.onEnded = false →
    ∃ x, exec (.frameVerdict t m) s = .next x ∧ x.anv.verdict = 0 ∧ x.anv.failRun = s.anv.failRun ∧
      x.anv.verifyFailed = s.anv.verifyFailed) ∧
  (∀ (t : Time) (m : List Meas) (s : State), s.hth.pwr = .lit → s.anv.onEnded = true → frameFault (s.at t) m = none →
    ∃ x, exec (.frameVerdict t m) s = .next x ∧ x.anv.verdict = 1 ∧ x.anv.failRun = 0 ∧
      x.anv.verifyFailed = s.anv.verifyFailed) ∧
  (∀ (t : Time) (m : List Meas) (c e : Nat) (s : State), s.hth.pwr = .lit → s.anv.onEnded = true →
    frameFault (s.at t) m = some (c, e) →
    ∃ x, exec (.frameVerdict t m) s = .next x ∧ x.anv.verdict = 2 ∧ x.anv.failRun = min 15 (s.anv.failRun + 1) ∧
      x.anv.probation = false ∧
      (wfl s.anv.verifyConfig 4 2 ≤ min 15 (s.anv.failRun + 1) →
        x.anv.verifyFailed = true ∧ x.anv.holderMatrix = true ∧ x.anv.lastFail = c) ∧
      (min 15 (s.anv.failRun + 1) < wfl s.anv.verifyConfig 4 2 → x.anv.verifyFailed = s.anv.verifyFailed))

/-- The cameras (R142, R143, R549): a frame that covers the display is noted with its time; one with a wrong CRC only
raises ING_CSI_ERR; a camera that takes part and is silent for ANV_CAM_TIMEOUT is lost. The status bits the spec
leaves open are free values (log 11). Colour estimates and sensors (R158, R159, R183): an estimate 100 ms old is no
longer valid, one held for a second more is lost; a colour sensor silent for a second is lost, a reading ends the
loss; a gamut held for a second is stuck. -/
def Obligations.CamerasAndColourSensors : Prop :=
  (∀ (t : Time) (c : Fin 2) (a b : Bool) (l : List CamTest) (s : State), s.fastUp = true →
    exec (.cameraFrame t c true a b l) s = .next (raise evIngCsiErr (2 ^ c.val) (s.at t))) ∧
  (∀ (t : Time) (c : Fin 2) (s : State), s.fastUp = true → camActive s c = true →
    ∃ v, exec (.cameraFrame t c false true true []) s = .next { s.at t with
      free := s.free + 1, ing := { s.ing with csi := v },
      anv := { s.anv with cams := updWith s.anv.cams c fun k => { k with last := max s.now t } } }) ∧
  (∀ (t : Time) (c : Fin 2) (s : State), s.fastUp = true → camActive s c = true →
    s.anv.cams[c].last + s.anv.camTimeout.toNat * ms ≤ t →
    ∃ x, exec (.cameraTimeout t c) s = .next x ∧ x.anv.cams[c].lost = true ∧ x.anv.cams[c].part = false ∧
      (wb s.anv.verifyConfig 1 = true → x.anv.verifyFailed = true) ∧
      (wb s.anv.verifyConfig 1 = false → x.anv.verifyFailed = s.anv.verifyFailed)) ∧
  (∀ (t : Time) (c : Fin 2) (s : State), camActive s c = false → exec (.cameraTimeout t c) s = .next (s.at t)) ∧
  (∀ (t : Time) (c : Fin 24) (s : State), s.clw.est[c].valid = true → s.clw.est[c].at' + 100 * ms ≤ t →
    exec (.estimateValidTimeout t c) s = .next { s.at t with clw := { s.clw with
      est := updWith s.clw.est c fun x => { x with valid := false, holdDue := some (max s.now t + sec) } } }) ∧
  (∀ (t d : Time) (c : Fin 24) (s : State), s.clw.est[c].holdDue = some d → s.clw.est[c].valid = false → d ≤ t →
    exec (.estimateHoldExpiry t c) s = .next (raise evClwEstLost (2 ^ c.val) { s.at t with clw := { s.clw with
      est := updWith s.clw.est c fun x => { x with holdDue := none, lost := true } } })) ∧
  (∀ (t d : Time) (e : Fin 4) (s : State), s.clw.holdSince[e] = some d → d + sec ≤ t →
    exec (.gamutHoldTimeout t e) s = .next (raise evClwGamutStuck e.val (s.at t))) ∧
  (∀ (t : Time) (e : Fin 4) (s : State), s.clw.holdSince[e] = none →
    exec (.gamutHoldTimeout t e) s = .next (s.at t)) ∧
  (∀ (t : Time) (e : Fin 4) (s : State), s.fastUp = true → s.used e = true → s.clw.sensorAt[e] + sec ≤ t →
    s.clw.sensorLost.getLsbD e.val = false →
    ∃ x, exec (.colourSensorTimeout t e) s = .next x ∧ x.clw.sensorLost.getLsbD e.val = true ∧
      ∀ c : Fin 24, chanEng c = e → x.clw.est[c].sensor = false) ∧
  (∀ (t : Time) (e : Fin 4) (l m : List Int) (s : State), s.fastUp = true →
    ∃ x, exec (.colourSensorReading t e l m) s = .next x ∧ x.clw.sensorLost.getLsbD e.val = false ∧
      x.clw.sensorAt[e] = max s.now t ∧ x.srv.reading[e] = some (l, m))

/-- GAMUT_LOAD and WARP_LOAD (R171, R172, R513, R514): a valid gamut goes into the bank that is not live; WARP_LOAD
BEGIN starts the bank that is not live, and a slot can be cleared only after it; neither touches what is live. -/
def Obligations.GamutAndWarpLoads : Prop :=
  (∀ (t : Time) (rq : Req) (e : Fin 4) (s : State), serves 0x22 rq (s.at t) = true → byteAt rq.payload 0 = e.val →
    zeroAt rq.payload 1 3 = true → bankOk (slice rq.payload 4 64) = true → armedNames s (·.gamut) e = false →
    exec (.gamutLoad t rq) s = .next (finishReply rq .ok [] { takeReq rq (s.at t) with clw := { s.clw with
      gamut := updWith s.clw.gamut e fun v => upd v (other s.clw.gamutLive[e]) (some (slice rq.payload 4 64)) } })) ∧
  (∀ (t : Time) (rq : Req) (e : Fin 4) (s : State), serves 0x21 rq (s.at t) = true → byteAt rq.payload 0 = e.val →
    byteAt rq.payload 1 = 0 → byteAt rq.payload 3 = 0 → le16 rq.payload 4 = 0 → le16 rq.payload 6 = 0 →
    armedNames s (·.warp) e = false →
    exec (.warpLoad t rq) s = .next (finishReply rq .ok [] (warpBegin e (takeReq rq (s.at t))))) ∧
  (∀ (t : Time) (rq : Req) (e : Fin 4) (q : Fin 12) (s : State), serves 0x21 rq (s.at t) = true →
    byteAt rq.payload 0 = e.val → byteAt rq.payload 1 = 4 → byteAt rq.payload 2 = q.val →
    q.val / 3 < depthsOf s s.clw.depths e → byteAt rq.payload 3 = 0 → le16 rq.payload 4 = 0 → le16 rq.payload 6 = 0 →
    armedNames s (·.warp) e = false →
    exec (.warpLoad t rq) s = .next (if s.clw.warp[e].needBegin
      then finishReply rq .wrongState [] (takeReq rq (s.at t))
      else finishReply rq .ok [] (setSlot e q {} (takeReq rq (s.at t))))) ∧
  (∀ (e : Fin 4) (s : State), (warpBegin e s).clw.warp[e].live = s.clw.warp[e].live ∧
    (warpBegin e s).clw.warp[e].dirs[s.clw.warp[e].live] = s.clw.warp[e].dirs[s.clw.warp[e].live])

/-! ## The Granary -/

/-- REFRESH_INTERVAL (R362, R363), at which the model brings scrub and starvation up to date (logs 73, 74): with no port
in PANIC and none owed, one refresh is issued; in PANIC it is owed, up to eight, and the ninth is issued all the
same with GRN_REFRESH_FORCED; a pseudo-channel that does not work is not refreshed. Errors of the HBM (R365,
R367-R369): a parity error of a working pseudo-channel that its replays mend is only counted; a corrected error is
counted and logged, and waits for patrol scrub to write it back, an uncorrectable one is counted apart; patrol scrub
reads no location that it skips (R368); on one that does not work nothing happens. -/
def Obligations.RefreshAndErrors : Prop :=
  (∀ (t : Time) (c : Fin 64) (b : Bool) (s : State), pcWorks s c = true → anyPanic s = false → s.grn.pc[c].owed = 0 →
    exec (.refreshInterval t c b) s = .next (issueRefresh c b (starveTick (scrubTick (s.at t))))) ∧
  (∀ (t : Time) (c : Fin 64) (b : Bool) (s : State), pcWorks s c = true → anyPanic s = true → s.grn.pc[c].owed < 8 →
    ∃ x, exec (.refreshInterval t c b) s = .next x ∧
      x.grn.pc = updWith s.grn.pc c (fun p => { p with owed := p.owed + 1 }) ∧ x.grn.hbm = s.grn.hbm) ∧
  (∀ (t : Time) (c : Fin 64) (b : Bool) (s x : State), s.grn.pc[c].owed ≤ 8 → exec (.refreshInterval t c b) s = .next x →
    x.grn.pc[c].owed ≤ 8) ∧
  (∀ (t : Time) (c : Fin 64) (b : Bool) (s : State), pcWorks s c = false →
    exec (.refreshInterval t c b) s = .next (starveTick (scrubTick (s.at t)))) ∧
  (∀ (c : Fin 64) (b : Bool) (s : State), s.grn.pc[c].interval < 255 → issueRefresh c b s = { s with grn := { s.grn with
    pc := updWith s.grn.pc c fun p => { p with interval := s.grn.pc[c].interval + 1 } } }) ∧
  (∀ (t : Time) (c : Fin 64) (a p : Nat) (w : Bool) (s : State), pcWorks s c = true →
    exec (.parityError t c a p w false) s = .next (raiseIf (!s.grn.parityRaised) evGrnParity c.val { s.at t with
      grn := { s.grn with parityCount := satInc 32 s.grn.parityCount, parityRaised := true } })) ∧
  (∀ (t : Time) (c : Fin 64) (a p : Nat) (y : Byte) (s : State), pcWorks s c = true →
    (p ≠ 12 ∨ scrubSkips s a = false) →
    exec (.eccError t c a p false y) s = .next (eccCorrected c a p y.toNat (s.at t)) ∧
    exec (.eccError t c a p true y) s = .next (eccUncorrectable c a p y.toNat (s.at t))) ∧
  (∀ (c : Fin 64) (a p y : Nat) (s : State), (eccCorrected c a p y s).grn.ceCount = satInc 32 s.grn.ceCount ∧
    (eccCorrected c a p y s).grn.ueCount = s.grn.ueCount ∧ (eccCorrected c a p y s).grn.hbm = s.grn.hbm ∧
    (p ≠ 12 → a / 64 ∈ (eccCorrected c a p y s).grn.scrubBack)) ∧
  (∀ (t : Time) (c : Fin 64) (a : Nat) (b : Bool) (y : Byte) (s : State), scrubSkips s a = true →
    exec (.eccError t c a 12 b y) s = .next (s.at t)) ∧
  (∀ (t : Time) (c : Fin 64) (a p : Nat) (w b : Bool) (y : Byte) (s : State), pcWorks s c = false →
    exec (.parityError t c a p w b) s = .next (s.at t) ∧ exec (.eccError t c a p b y) s = .next (s.at t))

/-- Patrol scrub and FRAME_SYNC_OUT (R333, R368): while background service is withheld patrol scrub stands; otherwise
the pass that runs began at most SCRUB_PERIOD ago and has not passed its end, and nothing waits to be written back;
it skips the plane buffers of an engine that is MAE. FRAME_SYNC_OUT rises at a frame start with SYNC_OUT_EN 1,
stands for 10 us, and is low in SLEEP and OFF. How far a pass has come is counted as log 73 says. -/
def Obligations.ScrubAndFrameSync : Prop :=
  (∀ s : State, withheld s = true → scrubTick s = s) ∧
  (∀ (a : Time) (s : State), grnServes s = true → withheld s = false → s.grn.scrubFrom = some a → a ≤ s.now →
    0 < wfl s.grn.config 16 8 →
    ∃ b, (scrubTick s).grn.scrubFrom = some b ∧ a ≤ b ∧ b ≤ s.now ∧ s.now < b + wfl s.grn.config 16 8 * sec ∧
      (scrubTick s).grn.scrubAt ≤ scrubBytes s ∧ (scrubTick s).grn.scrubBack = [] ∧
      (scrubTick s).grn.hbm = s.grn.hbm) ∧
  (∀ (a : Nat) (e : Fin 4) (s : State), s.isMae e = true → e.val * 0x40000000 ≤ a → a < e.val * 0x40000000 + 1061683200 →
    scrubSkips s a = true) ∧
  (∀ s : State, wb s.tng.config 26 = true → s.hth.pwr ≠ .sleep → s.hth.pwr ≠ .off →
    (syncFrame s).tng.syncOut = some s.now ∧ syncHigh (syncFrame s) = true) ∧
  (∀ (a : Time) (s : State), s.tng.syncOut = some a → a + 10 * us ≤ s.now → syncHigh s = false) ∧
  (∀ s : State, (s.hth.pwr = .sleep ∨ s.hth.pwr = .off) → syncHigh s = false)

/-- Training (R372-R374, R521, R522): MEM_TRAIN replies PENDING and retrains the working pseudo-channels it names; a
mask of zero is refused; RETRAIN_COMPLETE ends one pseudo-channel's training, and does nothing to one that is not in
training. MEM_STATUS replies with the status first and, unless asked to, clears no log. Every named pseudo-channel
that works is then in training. -/
def Obligations.MemoryTraining : Prop :=
  (∀ (t : Time) (rq : Req) (s : State), serves 0x40 rq (s.at t) = true → leNat rq.payload ≠ 0 → s.hth.pwr ≠ .standby →
    exec (.memTrain t rq) s = .next (trainSettle (finishReply rq .pending []
      (memTrainRun rq (takeReq rq (s.at t))).1))) ∧
  (∀ (t : Time) (rq : Req) (s : State), serves 0x40 rq (s.at t) = true → leNat rq.payload = 0 →
    exec (.memTrain t rq) s = .next (trainSettle (finishReply rq .badParam [] (takeReq rq (s.at t))))) ∧
  (∀ (t : Time) (c : Fin 64) (b : Bool) (l : List (Nat × Int)) (s : State), s.grn.pc[c].retraining = true →
    exec (.retrainComplete t c true b l) s = .next (trainTick c (trainTaps c l { s.at t with grn := { s.grn with
      pc := updWith s.grn.pc c fun p => { p with retraining := false } } }))) ∧
  (∀ (t : Time) (c : Fin 64) (a b : Bool) (l : List (Nat × Int)) (s : State), s.grn.pc[c].retraining = false →
    exec (.retrainComplete t c a b l) s = .next (s.at t)) ∧
  (∀ (t : Time) (rq : Req) (s : State), serves 0x41 rq (s.at t) = true → byteAt rq.payload 1 ≤ 62 →
    byteAt rq.payload 2 = 0 → zeroAt rq.payload 3 1 = true →
    ∃ p n, exec (.memStatus t rq) s = .next (finishReply rq .ok p { takeReq rq (s.at t) with free := n }) ∧
      p.take 4 = leBytes 4 (grnStatus s) ∧ s.free ≤ n) ∧
  (∀ (rq : Req) (c : Fin 64) (s : State), bit (leNat rq.payload) c.val = true → pcInUse s c = true →
    s.grn.pc[c].failed = false → (memTrainRun rq s).1.grn.pc[c].retraining = true)

/-! ## Temperature and calibration -/

/-- The die sensors (R383-R385, R388): a second sample in a row at or above 140 degrees C of a working sensor is a TRIP,
which takes the level to TRIP; one alone is only counted; a reading is taken whole; a sensor suspect for the dwell
fails. The thermal levels (R387, R389, R391, R402): a completed dwell takes the level up, with THM_WARN and
THM_THROTTLE on the way; the hold of a failed sensor ends when due; the throttle factor moves by 8 a step and stays
within its limits. Stack sensors, NTCs and process monitors (R383, R386, R390, R400): a stack reading above 105 or
85 degrees C takes the stack's level to at least 2 or 1; a silent stack sensor fails and its stack counts as above
105 degrees C; the level falls after its dwell; an NTC shows the mean of its last ten samples; a slow process
monitor is said once. THERMAL_POLICY (R401, R523): a value within its fields' ranges becomes THM_POLICY; another is
refused with BAD_PARAM and changes nothing. -/
def Obligations.SensorsAndThermalPolicy : Prop :=
  (∀ (t : Time) (i : Fin 40) (v : Int) (s : State), sensorsRun s = true → dieWorks s i = true → 2240 ≤ v →
    s.thm.tripRun[i] = 0 →
    exec (.dieSensorSample t i v) s = .next { s.at t with thm := { s.thm with tripRun := upd s.thm.tripRun i 1 } }) ∧
  (∀ (t : Time) (i : Fin 40) (v : Int) (s : State), sensorsRun s = true → v < 2240 →
    exec (.dieSensorSample t i v) s = .next { s.at t with thm := { s.thm with tripRun := upd s.thm.tripRun i 0 } }) ∧
  (∀ (t : Time) (i : Fin 40) (v : Int) (s : State), sensorsRun s = true → dieWorks s i = true → 2240 ≤ v →
    1 ≤ s.thm.tripRun[i] →
    ∃ x, exec (.dieSensorSample t i v) s = .next x ∧ x.thm.level = 4) ∧
  (∀ (t : Time) (v : Vector Int 40) (s : State), sensorsRun s = true →
    ∃ x, exec (.dieSensorReading t v) s = .next x ∧ x.thm.die = v) ∧
  (∀ (t d : Time) (i : Fin 40) (s : State), s.thm.suspect[i] = some d → d + dwell ≤ t →
    exec (.sensorSuspectExpiry t i) s = .next (dieFail i (s.at t))) ∧
  (∀ (i : Fin 40) (s : State), dieFailed (dieFail i s) i = true ∧ (dieFail i s).thm.suspect[i] = none) ∧
  (∀ (t : Time) (s : State), sensorsRun s = true → s.thm.level < levelUp (s.at t) → levelUp (s.at t) ≠ 3 →
    exec (.levelDwellExpiry t) s = .next (setLevel (levelUp (s.at t)) (s.at t))) ∧
  (∀ (t : Time) (s : State), sensorsRun s = true → levelUp (s.at t) ≤ s.thm.level →
    levelDown (s.at t) s.thm.level < s.thm.level →
    exec (.levelDwellExpiry t) s = .next (setLevel (levelDown (s.at t) s.thm.level) (s.at t))) ∧
  (∀ (n : Nat) (s : State), ∃ e, setLevel n s = { s with thm := { s.thm with level := n }, evt := e }) ∧
  (∀ (t d : Time) (s : State), s.thm.holdDue = some d → d ≤ t →
    exec (.throttleHoldExpiry t) s = .next (dieDwells { s.at t with thm := { s.thm with holdDue := none } })) ∧
  (∀ (t : Time) (s : State), s.fastUp = true → s.thm.throttle ≤ 256 →
    ∃ g, exec (.throttleStep t) s = .next { s.at t with thm := { s.thm with throttle := g } } ∧ g ≤ 256 ∧
      (2 ≤ s.thm.level → wfl s.thm.policy 24 8 + 8 ≤ s.thm.throttle → g = s.thm.throttle - 8) ∧
      (s.thm.level < 2 → g = min 256 (s.thm.throttle + 8))) ∧
  (∀ (t : Time) (k : Fin 2) (v : Int) (s : State), sensorsRun s = true → s.thm.stackFailed.getLsbD k.val = false →
    ∃ x, exec (.stackSensorReading t k v) s = .next x ∧ x.thm.stack[k] = v ∧ x.thm.stackAt[k] = max s.now t ∧
      s.thm.stackLevel[k] ≤ x.thm.stackLevel[k] ∧ (1680 < v → 2 ≤ x.thm.stackLevel[k]) ∧
      (1360 < v → 1 ≤ x.thm.stackLevel[k])) ∧
  (∀ (t : Time) (k : Fin 2) (s : State), sensorsRun s = true → s.thm.stackFailed.getLsbD k.val = false →
    s.thm.stackAt[k] + 10 * ms ≤ max s.now t →
    ∃ x, exec (.stackSensorTimeout t k) s = .next x ∧ x.thm.stackFailed.getLsbD k.val = true ∧
      x.thm.stackLevel[k] = 2) ∧
  (∀ (t d : Time) (k : Fin 2) (s : State), sensorsRun s = true → s.thm.stackFailed.getLsbD k.val = false →
    s.thm.stackBelow[k].1 = some d → d + dwell ≤ t →
    ∃ x, exec (.stackLevelDwellExpiry t k) s = .next x ∧ x.thm.stackLevel[k] = 0) ∧
  (∀ (t : Time) (m : Fin 8) (v : Int) (s : State), sensorsRun s = true → s.thm.ntcFailed.getLsbD m.val = false →
    -960 ≤ v → v ≤ 2560 →
    exec (.ntcReading t m v) s = .next { s.at t with thm := { s.thm with
      ntcHist := upd s.thm.ntcHist m ((v :: s.thm.ntcHist[m]).take 10),
      ntc := upd s.thm.ntc m (rdivI (sumI ((v :: s.thm.ntcHist[m]).take 10)) ((v :: s.thm.ntcHist[m]).take 10).length) } }) ∧
  (∀ (t : Time) (v : Vector Nat 8) (s : State), sensorsRun s = true →
    (s.thm.aged = true ∨ ∀ m : Fin 8, v[m] ≤ 4423) →
    exec (.processMonitorMeasure t v) s = .next { s.at t with thm := { s.thm with process := v } }) ∧
  (∀ (t : Time) (rq : Req) (s : State), serves 0x48 rq (s.at t) = true → policyOk (toW (le32 rq.payload 0)) = true →
    exec (.thermalPolicy t rq) s = .next (finishReply rq .ok [] { takeReq rq (s.at t) with
      thm := { s.thm with policy := toW (le32 rq.payload 0) } })) ∧
  (∀ (t : Time) (rq : Req) (s : State), serves 0x48 rq (s.at t) = true → policyOk (toW (le32 rq.payload 0)) = false →
    exec (.thermalPolicy t rq) s = .next (finishReply rq .badParam [] (takeReq rq (s.at t))))

/-- A measurement of a tap (R404; R239 for a skew tap, whose target comes from the SKEW of the last frame): within the
checks it queues a step of the tap towards its target, or none when the tap is there; a failed precondition is
counted, saturating; a move takes the working value one unit and keeps the stored one. CAL_CONTROL and CAL_READ
(R524, R525): op 0 sets the enables, RESTORE in LIT is refused, SAVE replies PENDING and makes a write due; a read
returns one record a tap and changes nothing. The journal (R412-R415): a write that is due and free to begin
invalidates the slot that does not hold the newest record; a read-back that matches makes it the newest and its
values the stored ones; one that fails leaves it invalid, and the write is due again; a refused write is tried a
second later. -/
def Obligations.TemperAndCalibration : Prop :=
  (∀ (t : Time) (q : Fin 7) (k : Nat) (f g : Int) (s : State), temperOn s q = true → k < tapCount q →
    s.tmp.frozen[q].contains k = false → stepBusy s q k = false → tapSteady s q k = true → tapTarget s q k f = some g →
    tapLo q ≤ g → g ≤ tapHi q →
    (g - tapStored s q k).natAbs ≤ 2 → g ≠ tapWorking s q k →
    exec (.temperMeasurementWindow t q k true f) s = .next { s.at t with tmp := { s.tmp with
      runs := updWith s.tmp.runs q fun l => put l k 0, steps := updWith s.tmp.steps q fun l => l ++ [(k, g)] } }) ∧
  (∀ (k : Nat) (f d : Int) (s : State), s.swt[tapEngine 1 k].skew[k % 8]? = some d →
    tapTarget s 1 k f = some (tapWorking s 1 k - d)) ∧
  (∀ (q : Fin 7) (k : Nat) (f : Int) (s : State), 2 ≤ q.val → tapTarget s q k f = some f) ∧
  (∀ (t : Time) (q : Fin 7) (k : Nat) (g : Int) (s : State), temperOn s q = true → k < tapCount q →
    s.tmp.frozen[q].contains k = false → stepBusy s q k = false →
    exec (.temperMeasurementWindow t q k false g) s = .next { s.at t with tmp := { s.tmp with
      preFails := updWith s.tmp.preFails q (satInc 16) } }) ∧
  (∀ (t : Time) (q : Fin 7) (k : Nat) (g : Int) (s : State), look s.tmp.steps[q] k = some g → temperOn s q = true →
    tapSteady s q k = true → moveWins s q k = true →
    exec (.temperMove t q k) s = .next (applyMove q k g (s.at t))) ∧
  (∀ (q : Fin 7) (k : Nat) (g : Int) (s : State), k < s.tmp.working[q].length →
    tapWorking (applyMove q k g s) q k = oneTowards (tapWorking s q k) g ∧
    (applyMove q k g s).tmp.stored = s.tmp.stored) ∧
  (∀ v g : Int, (oneTowards v g - v).natAbs ≤ 1 ∧ (g - oneTowards v g).natAbs ≤ (g - v).natAbs) ∧
  (∀ (t : Time) (rq : Req) (s : State), serves 0x50 rq (s.at t) = true → byteAt rq.payload 0 = 0 →
    zeroAt rq.payload 1 3 = true → le32 rq.payload 4 < 128 →
    exec (.calControl t rq) s = .next (finishReply rq .ok [] { takeReq rq (s.at t) with
      tmp := { s.tmp with enable := toW (le32 rq.payload 4) } })) ∧
  (∀ (t : Time) (rq : Req) (s : State), serves 0x50 rq (s.at t) = true → byteAt rq.payload 0 = 2 →
    zeroAt rq.payload 1 3 = true → le32 rq.payload 4 < 128 → s.hth.pwr = .lit →
    exec (.calControl t rq) s = .next (finishReply rq .wrongState [] (takeReq rq (s.at t)))) ∧
  (∀ (t : Time) (rq : Req) (s : State), serves 0x50 rq (s.at t) = true → byteAt rq.payload 0 = 3 →
    zeroAt rq.payload 1 3 = true → le32 rq.payload 4 = 0 → s.tmp.writeFails < 3 →
    exec (.calControl t rq) s = .next (finishReply rq .pending [] { takeReq rq (s.at t) with
      tmp := { s.tmp with save := some (reqKey rq), due := true } })) ∧
  (∀ (t : Time) (rq : Req) (q : Fin 7) (s : State), serves 0x51 rq (s.at t) = true → byteAt rq.payload 0 = q.val →
    zeroAt rq.payload 1 1 = true → zeroAt rq.payload 6 2 = true → 1 ≤ le16 rq.payload 4 → le16 rq.payload 4 ≤ 255 →
    le16 rq.payload 2 + le16 rq.payload 4 ≤ tapCount q →
    ∃ p, exec (.calRead t rq) s = .next (finishReply rq .ok p (takeReq rq (s.at t))) ∧
      p.length = 4 + 4 * le16 rq.payload 4) ∧
  (∀ (t : Time) (s : State), journalDue (s.at t) = true → journalFree (s.at t) = true → s.tmp.retryDue = none →
    writeRefused (s.at t) = none →
    ∃ x, exec (.journalWriteStart t) s = .next x ∧ x.flash.journal[journalTarget s] = none ∧
      x.flash.journal[other (journalTarget s)] = s.flash.journal[other (journalTarget s)] ∧
      ∃ w, x.tmp.writing = some w ∧ w.slot = journalTarget s ∧ w.record.taps = s.tmp.working) ∧
  (∀ (t : Time) (st : Status) (s : State), journalDue (s.at t) = true → journalFree (s.at t) = true → s.tmp.retryDue = none →
    s.tmp.save = none → writeRefused (s.at t) = some st →
    exec (.journalWriteStart t) s = .next { s.at t with tmp := { s.tmp with
      due := true, retryDue := some (max s.now t + sec) } }) ∧
  (∀ (t : Time) (w : JWrite) (s : State), s.tmp.writing = some w →
    ∃ x, exec (.journalWriteComplete t true) s = .next x ∧ x.tmp.writing = none ∧ x.tmp.stored = w.record.taps ∧
      x.tmp.newest = some w.slot ∧ x.tmp.writeFails = 0 ∧ x.flash.journal[w.slot] = some w.record) ∧
  (∀ (t : Time) (w : JWrite) (s : State), s.tmp.writing = some w →
    ∃ x, exec (.journalWriteComplete t false) s = .next x ∧ x.tmp.writing = none ∧ x.tmp.due = true ∧
      x.tmp.writeFails = min 3 (s.tmp.writeFails + 1) ∧ x.flash.journal = s.flash.journal) ∧
  (∀ (t d : Time) (s : State), s.tmp.retryDue = some d → d ≤ t →
    ∃ x, exec (.journalRetry t) s = .next x ∧ (s.tmp.due = true →
      journalFree { s.at t with tmp := { s.tmp with retryDue := none } } = true →
      writeRefused (s.at t) = none → x.tmp.writing.isSome = true))

/-! ## Self-test and repair -/

/-- The march and starvation (R421-R424, R484-R486): a slice starts when its owner has been idle long enough and the
instance's test is on; the last slice with equal signatures ends the pass as passed; an abort abandons the slice and
counts; the pass limit ends a pass that is not whole. An activity that has starved for its maximum time waits for
its guaranteed slot, which a slice takes; starvation is counted as log 74 says. A pass that ended is no longer under
way. BIST_RUN, BIST_RESULT and repairs (R418, R430-R433, R526, R527): an undefined kind is refused; a destructive
kind replies PENDING, HBM_FULL leaves free values in the HBM (the model's reading: log 64) and its completion arms
the reset 10 ms later; a result read changes nothing; a repair record whose read-back matches becomes the newest,
one that does not is tried again, three times. -/
def Obligations.SelfTestAndRepair : Prop :=
  (∀ (t : Time) (i n : Nat) (s : State), slicesOf i ≠ 0 → (wb s.bst.config 0 || s.bst.asked.contains i) = true →
    marchState (s.at t) i = true → instRuns (s.at t) i = true → s.bst.slice = none → 16 ≤ n →
    ∃ x, exec (.marchSliceStart t i n true) s = .next x ∧ x.bst.slice = some i ∧ (passOf x i).isSome = true ∧
      x.bst.starved.contains (0x100 + i) = false) ∧
  (∀ (t : Time) (i n : Nat) (b : Bool) (s : State), s.bst.slice.isSome = true →
    exec (.marchSliceStart t i n b) s = .next (s.at t)) ∧
  (∀ (t : Time) (i v : Nat) (m : March) (s : State), passOf s i = some m → s.bst.slice = some i →
    m.done + 1 < slicesOf i →
    exec (.marchSliceComplete t i v v none) s = .next { s.at t with bst := { s.bst with
      slice := none, march := s.bst.march.map fun x => if x.inst = i then { m with done := m.done + 1 } else x } }) ∧
  (∀ (t : Time) (i : Nat) (s : State), s.bst.slice = some i →
    exec (.marchSliceAbort t i) s = .next (sliceAbandon (s.at t)) ∧ (sliceAbandon (s.at t)).bst.slice = none) ∧
  (∀ (t : Time) (i : Nat) (m : March) (s : State), passOf s i = some m → s.bst.slice = none →
    m.began + wfl s.bst.config 16 8 * sec ≤ t →
    exec (.passLimitExpiry t i) s = .next (passEnds m false (s.at t))) ∧
  (∀ (t : Time) (a m : Nat) (s : State), starveMax a = some m → 0x100 ≤ a →
    m ≤ (look (starveTick (s.at t)).bst.starving a).getD 0 → s.bst.starved.contains a = false →
    ∃ x, exec (.starvationExpiry t a) s = .next x ∧ x.bst.starved.contains a = true) ∧
  (∀ (t : Time) (a m : Nat) (s : State), starveMax a = some m →
    (look (starveTick (s.at t)).bst.starving a).getD 0 < m →
    exec (.starvationExpiry t a) s = .next (starveTick (s.at t))) ∧
  (∀ (t : Time) (a : Nat) (s : State), starveMax a = none →
    exec (.starvationExpiry t a) s = .next (starveTick (s.at t))) ∧
  (∀ a : Nat, (12 ≤ a → a < 16 → starveMax a = some (50 * ms)) ∧
    (slicesOf (a - 0x100) ≠ 0 → 0x100 ≤ a → starveMax a = some (100 * ms))) ∧
  (∀ (m : March) (w : Bool) (s : State), passOf (passEnds m w s) m.inst = none ∧
    (passEnds m w s).bst.slice = s.bst.slice) ∧
  (∀ (t : Time) (rq : Req) (s : State), serves 0x58 rq (s.at t) = true → 2 ≤ byteAt rq.payload 0 →
    byteAt rq.payload 0 ≤ 3 → zeroAt rq.payload 1 3 = true → leNat (slice rq.payload 4 8) = 0 →
    exec (.bistRun t rq) s = .next (finishReply rq .pending [] { takeReq rq (s.at t) with
      bst := { s.bst with run := some (byteAt rq.payload 0, reqKey rq) } })) ∧
  (∀ (t : Time) (rq : Req) (s : State), serves 0x58 rq (s.at t) = true → byteAt rq.payload 0 = 4 →
    zeroAt rq.payload 1 3 = true → leNat (slice rq.payload 4 8) = 0 →
    exec (.bistRun t rq) s = .next (finishReply rq .pending [] { takeReq rq (s.at t) with
      free := s.free + 1, bst := { s.bst with run := some (4, reqKey rq) },
      grn := { s.grn with spoilt := some s.free } })) ∧
  (∀ (t : Time) (rq : Req) (s : State), serves 0x58 rq (s.at t) = true →
    (byteAt rq.payload 0 = 0 ∨ 6 < byteAt rq.payload 0) →
    exec (.bistRun t rq) s = .next (finishReply rq .badParam [] (takeReq rq (s.at t)))) ∧
  (∀ (t : Time) (k : Nat) (key : PendKey) (b : Bool) (f g : List (Nat × Nat × Nat × Nat)) (s : State),
    s.bst.run = some (k, key) → k ≠ 5 → k ≠ 6 →
    ∃ x, exec (.bistRunComplete t b f g) s = .next x ∧ x.hth.resetDue = some (max s.now t + 10 * ms) ∧
      x.bst.run = none) ∧
  (∀ (t : Time) (key : PendKey) (f g : List (Nat × Nat × Nat × Nat)) (s : State), s.bst.run = some (5, key) →
    ∃ x, exec (.bistRunComplete t true f g) s = .next x ∧ x.hth.resetDue = s.hth.resetDue ∧
      x.otp.fusedRepairs = s.otp.fusedRepairs ++ s.bst.applied ∧ x.bst.applied = []) ∧
  (∀ (t : Time) (rq : Req) (s : State), serves 0x59 rq (s.at t) = true → 1 ≤ byteAt rq.payload 1 →
    byteAt rq.payload 1 ≤ 64 → zeroAt rq.payload 2 2 = true →
    ∃ p, exec (.bistResult t rq) s = .next (finishReply rq .ok p (takeReq rq (s.at t))) ∧
      p.length ≤ 16 * byteAt rq.payload 1) ∧
  (∀ (t d : Time) (s : State), s.bst.repairDue = some d → s.bst.writeFails < 3 → s.hth.trans = none →
    writeRefused (s.at t) = none →
    exec (.repairRecordWrite t true) s = .next (repairWrite true (s.at t))) ∧
  (∀ s : State, (repairWrite true s).bst.newest = some (repairTarget s) ∧ (repairWrite true s).bst.writeFails = 0 ∧
    (repairWrite true s).flash.repair[repairTarget s] = some (repairImage s)) ∧
  (∀ s : State, (repairWrite false s).bst.writeFails = s.bst.writeFails + 1 ∧
    (repairWrite false s).bst.newest = s.bst.newest ∧ (repairWrite false s).flash.repair[repairTarget s] = none)

/-! ## Brugo Link -/

/-- The ports (R439, R440): a training port whose bring-up completes is UP and the device makes itself known; silence, a
lost lock and a flit sent eight times in vain take it down, with BRG_PORT_DOWN and bring-up at once; before, the
flit is sent again. Delay measurement (R444): each 10 ms an UP port asks; a question is answered; an answer becomes
one measurement and the last 16 are kept. Lost partners (R442, R447, R454-R456): a member silent for two frame
periods leaves membership; a worker without marks for one and a half periods has lost its manager; eight mismatched
marks in a row make it refuse marks until reset; a worker without three mirrors takes its owner for stale; the
manager mirrors the states 250 us before a frame start. -/
def Obligations.PortsDelaysAndLostPartners : Prop :=
  (∀ (t : Time) (p : Fin 2) (s : State), (s.brg.ports[p].st = .training ∨ s.brg.ports[p].st = .down) →
    s.tng.pll[(2 : Fin 4)].locked = true →
    ∃ x, exec (.brugoPortUp t p) s = .next x ∧ x.brg.ports[p].st = .up ∧ x.brg.sent = .enumSelf :: s.brg.sent) ∧
  (∀ (t : Time) (p : Fin 2) (s : State), exec (.brugoPortSilence t p) s = .next (portDown p (s.at t)) ∧
    exec (.brugoCodewordLockLoss t p) s = .next (portDown p (s.at t))) ∧
  (∀ (p : Fin 2) (s : State), s.brg.ports[p].st = .up →
    (portDown p s).brg.ports[p].st = if s.tng.pll[(2 : Fin 4)].locked then .training else .down) ∧
  (∀ (p : Fin 2) (s : State), s.brg.ports[p].st ≠ .up → portDown p s = s) ∧
  (∀ (t : Time) (p : Fin 2) (n k : Nat) (s : State), s.brg.ports[p].st = .up → n < 256 →
    look s.brg.ports[p].unacked n = some k → k < 8 →
    exec (.flitResendTimeout t p n) s = .next { s.at t with brg := { s.brg with
      ports := updWith s.brg.ports p fun x => { x with unacked := put x.unacked n (k + 1) } } }) ∧
  (∀ (t : Time) (p : Fin 2) (n k : Nat) (s : State), s.brg.ports[p].st = .up → n < 256 →
    look s.brg.ports[p].unacked n = some k → 8 ≤ k →
    exec (.flitResendTimeout t p n) s = .next (portDown p (s.at t))) ∧
  (∀ (t a : Time) (p : Fin 2) (s : State), s.brg.ports[p].st = .up →
    exec (.delayReqReceive t p a) s = .next { s.at t with brg := { s.brg with
      sent := .delayResp (max s.now t) (max s.now t) :: s.brg.sent } }) ∧
  (∀ (t a b c : Time) (p : Fin 2) (s : State), s.brg.ports[p].asked = some a →
    exec (.delayRespReceive t p b c) s = .next { s.at t with brg := { s.brg with
      ports := updWith s.brg.ports p fun x => { x with
        asked := none, delays := (((max s.now t - a) - (c - b)) / 2 :: x.delays).take 16 } } }) ∧
  (∀ (t b c : Time) (p : Fin 2) (s : State), s.brg.ports[p].asked = none →
    exec (.delayRespReceive t p b c) s = .next (s.at t)) ∧
  (∀ (t : Time) (s : State), ∃ x, exec (.delayMeasureTimer t) s = .next x ∧
    ∀ p : Fin 2, x.brg.ports[p].asked = if s.brg.ports[p].st = .up then some (max s.now t) else s.brg.ports[p].asked) ∧
  (∀ (t : Time) (d : Fin 8) (w : Worker) (s : State), s.hth.role = 1 → w ∈ s.brg.workers → w.number = d.val →
    w.member = true → w.lastStatus + 2 * s.tng.framePeriod ≤ t →
    ∃ x, exec (.memberStatusTimeout t d) s = .next x ∧ ∀ v ∈ x.brg.workers, v.number = d.val → v.member = false) ∧
  (∀ (t : Time) (s : State), s.hth.role = 2 → s.brg.numbered = true → s.brg.mark = none → s.brg.mgrLost = false →
    ∃ x, exec (.managerLoss t) s = .next x ∧ x.brg.mgrLost = true) ∧
  (∀ (t : Time) (s : State), s.hth.role = 2 → 8 ≤ s.brg.mismatch → s.brg.refuse = false →
    ∃ x, exec (.refclkMismatchCount t) s = .next x ∧ x.brg.refuse = true ∧ x.brg.mgrLost = true) ∧
  (∀ (t : Time) (s : State), s.hth.role = 2 → 3 ≤ s.brg.mirrorMiss → s.anv.ownerStale = false →
    ∃ x, exec (.mirrorMissingCount t) s = .next x ∧ x.anv.ownerStale = true ∧ x.anv.holderMatrix = true) ∧
  (∀ (t : Time) (s : State), s.hth.role = 1 → hasMembers s = true →
    s.tng.frameAt + s.tng.framePeriod ≤ t + 250 * us → s.brg.mirrorSent ≠ s.brg.frame + 1 →
    ∃ m, exec (.anvilMirrorSend t) s = .next { s.at t with brg := { s.brg with
        sent := .mirror m :: s.brg.sent, mirror := some m, mirrorSent := s.brg.frame + 1 } } ∧
      m.frame = s.brg.frame + 1 ∧ m.states = s.anv.states.toList.map (·.toNat) ∧ m.ownerStale = s.anv.ownerStale)

/-- Messages to the manager (R437, R447, R457, R79): ENUM numbers the worker, STATUS keeps membership, EVENT joins the
forwarded queue and REPLY answers the request that waits for it; each only as a first copy for this device. A worker
that replies is waited for no more; a worker whose STATUS says that its aligner is locked is a member. Messages to a
worker (R437, R439, R443, R453): it takes its number from its manager, joins packets to its interpreter, follows the
manager's marks and shows the mirrored states. After a mark it counts the manager's frames and has its manager. -/
def Obligations.MessagesOfManagerAndWorker : Prop :=
  (∀ (t : Time) (f : Flit) (m : EnumMsg) (s : State), hears 1 f s = true →
    exec (.enumReceive t f m) s = .next (enumManager f m (flitTaken f (s.at t)))) ∧
  (∀ (t : Time) (f : Flit) (m : WorkerStatus) (s : State), hears 1 f s = true →
    exec (.brugoStatusReceive t f m) s = .next (statusTake f.src m (flitTaken f (s.at t)))) ∧
  (∀ (t : Time) (f : Flit) (l : List EvRec) (s : State), hears 1 f s = true →
    exec (.brugoEventReceive t f l) s = .next (l.foldl (fun b r => fwdPush f.src r b) (flitTaken f (s.at t)))) ∧
  (∀ (t : Time) (f : Flit) (b : List Byte) (s : State), hears 1 f s = true →
    exec (.brugoReplyReceive t f b) s = .next (replyTake f.src b (flitTaken f (s.at t)))) ∧
  (∀ (f : Flit) (m : EnumMsg) (s : State), m.isManager = false → (s.brg.workers.find? fun w => w.uid == m.uid) = none →
    m.count = 0 → s.brg.workers.length < 7 → (∀ w ∈ s.brg.workers, 1 ≤ w.number ∧ w.number ≤ 7) →
    ∃ n, 1 ≤ n ∧ n ≤ 7 ∧ (∀ w ∈ s.brg.workers, w.number ≠ n) ∧
      ((enumManager f m s).brg.workers.map (·.number)) = s.brg.workers.map (·.number) ++ [n]) ∧
  (∀ (n : Nat) (r : EvRec) (s : State), s.evt.fwd.length ≤ 64 → (fwdPush n r s).evt.fwd.length ≤ 64) ∧
  (∀ (n k : Nat) (b : List Byte) (f : Fwd) (s : State), s.brg.fwds = [f] → f.waiting = [n, k] → n ≠ k →
    f.rq.opcode = byteAt b 1 → f.rq.tag = b.getD 2 0 →
    ∃ g, (replyTake n b s).brg.fwds = [g] ∧ g.waiting = [k] ∧ g.status = f.status ++ [(n, byteAt b 3 % 128)]) ∧
  (∀ (n : Nat) (m : WorkerStatus) (w : Worker) (s : State), s.brg.workers = [w] → w.number = n → m.alignerOk = true →
    ∃ v, (statusTake n m s).brg.workers = [v] ∧ v.number = n ∧ v.member = true ∧ v.lastStatus = s.now) ∧
  (∀ (t : Time) (f : Flit) (m : EnumMsg) (s : State), hears 2 f s = true →
    exec (.enumReceive t f m) s = .next (enumWorker f m (flitTaken f (s.at t)))) ∧
  (∀ (f : Flit) (m : EnumMsg) (s : State), m.isManager = true → s.brg.manager = none → 1 ≤ m.number → m.number ≤ 7 →
    (enumWorker f m s).brg.devnum = m.number ∧ (enumWorker f m s).brg.manager = some m.uid ∧
    (enumWorker f m s).brg.numbered = true) ∧
  (∀ (t : Time) (f : Flit) (b : List Byte) (s : State), hears 2 f s = true →
    exec (.brugoCmdReceive t f b) s = .next (packetIn .brugo b (flitTaken f (s.at t)))) ∧
  (∀ (t : Time) (f : Flit) (m : TimeMark) (s : State), hears 2 f s = true → s.brg.refuse = false →
    exec (.timeMarkReceive t f m) s = .next (markAccept f m (flitTaken f (s.at t)))) ∧
  (∀ (t : Time) (f : Flit) (m : TimeMark) (s : State), hears 2 f s = true → s.brg.refuse = true →
    exec (.timeMarkReceive t f m) s = .next (flitTaken f (s.at t))) ∧
  (∀ (t : Time) (f : Flit) (m : Mirror) (s : State), hears 2 f s = true →
    exec (.anvilMirrorReceive t f m) s = .next (mirrorTake m (flitTaken f (s.at t)))) ∧
  (∀ (m : Mirror) (i : Fin 256) (s : State), m.states.length = 256 →
    (mirrorTake m s).anv.states[i] = BitVec.ofNat 2 (m.states.getD i.val 0) ∧
    (mirrorTake m s).brg.mirror = some m ∧ (mirrorTake m s).anv.ownerStale = m.ownerStale) ∧
  (∀ (f : Flit) (m : TimeMark) (s : State), (markAccept f m s).brg.frame = m.frame ∧
    (markAccept f m s).brg.mgrLost = false)

/-- The barrier (R446, R448, R449): votes and acknowledgements are taken from the workers it names; at its decision
deadline a missing vote counts as NO, so that it ends in CANCEL; a whole set of YES votes ends in APPLY; a missing
acknowledgement at the second deadline cancels it. The barrier on a worker (R448): PREPARE of a commit is validated
and voted on; APPLY is acknowledged once; CANCEL marks the barrier cancelled, and one of another number changes
nothing. -/
def Obligations.BarrierOnBothSides : Prop :=
  (∀ (t : Time) (f : Flit) (n el rs : Nat) (y : Bool) (s : State), hears 1 f s = true →
    exec (.barrierVote t f n y el rs) s = .next (voteTake f.src n y el rs (flitTaken f (s.at t)))) ∧
  (∀ (t : Time) (f : Flit) (n : Nat) (s : State), hears 1 f s = true →
    exec (.barrierAck t f n) s = .next (ackTake f.src n (flitTaken f (s.at t)))) ∧
  (∀ (n el rs : Nat) (x : Barrier) (s : State), s.brg.barrier = some x → x.decided = none → x.cause = none →
    x.named = [n] → x.votes = [] → x.ramp = none →
    ∃ y, (voteTake n x.number true el rs s).brg.barrier = some y ∧ y.decided = some true) ∧
  (∀ (n el rs : Nat) (x : Barrier) (s : State), s.brg.barrier = some x → x.decided = none → x.cause = none →
    x.named = [n] → x.votes = [] →
    ∃ y, (voteTake n x.number false el rs s).brg.barrier = some y ∧ y.decided = some false) ∧
  (∀ (t : Time) (n : Nat) (x : Barrier) (s : State), s.brg.barrier = some x → x.decided = none → x.named = [n] →
    x.votes = [] → x.applyTime ≤ t + 1200 * us →
    ∃ z y, exec (.barrierDecisionDeadline t) s = .next z ∧ z.brg.barrier = some y ∧ y.decided = some false) ∧
  (∀ (t : Time) (n : Nat) (x : Barrier) (s : State), s.brg.barrier = some x → x.decided = some true → x.named = [n] →
    x.acks = [] → x.applyTime ≤ t + 600 * us →
    ∃ z y, exec (.barrierAckDeadline t) s = .next z ∧ z.brg.barrier = some y ∧ y.decided = some false) ∧
  (∀ (n : Nat) (x : Barrier) (s : State), s.brg.barrier = some x → x.named.contains n = true → x.acks = [] →
    ∃ y, (ackTake n x.number s).brg.barrier = some y ∧ y.acks = [n]) ∧
  (∀ (t : Time) (f : Flit) (n a : Nat) (b : List Byte) (s : State), hears 2 f s = true →
    exec (.barrierPrepare t f n a b) s = .next (prepareTake n a b (flitTaken f (s.at t)))) ∧
  (∀ (t : Time) (f : Flit) (n : Nat) (s : State), hears 2 f s = true →
    exec (.barrierApply t f n) s = .next (applyTake n (flitTaken f (s.at t))) ∧
    exec (.barrierCancel t f n) s = .next (cancelTake n (flitTaken f (s.at t)))) ∧
  (∀ (n a : Nat) (b : List Byte) (s : State), byteAt b 1 = 0x12 → s.cmp.armed.isSome = true →
    prepareTake n a b s = sendMsg (.vote n false (0x80 + s.brg.devnum) 0x55) s) ∧
  (∀ (n a : Nat) (b : List Byte) (s : State), byteAt b 1 = 0x12 → s.cmp.armed = none →
    commitReject (commitFlags (slice b 6 (le16 b 4))) s = none →
    (prepareTake n a b s).brg.sent = .vote n true 0 0 :: s.brg.sent ∧ (prepareTake n a b s).cmp.phase = .barrier ∧
    (prepareTake n a b s).cmp.live = s.cmp.live) ∧
  (∀ (n : Nat) (m : MyBarrier) (s : State), s.brg.mine = some m → m.number = n → m.applied = false → m.ramp = none →
    applyTake n s = { s with brg := { s.brg with
      sent := .ack n :: s.brg.sent, mine := some { m with applied := true } } }) ∧
  (∀ (n : Nat) (m : MyBarrier) (s : State), s.brg.mine = some m → m.number = n → m.ramp = none →
    cancelTake n s = { s with brg := { s.brg with mine := some { m with cancelled := true } } }) ∧
  (∀ (n : Nat) (m : MyBarrier) (s : State), s.brg.mine = some m → m.number ≠ n → applyTake n s = s ∧ cancelTake n s = s)

/-! ## Identity, life cycle and images -/

/-- IDENTIFY and ATTEST_CHALLENGE (R462, R497): page 0 begins with the UID, pages 1 and 2 are 512 bytes of the
certificate, a page above is refused; nothing changes. An attestation signs the UID, the NONCE and the measurement
with the device key; the signature itself is an opaque function (log 12). LIFECYCLE_ADVANCE and
LIMITED_SETTING_WRITE (R467, R469, R470): a transition outside the table is refused; with its authorisation, its
conditions and a writable OTP it replies PENDING and programs the state word; a setting consumes its next slot as
programming begins, is refused when none is left, and outside PROVISIONED and FIELD is refused by the life cycle. -/
def Obligations.IdentityAndLifecycle : Prop :=
  (∀ (t : Time) (rq : Req) (s : State), serves 0x01 rq (s.at t) = true → byteAt rq.payload 0 = 0 →
    ∃ p, exec (.identify t rq) s = .next (finishReply rq .ok p (takeReq rq (s.at t))) ∧ p.take 16 = s.otp.uidBytes) ∧
  (∀ (t : Time) (rq : Req) (s : State), serves 0x01 rq (s.at t) = true →
    (byteAt rq.payload 0 = 1 ∨ byteAt rq.payload 0 = 2) →
    ∃ p, exec (.identify t rq) s = .next (finishReply rq .ok p (takeReq rq (s.at t))) ∧ p.length = 512) ∧
  (∀ (t : Time) (rq : Req) (s : State), serves 0x01 rq (s.at t) = true → 3 ≤ byteAt rq.payload 0 →
    exec (.identify t rq) s = .next (finishReply rq .badParam [] (takeReq rq (s.at t)))) ∧
  (∀ (t : Time) (rq : Req) (s : State), serves 0x68 rq (s.at t) = true →
    ∃ g, exec (.attestChallenge t rq) s = .next (finishReply rq .ok (attestBytes rq.payload s ++ g)
        { takeReq rq (s.at t) with free := s.free + 1 }) ∧ g.length = 64) ∧
  (∀ (t : Time) (rq : Req) (s : State), serves 0x69 rq (s.at t) = true →
    lcAllowed s.otp.lifecycle (byteAt rq.payload 0) = false →
    exec (.lifecycleAdvance t rq) s = .next (finishReply rq .badParam [] (takeReq rq (s.at t)))) ∧
  (∀ (t : Time) (rq : Req) (s : State), serves 0x69 rq (s.at t) = true →
    (byteAt rq.payload 1 = 0 ∧ rq.payload.length = 68) ∨ (byteAt rq.payload 1 = 1 ∧ rq.payload.length = 12) →
    zeroAt rq.payload 2 2 = true → lcAllowed s.otp.lifecycle (byteAt rq.payload 0) = true →
    lcAuthorised s (byteAt rq.payload 0) rq.payload = true → lcCondition s (byteAt rq.payload 0) = true →
    (byteAt rq.payload 0 = 3 → s.otp.owner.isSome = true) → writeRefused (s.at t) = none →
    exec (.lifecycleAdvance t rq) s = .next (finishReply rq .pending [] { takeReq rq (s.at t) with
      sec := { s.sec with otpJob := some (.lifecycle (reqKey rq) (byteAt rq.payload 0)) } })) ∧
  (∀ (t : Time) (rq : Req) (s : State), rq.opcode = 0x6A → s.hth.boot ≠ .hold → s.hst.requests.contains rq = true →
    grantedNow (s.at t) = some rq → rqForward rq = false → s.accepts rq = true → s.otp.lifecycle ≠ 2 → s.otp.lifecycle ≠ 3 →
    exec (.limitedSettingWrite t rq) s = .next (finishReply rq .deniedLifecycle [] (takeReq rq (s.at t)))) ∧
  (∀ (t : Time) (rq : Req) (s : State), serves 0x6A rq (s.at t) = true → s.otp.lifecycle = 2 → s.otp.owner = none →
    byteAt rq.payload 0 = 4 → byteAt rq.payload 1 = 0 → zeroAt rq.payload 2 2 = true → s.otp.market.length < 2 →
    slice rq.payload (rq.payload.length - 8) 8 = List.replicate 8 0 →
    zeroAt (slice rq.payload 4 (rq.payload.length - 12)) 6 2 = true → writeRefused (s.at t) = none →
    exec (.limitedSettingWrite t rq) s = .next (finishReply rq .pending [] { takeReq rq (s.at t) with
      otp := { s.otp with market := s.otp.market ++
        [{ value := slice rq.payload 4 (rq.payload.length - 12), crcOk := false }] },
      sec := { s.sec with otpJob := some (.setting (reqKey rq) 4 0 (slice rq.payload 4 (rq.payload.length - 12))) } }))

/-- OTP_WRITE_COMPLETE (R467, R468, R470): a life-cycle word that reads back right is all ones and the device resets 10
ms later; a setting that reads back right is valid, one that does not raises SEC_OTP_FAIL; with no write in progress
nothing happens. FIRMWARE_LOAD and LINK_TOPOLOGY (R436, R528, R532-R534): an image type that is none is refused; a
first segment of an image makes the slot it writes invalid and replies PENDING; a valid topology replies PENDING; an
invalid one is refused. BOOT_FLASH_WRITE_COMPLETE (R474, R475, R533, R534): a last segment whose image verifies
makes it pending in the inactive slot; one that does not raises SEC_FW_REJECTED; a topology that reads back right is
stored; a failed read-back of a segment changes no slot. -/
def Obligations.WritesBeginAndComplete : Prop :=
  (∀ (t : Time) (b : Bool) (s : State), s.sec.otpJob = none → exec (.otpWriteComplete t b) s = .next (s.at t)) ∧
  (∀ (t : Time) (k : PendKey) (n : Nat) (s : State), s.sec.otpJob = some (.lifecycle k n) → 1 ≤ n → n ≤ 5 →
    ∃ x, exec (.otpWriteComplete t true) s = .next x ∧ x.otp.lcWords[Fin.ofNat 5 (n - 1)] = 0xFFFFFFFF ∧
      (∀ i : Fin 5, i ≠ Fin.ofNat 5 (n - 1) → x.otp.lcWords[i] = s.otp.lcWords[i]) ∧
      x.hth.resetDue = some (max s.now t + 10 * ms) ∧ x.sec.otpJob = none) ∧
  (∀ (t : Time) (k : PendKey) (v : List Byte) (l : List OtpSlot) (o : OtpSlot) (s : State),
    s.sec.otpJob = some (.setting k 4 0 v) → s.otp.market = l ++ [o] →
    ∃ x, exec (.otpWriteComplete t true) s = .next x ∧ x.otp.market = l ++ [{ value := v, crcOk := true }] ∧
      x.otp.lcWords = s.otp.lcWords ∧ x.hth.resetDue = s.hth.resetDue ∧ x.sec.otpJob = none) ∧
  (∀ (t : Time) (k : PendKey) (v : List Byte) (s : State), s.sec.otpJob = some (.setting k 4 0 v) →
    ∃ x, exec (.otpWriteComplete t false) s = .next x ∧ x.otp = s.otp ∧ x.sec.otpJob = none) ∧
  (∀ (t : Time) (rq : Req) (s : State), serves 0x70 rq (s.at t) = true →
    (byteAt rq.payload 0 = 0 ∨ (3 < byteAt rq.payload 0 ∧ byteAt rq.payload 0 ≠ 0x10)) →
    exec (.firmwareLoad t rq) s = .next (finishReply rq .badParam [] (takeReq rq (s.at t)))) ∧
  (∀ (t : Time) (rq : Req) (s : State), serves 0x70 rq (s.at t) = true → byteAt rq.payload 0 = 2 →
    byteAt rq.payload 1 = 1 → zeroAt rq.payload 2 2 = true → le32 rq.payload 4 = 0 → le32 rq.payload 8 ≤ imageMax 2 →
    (rq.payload.drop 12).length ≤ le32 rq.payload 8 → writeRefused (s.at t) = none →
    ∃ x, exec (.firmwareLoad t rq) s = .next (finishReply rq .pending [] x) ∧
      x.flash.main[other s.flash.mainActive] = none ∧ x.flash.main[s.flash.mainActive] = s.flash.main[s.flash.mainActive] ∧
      x.flash.patch = s.flash.patch ∧ x.sec.flashJob = some (.segment (reqKey rq)
        { image := 2, bytes := rq.payload.drop 12, total := le32 rq.payload 8 } false)) ∧
  (∀ (t : Time) (rq : Req) (s : State), serves 0x60 rq (s.at t) = true → byteAt rq.payload 0 < 4 →
    byteAt rq.payload 1 < 8 → byteAt rq.payload 2 < 4 → zeroAt rq.payload 3 1 = true → writeRefused (s.at t) = none →
    ∃ w, exec (.linkTopology t rq) s = .next (finishReply rq .pending [] { takeReq rq (s.at t) with
        sec := { s.sec with flashJob := some (.topology (reqKey rq) w) } }) ∧
      wfl w 30 2 = byteAt rq.payload 0 ∧ wfl w 27 3 = byteAt rq.payload 1 ∧ wfl w 0 2 = byteAt rq.payload 2) ∧
  (∀ (t : Time) (rq : Req) (s : State), serves 0x60 rq (s.at t) = true → 4 ≤ byteAt rq.payload 0 →
    exec (.linkTopology t rq) s = .next (finishReply rq .badParam [] (takeReq rq (s.at t)))) ∧
  (∀ (t : Time) (b : Bool) (v : Verify) (a : Option AnvSet) (s : State), s.sec.flashJob = none →
    exec (.bootFlashWriteComplete t b v a) s = .next (s.at t)) ∧
  (∀ (t : Time) (k : PendKey) (l : Load) (v : Verify) (a : Option AnvSet) (s : State),
    s.sec.flashJob = some (.segment k l true) → l.image = 2 → v.sigOk = true → s.otp.svnMinMain ≤ v.svn →
    ∃ x, exec (.bootFlashWriteComplete t true v a) s = .next x ∧ x.flash.mainPending = true ∧
      x.flash.main[other s.flash.mainActive] = some { bytes := l.bytes, svn := v.svn, version := v.version } ∧
      x.flash.mainActive = s.flash.mainActive ∧ x.sec.flashJob = none) ∧
  (∀ (t : Time) (k : PendKey) (l : Load) (v : Verify) (a : Option AnvSet) (s : State),
    s.sec.flashJob = some (.segment k l true) → l.image = 2 → (v.sigOk = false ∨ v.svn < s.otp.svnMinMain) →
    ∃ x, exec (.bootFlashWriteComplete t true v a) s = .next x ∧ x.flash.mainPending = s.flash.mainPending ∧
      x.flash.main[other s.flash.mainActive] = none ∧ x.sec.flashJob = none) ∧
  (∀ (t : Time) (k : PendKey) (w : Word) (v : Verify) (a : Option AnvSet) (s : State),
    s.sec.flashJob = some (.topology k w) →
    ∃ x, exec (.bootFlashWriteComplete t true v a) s = .next x ∧ x.flash.brgConfig = w &&& 0xF8000003 ∧
      x.flash.main = s.flash.main ∧ x.sec.flashJob = none) ∧
  (∀ (t : Time) (k : PendKey) (l : Load) (b : Bool) (v : Verify) (a : Option AnvSet) (s : State),
    s.sec.flashJob = some (.segment k l b) →
    ∃ x, exec (.bootFlashWriteComplete t false v a) s = .next x ∧ x.flash = s.flash ∧ x.sec.flashJob = none)
end

