-- ==== Sys2Proof/Laws/Keeps.lean ====
section
/-! SUPPORT. What every operation of the model keeps: the queue of waiting commands, the direction of model time,
what OTP has been programmed to, and the canonical form of the HBM memory. One relation and the rules that carry
it through the forms a meaning is written in. -/

namespace Sys2Proof.Machine

/-! ## The memory operations keep the canonical form -/

theorem Mem.wfFrom_mono {m : List Host.Cell} {lo lo' : Nat} (h : lo' ≤ lo) (w : Mem.wfFrom lo m = true) :
    Mem.wfFrom lo' m = true := by
  cases m with
  | nil => rfl
  | cons c r =>
    simp only [Mem.wfFrom, Bool.and_eq_true, decide_eq_true_eq] at w ⊢
    exact ⟨⟨by omega, w.1.2⟩, w.2⟩

/-- A write keeps the canonical form. -/
theorem Mem.write_wfFrom {m : List Host.Cell} {lo a : Nat} (v : Byte) (w : Mem.wfFrom lo m = true) (h : lo ≤ a) :
    Mem.wfFrom lo (Mem.write m a v) = true := by
  induction m generalizing lo with
  | nil =>
    simp only [Mem.write]
    split
    · rfl
    · simp_all [Mem.wfFrom]
  | cons c r ih =>
    obtain ⟨b, x⟩ := c
    simp only [Mem.wfFrom, Bool.and_eq_true, decide_eq_true_eq] at w
    simp only [Mem.write]
    split
    · split
      · simp_all [Mem.wfFrom]
      · simp only [Mem.wfFrom, Bool.and_eq_true, decide_eq_true_eq]
        exact ⟨⟨h, by simp_all⟩, ⟨by omega, w.1.2⟩, w.2⟩
    · split
      · split
        · exact Mem.wfFrom_mono (by omega) w.2
        · simp only [Mem.wfFrom, Bool.and_eq_true, decide_eq_true_eq]
          subst_vars
          exact ⟨⟨h, by simp_all⟩, w.2⟩
      · simp only [Mem.wfFrom, Bool.and_eq_true, decide_eq_true_eq]
        exact ⟨w.1, ih w.2 (by omega)⟩

theorem Mem.write_wf {m : List Host.Cell} (a : Nat) (v : Byte) (w : Mem.wf m = true) :
    Mem.wf (Mem.write m a v) = true := Mem.write_wfFrom v w (Nat.zero_le a)

theorem Mem.writes_wf {m : List Host.Cell} (a : Nat) (l : List Byte) (w : Mem.wf m = true) :
    Mem.wf (Mem.writes m a l) = true := by
  induction l generalizing m a with
  | nil => exact w
  | cons v r ih => exact ih (a + 1) (Mem.write_wf a v w)

theorem Grn.store_wf {g : Grn} {a : Nat} {l : List Byte} (w : Mem.wf g.hbm = true) : Mem.wf (g.store a l).hbm = true :=
  Mem.writes_wf a l w

theorem Mem.erase_wfFrom {m : List Host.Cell} {lo : Nat} (p : Nat → Bool) (w : Mem.wfFrom lo m = true) :
    Mem.wfFrom lo (Mem.erase m p) = true := by
  induction m generalizing lo with
  | nil => rfl
  | cons c r ih =>
    obtain ⟨b, x⟩ := c
    simp only [Mem.wfFrom, Bool.and_eq_true, decide_eq_true_eq] at w
    have i := ih w.2
    unfold Mem.erase at i ⊢
    rw [List.filter_cons]
    split
    · simp only [Mem.wfFrom, Bool.and_eq_true, decide_eq_true_eq]
      exact ⟨w.1, i⟩
    · exact Mem.wfFrom_mono (by omega) i

theorem Mem.erase_wf {m : List Host.Cell} (p : Nat → Bool) (w : Mem.wf m = true) : Mem.wf (Mem.erase m p) = true :=
  Mem.erase_wfFrom p w

/-! ## The memory reads back what was written -/

/-- In canonical form nothing stands below the first address. -/
theorem Mem.read_below {m : List Host.Cell} {lo a : Nat} (w : Mem.wfFrom lo m = true) (h : a < lo) : Mem.read m a = 0 := by
  cases m with
  | nil => rfl
  | cons c r =>
    simp only [Mem.wfFrom, Bool.and_eq_true, decide_eq_true_eq] at w
    simp only [Mem.read]
    rw [if_neg (by omega), if_pos (by omega)]

/-- A write is read back at its address and leaves every other address alone. -/
theorem Mem.read_write {m : List Host.Cell} {lo : Nat} (w : Mem.wfFrom lo m = true) (a b : Nat) (v : Byte) :
    Mem.read (Mem.write m a v) b = if b = a then v else Mem.read m b := by
  induction m generalizing lo with
  | nil =>
    simp only [Mem.write]
    split <;> split <;> simp_all [Mem.read]
  | cons c r ih =>
    obtain ⟨x, y⟩ := c
    simp only [Mem.wfFrom, Bool.and_eq_true, decide_eq_true_eq] at w
    have below : ∀ k, k ≤ x → Mem.read r k = 0 := fun k hk => Mem.read_below w.2 (by omega)
    rcases Nat.lt_trichotomy a x with hax | hax | hax
    · by_cases hv : v = 0
      · simp only [Mem.write, hax, hv, if_true, Mem.read]
        by_cases hb : b = a
        · rw [if_neg (by omega), if_pos (by omega), if_pos hb]
        · rw [if_neg hb]
      · simp only [Mem.write, hax, hv, if_true, if_false, Mem.read]
        by_cases hb : b = a
        · rw [if_pos hb, if_pos hb]
        · rw [if_neg hb, if_neg hb]
          by_cases h2 : b < a
          · rw [if_pos h2, if_neg (by omega), if_pos (by omega)]
          · rw [if_neg h2]
    · subst hax
      by_cases hv : v = 0
      · simp only [Mem.write, hv, if_true, Mem.read, Nat.lt_irrefl, if_false]
        by_cases hb : b = a
        · rw [if_pos hb, below _ (by omega)]
        · rw [if_neg hb, if_neg hb]
          by_cases h2 : b < a
          · rw [if_pos h2, below _ (by omega)]
          · rw [if_neg h2]
      · simp only [Mem.write, hv, if_true, Mem.read, Nat.lt_irrefl, if_false]
        by_cases hb : b = a <;> simp [hb]
    · have h1 : ¬ a < x := by omega
      have h2 : ¬ a = x := by omega
      simp only [Mem.write, h1, h2, if_false, Mem.read]
      by_cases hb : b = x
      · rw [if_pos hb, if_pos hb, if_neg (by omega)]
      · rw [if_neg hb, if_neg hb]
        by_cases h3 : b < x
        · rw [if_pos h3, if_pos h3, if_neg (by omega)]
        · rw [if_neg h3, if_neg h3]
          exact ih w.2

/-! ## The relation -/

/-- No programmed OTP bit is lost: the UID stands, a life-cycle word only gains bits, the SVN minima do not fall. -/
structure OtpKept (o p : Otp) : Prop where
  uid : p.uid = o.uid
  words : ∀ i : Fin 5, o.lcWords[i] &&& p.lcWords[i] = o.lcWords[i]
  patch : o.svnMinPatch ≤ p.svnMinPatch
  main : o.svnMinMain ≤ p.svnMinMain

theorem OtpKept.refl (o : Otp) : OtpKept o o := ⟨rfl, fun _ => BitVec.and_self, Nat.le_refl _, Nat.le_refl _⟩

theorem OtpKept.trans {o p q : Otp} (a : OtpKept o p) (b : OtpKept p q) : OtpKept o q :=
  ⟨b.uid.trans a.uid, fun i => by
    have x := a.words i
    have y := b.words i
    rw [← x, BitVec.and_assoc, y], Nat.le_trans a.patch b.patch, Nat.le_trans a.main b.main⟩

/-- What every operation keeps from one state to a later one. -/
structure Keeps (r s : State) : Prop where
  pending : s.pending = r.pending
  now : r.now ≤ s.now
  otp : OtpKept r.otp s.otp
  hbm : Mem.wf r.grn.hbm = true → Mem.wf s.grn.hbm = true

/-- The same of a meaning's outcome. -/
def KeepsO (r : State) : Out → Prop
  | .next s => Keeps r s
  | _ => True

theorem Keeps.refl (s : State) : Keeps s s := ⟨rfl, Nat.le_refl _, OtpKept.refl _, id⟩

theorem Keeps.trans {r s t : State} (a : Keeps r s) (b : Keeps s t) : Keeps r t :=
  ⟨b.pending.trans a.pending, Nat.le_trans a.now b.now, a.otp.trans b.otp, fun h => b.hbm (a.hbm h)⟩

variable {r s : State}

/-- An update of the other parts of the state. -/
theorem Keeps.mk' {fr la rd en fl ht hs ev ig cm an cl th sw sc fg mx sv tn gr tm tp bs bg se} (h : Keeps r s)
    (hg : Mem.wf s.grn.hbm = true → Mem.wf gr.hbm = true) :
    Keeps r (State.mk s.now s.pending fr la rd en s.otp fl ht hs ev ig cm an cl th sw sc fg mx sv tn gr tm tp bs bg se) :=
  ⟨h.pending, h.now, h.otp, fun w => hg (h.hbm w)⟩

/-- An update that programs OTP. -/
theorem Keeps.mkOtp {fr la rd en ot fl ht hs ev ig cm an cl th sw sc fg mx sv tn gr tm tp bs bg se} (h : Keeps r s)
    (ho : OtpKept s.otp ot) (hg : Mem.wf s.grn.hbm = true → Mem.wf gr.hbm = true) :
    Keeps r (State.mk s.now s.pending fr la rd en ot fl ht hs ev ig cm an cl th sw sc fg mx sv tn gr tm tp bs bg se) :=
  ⟨h.pending, h.now, h.otp.trans ho, fun w => hg (h.hbm w)⟩

/-- A life-cycle word that gains bits. -/
theorem OtpKept.word {o p : Otp} {i : Fin 5} {w : Word} (u : p.uid = o.uid) (l : p.lcWords = upd o.lcWords i w)
    (a : p.svnMinPatch = o.svnMinPatch) (b : p.svnMinMain = o.svnMinMain) (hw : o.lcWords[i] &&& w = o.lcWords[i]) :
    OtpKept o p := by
  refine ⟨u, fun j => ?_, a ▸ Nat.le_refl _, b ▸ Nat.le_refl _⟩
  rw [l]
  simp only [upd, Fin.getElem_fin, Vector.getElem_set]
  split
  · rename_i e
    have : i = j := Fin.ext e
    subst this
    exact hw
  · exact BitVec.and_self

theorem le_ite_max {c : Prop} [Decidable c] {a b : Nat} : a ≤ if c then max a b else a := by split <;> omega

theorem Keeps.ite {c : Prop} [Decidable c] {a b : State} (ha : Keeps r a) (hb : Keeps r b) :
    Keeps r (if c then a else b) := by split <;> assumption

theorem Keeps.ite1 {α : Type} {c : Prop} [Decidable c] {a b : State × α} (ha : Keeps r a.1) (hb : Keeps r b.1) :
    Keeps r (if c then a else b).1 := by split <;> assumption

theorem Keeps.ite2 {α : Type} {c : Prop} [Decidable c] {a b : α × State} (ha : Keeps r a.2) (hb : Keeps r b.2) :
    Keeps r (if c then a else b).2 := by split <;> assumption

theorem KeepsO.ite {c : Prop} [Decidable c] {a b : Out} (ha : KeepsO r a) (hb : KeepsO r b) :
    KeepsO r (if c then a else b) := by split <;> assumption

theorem KeepsO.next {a : State} (h : Keeps r a) : KeepsO r (.next a) := h

theorem Keeps.fst {α : Type} {a : State} {b : α} (h : Keeps r a) : Keeps r (a, b).1 := h

theorem Keeps.snd {α : Type} {a : State} {b : α} (h : Keeps r a) : Keeps r (b, a).2 := h

theorem Keeps.fold {α : Type} {f : State → α → State} {l : List α} (h : Keeps r s)
    (hf : ∀ a x, Keeps r a → Keeps r (f a x)) : Keeps r (l.foldl f s) := by
  induction l generalizing s with
  | nil => exact h
  | cons x l ih => exact ih (hf s x h)

end Sys2Proof.Machine
end

