-- ==== Sys2Proof/Laws/Operations.lean ====
section
/-! SUPPORT. One lemma per operation and meaning, in the order of the Machine files: what it keeps (Laws/Keeps.lean). -/

set_option maxRecDepth 4000
set_option Elab.async false

namespace Sys2Proof.Machine

/-! ## Machine/Flags.lean -/

theorem raise_keeps {r s : State} {id} {detail} (h : Keeps r s) :
    Keeps r (raise id detail s) := by
  delta raise
  exact (Keeps.mk' h fun hw => hw)

theorem raiseEcc_keeps {r s : State} {glyph} {uncorrectable} (h : Keeps r s) :
    Keeps r (raiseEcc glyph uncorrectable s) := by
  delta raiseEcc
  exact (Keeps.mk' h fun hw => hw)

theorem raiseIf_keeps {r s : State} {c} {id} {detail} (h : Keeps r s) :
    Keeps r (raiseIf c id detail s) := by
  delta raiseIf
  exact (Keeps.ite (raise_keeps h) h)

/-! ## Machine/Ops.lean -/

theorem at_keeps {r s : State} {t : Time} (h : Keeps r s) : Keeps r (s.at t) :=
  ⟨h.pending, Nat.le_trans h.now (Nat.le_max_left _ _), h.otp, h.hbm⟩

theorem fresh_keeps {r s : State} (h : Keeps r s) :
    Keeps r (State.fresh s).2 := by
  delta State.fresh
  exact (Keeps.snd (Keeps.mk' h fun hw => hw))

theorem forEng_keeps {r s : State} {f} (h : Keeps r s) (hf : ∀ a0 x, Keeps r x → Keeps r (f a0 x)) :
    Keeps r (forEng f s) := by
  delta forEng
  exact (hf _ _ (hf _ _ (hf _ _ (hf _ _ h))))

theorem forN_keeps {r s : State} {n} {f} (h : Keeps r s) (hf : ∀ a0 x, Keeps r x → Keeps r (f a0 x)) :
    Keeps r (forN n f s) := by
  delta forN
  exact (Keeps.fold h (fun _ _ h1 => (hf _ _ h1)))

theorem setGrn_keeps {r s : State} {f : Grn → Grn} (h : Keeps r s) (hf : ∀ g, (f g).hbm = g.hbm) :
    Keeps r (setGrn f s) := Keeps.mk' h fun w => (congrArg Mem.wf (hf s.grn)).trans w

theorem setGrn_wf {r s : State} {f : Grn → Grn} (h : Keeps r s)
    (hf : Mem.wf s.grn.hbm = true → Mem.wf (f s.grn).hbm = true) : Keeps r (setGrn f s) := Keeps.mk' h hf

theorem setBst_keeps {r s : State} {f} (h : Keeps r s) :
    Keeps r (setBst f s) := by
  delta setBst
  exact (Keeps.mk' h fun hw => hw)

theorem canApply_keeps {r s : State} {l} (h : Keeps r s) :
    Keeps r (canApply l s) := by
  delta canApply
  exact (Keeps.mk' h fun hw => hw)

theorem canLost_keeps {r s : State} {transport} {x} (h : Keeps r s) :
    Keeps r (canLost transport x s) := by
  delta canLost
  exact (by
    split
    · exact h
    · exact (raise_keeps (canApply_keeps h))
  )

theorem deliver_keeps {r s : State} {p} {b} (h : Keeps r s) :
    Keeps r (deliver p b s) := by
  delta deliver
  exact (by
    (try dsimp only)
    split
    · exact (Keeps.ite (raise_keeps (Keeps.mk' h fun hw => hw)) (Keeps.mk' h fun hw => hw))
    · exact (Keeps.ite (Keeps.mk' h fun hw => hw) h)
    · exact (canLost_keeps (Keeps.mk' h fun hw => hw))
    · exact (canLost_keeps (Keeps.mk' h fun hw => hw))
    · exact (Keeps.mk' h fun hw => hw)
  )

theorem deliverAll_keeps {r s : State} {l} {b} (h : Keeps r s) :
    Keeps r (deliverAll l b s) := by
  delta deliverAll
  exact (Keeps.fold h (fun _ _ h1 => (deliver_keeps h1)))

theorem replyEarly_keeps {r s : State} {rq} {st} (h : Keeps r s) :
    Keeps r (replyEarly rq st s) := by
  delta replyEarly
  exact (deliver_keeps (Keeps.mk' h fun hw => hw))

theorem endReply_keeps {r s : State} {rq} {st} {b} (h : Keeps r s) :
    Keeps r (endReply rq st b s) := by
  delta endReply
  exact (Keeps.ite (deliverAll_keeps (Keeps.mk' h fun hw => hw)) (Keeps.mk' h fun hw => hw))

theorem finishReply_keeps {r s : State} {rq} {st} {payload} (h : Keeps r s) :
    Keeps r (finishReply rq st payload s) := by
  delta finishReply
  exact (endReply_keeps h)

theorem cmdDone_keeps {r s : State} {k} {st} (h : Keeps r s) :
    Keeps r (cmdDone k st s) := by
  delta cmdDone
  exact (Keeps.ite h (by
    (try dsimp only)
    split
    · exact (raise_keeps (Keeps.mk' h fun hw => hw))
    · exact (raise_keeps (fresh_keeps (Keeps.mk' h fun hw => hw)))
  ))

theorem doneAll_keeps {r s : State} {p} {st} (h : Keeps r s) :
    Keeps r (doneAll p st s) := by
  delta doneAll
  exact (Keeps.fold h (fun _ _ h1 => (cmdDone_keeps h1)))

/-! ## Machine/Transport.lean -/

theorem refuseAt_keeps {r s : State} {rq} {st} (h : Keeps r s) :
    Keeps r (refuseAt rq st s) := by
  delta refuseAt
  exact (deliver_keeps (Keeps.mk' h fun hw => hw))

theorem countCopy_keeps {r s : State} {rq} (h : Keeps r s) :
    Keeps r (countCopy rq s) := by
  delta countCopy
  exact (Keeps.mk' h fun hw => hw)

theorem enqueue_keeps {r s : State} {rq} (h : Keeps r s) :
    Keeps r (enqueue rq s) := by
  delta enqueue
  exact (Keeps.mk' h fun hw => hw)

theorem takeUp_keeps {r s : State} {rq} (h : Keeps r s) :
    Keeps r (takeUp rq s) := by
  delta takeUp
  exact (Keeps.ite (refuseAt_keeps h) (Keeps.ite (refuseAt_keeps h) (by
    split
    · exact (refuseAt_keeps h)
    · exact (enqueue_keeps h)
  )))

theorem arrive_keeps {r s : State} {rq} (h : Keeps r s) :
    Keeps r (arrive rq s) := by
  delta arrive
  exact (by
    split
    · exact (replyEarly_keeps h)
    · exact (Keeps.ite (replyEarly_keeps h) (Keeps.ite (replyEarly_keeps h) (Keeps.ite (takeUp_keeps h) (by
      split
      · exact (Keeps.ite h (deliver_keeps h))
      · exact (by
        split
        · exact (Keeps.ite (refuseAt_keeps h) (countCopy_keeps h))
        · exact (takeUp_keeps h)
      )
    ))))
  )

theorem packetIn_keeps {r s : State} {p} {b} (h : Keeps r s) :
    Keeps r (packetIn p b s) := by
  delta packetIn
  exact (Keeps.ite h (Keeps.ite (raise_keeps h) (Keeps.ite (replyEarly_keeps h) (Keeps.ite (raise_keeps
      (deliver_keeps h)) (arrive_keeps h)))))

theorem takeReq_keeps {r s : State} {rq} (h : Keeps r s) :
    Keeps r (takeReq rq s) := by
  delta takeReq
  exact (Keeps.mk' h fun hw => hw)

theorem deny_keeps {r s : State} {st} (h : Keeps r s) :
    Keeps r (deny st s).1 := by
  delta deny
  exact (Keeps.fst h)

theorem denyItem_keeps {r s : State} {st} {i} (h : Keeps r s) :
    Keeps r (denyItem st i s).1 := by
  delta denyItem
  exact (Keeps.fst h)

theorem markFwd_keeps {r s : State} {k} (h : Keeps r s) :
    Keeps r (markFwd k s) := by
  delta markFwd
  exact (Keeps.mk' h fun hw => hw)

theorem relayReply_keeps {r s : State} {f} {st} (h : Keeps r s) :
    Keeps r (relayReply f st s) := by
  delta relayReply
  exact (Keeps.ite (finishReply_keeps h) (Keeps.ite (finishReply_keeps h) (endReply_keeps h)))

theorem finishFwd_keeps {r s : State} {f} (h : Keeps r s) :
    Keeps r (finishFwd f s) := by
  delta finishFwd
  exact (Keeps.ite (cmdDone_keeps (Keeps.mk' h fun hw => hw)) (Keeps.ite (finishReply_keeps (Keeps.mk' h fun hw =>
      hw)) (Keeps.ite (markFwd_keeps (relayReply_keeps (Keeps.mk' h fun hw => hw))) (relayReply_keeps (Keeps.mk' h
      fun hw => hw)))))

theorem holdFwd_keeps {r s : State} {f} (h : Keeps r s) :
    Keeps r (holdFwd f s) := by
  delta holdFwd
  exact (Keeps.ite (finishFwd_keeps (Keeps.mk' h fun hw => hw)) (Keeps.mk' h fun hw => hw))

theorem sendCmd_keeps {r s : State} {n} {rq} (h : Keeps r s) :
    Keeps r (sendCmd n rq s) := by
  delta sendCmd
  exact (Keeps.mk' h fun hw => hw)

theorem execute_keeps {r s : State} {rq} {body} (h : Keeps r s) (hbody : ∀ a x, Keeps r x → Keeps r (body a x).1) :
    Keeps r (execute rq body s) := by
  delta execute
  exact (by
    (try dsimp only)
    split
    · exact (finishReply_keeps h)
    · exact (Keeps.ite (Keeps.ite (holdFwd_keeps (Keeps.fold (hbody _ _ h) (fun _ _ h1 => (sendCmd_keeps h1))))
        (Keeps.ite (finishReply_keeps (holdFwd_keeps (sendCmd_keeps h))) (holdFwd_keeps (sendCmd_keeps h))))
        (finishReply_keeps (hbody _ _ h)))
  )

theorem serve_keeps {r s : State} {op} {body} {rq} (h : Keeps r s) (hbody : ∀ a x, Keeps r x → Keeps r (body a x).1) :
    Keeps r (serve op body rq s) := by
  delta serve
  exact (Keeps.ite h (Keeps.ite (execute_keeps (takeReq_keeps (Keeps.ite h (arrive_keeps h))) (fun _ _ h1 => (hbody _
      _ h1))) (Keeps.ite h (arrive_keeps h))))

theorem deferrable_keeps {r s : State} {pre} {body} {rq} (h : Keeps r s) (hbody : ∀ a x, Keeps r x → Keeps r (body a
    x).1) :
    Keeps r (deferrable pre body rq s).1 := by
  delta deferrable
  exact (Keeps.ite1 (by
    (try dsimp only)
    split
    · exact (Keeps.fst h)
    · exact (Keeps.fst (Keeps.mk' h fun hw => hw))
  ) (hbody _ _ h))

theorem wakeHearth_keeps {r s : State} (h : Keeps r s) :
    Keeps r (wakeHearth s) := by
  delta wakeHearth
  exact (Keeps.mk' h fun hw => hw)

theorem execSpiWritePacket_keeps {r s : State} {t} {code} {bytes} (h : Keeps r s) :
    KeepsO r (execSpiWritePacket t code bytes s) := by
  delta execSpiWritePacket
  exact (KeepsO.ite (KeepsO.next (at_keeps h)) (KeepsO.ite (KeepsO.ite (KeepsO.next (raise_keeps (wakeHearth_keeps
      (at_keeps h)))) (KeepsO.next (packetIn_keeps (Keeps.mk' (fresh_keeps (wakeHearth_keeps (at_keeps h))) fun hw =>
      hw)))) (KeepsO.ite (KeepsO.next (wakeHearth_keeps (at_keeps h))) (KeepsO.next (raise_keeps (wakeHearth_keeps
      (at_keeps h)))))))

theorem execSpiReadReply_keeps {r s : State} {t} {n} (h : Keeps r s) :
    KeepsO r (execSpiReadReply t n s) := by
  delta execSpiReadReply
  exact (KeepsO.ite (KeepsO.next (at_keeps h)) (by
    (try dsimp only)
    split
    · exact (KeepsO.next (Keeps.mk' (wakeHearth_keeps (at_keeps h)) fun hw => hw))
    · exact (KeepsO.next (Keeps.mk' (wakeHearth_keeps (at_keeps h)) fun hw => hw))
  ))

theorem execSpiReadStatus_keeps {r s : State} {t} (h : Keeps r s) :
    KeepsO r (execSpiReadStatus t s) := by
  delta execSpiReadStatus
  exact (KeepsO.ite (KeepsO.next (at_keeps h)) (KeepsO.next (Keeps.mk' (wakeHearth_keeps (at_keeps h)) fun hw => hw)))

theorem execMbxDoorbell_keeps {r s : State} {t} {value} {slotBytes} (h : Keeps r s) :
    KeepsO r (execMbxDoorbell t value slotBytes s) := by
  delta execMbxDoorbell
  exact (KeepsO.ite (KeepsO.next (at_keeps h)) (KeepsO.ite (KeepsO.next (raise_keeps (Keeps.mk' (at_keeps h) fun hw
      => hw))) (KeepsO.next (packetIn_keeps (Keeps.mk' (at_keeps h) fun hw => hw)))))

theorem execMbxStatusClear_keeps {r s : State} {t} {value} (h : Keeps r s) :
    KeepsO r (execMbxStatusClear t value s) := by
  delta execMbxStatusClear
  exact (KeepsO.ite (KeepsO.next (at_keeps h)) (KeepsO.next (Keeps.mk' (at_keeps h) fun hw => hw)))

theorem setReasm_keeps {r s : State} {safety} {r0} (h : Keeps r s) :
    Keeps r (setReasm safety r0 s) := by
  delta setReasm
  exact (Keeps.ite (Keeps.mk' h fun hw => hw) (Keeps.mk' h fun hw => hw))

theorem abandon_keeps {r s : State} {safety} (h : Keeps r s) :
    Keeps r (abandon safety s) := by
  delta abandon
  exact (Keeps.ite (raise_keeps (setReasm_keeps h)) (replyEarly_keeps (raise_keeps (setReasm_keeps h))))

theorem canPacket_keeps {r s : State} {safety} {bytes} {last} (h : Keeps r s) :
    Keeps r (canPacket safety bytes last s) := by
  delta canPacket
  exact (Keeps.ite (packetIn_keeps h) (packetIn_keeps h))

theorem canJoin_keeps {r s : State} {safety} {first} {last} {idx} {body} (h : Keeps r s) :
    Keeps r (canJoin safety first last idx body s) := by
  delta canJoin
  exact (Keeps.ite (raise_keeps (setReasm_keeps h)) (Keeps.ite (canPacket_keeps (setReasm_keeps h)) (setReasm_keeps
      h)))

theorem canErrors_keeps {r s : State} (h : Keeps r s) :
    Keeps r (canErrors s) := by
  delta canErrors
  exact (Keeps.mk' (fresh_keeps h) fun hw => hw)

theorem canTake_keeps {r s : State} {f} (h : Keeps r s) :
    Keeps r (canTake f s) := by
  delta canTake
  exact (Keeps.ite (Keeps.ite (abandon_keeps (Keeps.ite (abandon_keeps h) h)) (raise_keeps (Keeps.ite (abandon_keeps
      h) h))) (Keeps.ite (canJoin_keeps (Keeps.ite (abandon_keeps (Keeps.ite (abandon_keeps h) h)) (Keeps.ite
      (abandon_keeps h) h))) (Keeps.ite (Keeps.ite (abandon_keeps h) h) (Keeps.ite (abandon_keeps (Keeps.ite
      (abandon_keeps h) h)) (canJoin_keeps (Keeps.ite (abandon_keeps h) h))))))

theorem canBuffer_keeps {r s : State} {f} (h : Keeps r s) :
    Keeps r (canBuffer f s) := by
  delta canBuffer
  exact (Keeps.mk' h fun hw => hw)

theorem canDrain_keeps {r s : State} (h : Keeps r s) :
    Keeps r (canDrain s) := by
  delta canDrain
  exact (Keeps.fold (Keeps.mk' h fun hw => hw) (fun _ _ h1 => (canTake_keeps h1)))

theorem execCanFrameReceive_keeps {r s : State} {t} {ident} {fd} {data} (h : Keeps r s) :
    KeepsO r (execCanFrameReceive t ident fd data s) := by
  delta execCanFrameReceive
  exact (KeepsO.ite (KeepsO.next (canErrors_keeps (at_keeps h))) (KeepsO.next (canDrain_keeps (canBuffer_keeps
      (wakeHearth_keeps (canErrors_keeps (at_keeps h)))))))

theorem execCanReassemblyTimeout_keeps {r s : State} {t} {safety} (h : Keeps r s) :
    KeepsO r (execCanReassemblyTimeout t safety s) := by
  delta execCanReassemblyTimeout
  exact (KeepsO.ite (KeepsO.next (abandon_keeps (at_keeps h))) (KeepsO.next (at_keeps h)))

theorem execCanFrameSent_keeps {r s : State} {t} (h : Keeps r s) :
    KeepsO r (execCanFrameSent t s) := by
  have k : Keeps r (canErrors (s.at t)) := canErrors_keeps (at_keeps h)
  delta execCanFrameSent
  dsimp only
  generalize canErrors (s.at t) = x at k ⊢
  have o (h' : Hst) : Keeps r { x with hst := h' } := Keeps.mk' k fun hw => hw
  refine KeepsO.ite (KeepsO.next k) (KeepsO.next (Keeps.mk' ?_ fun hw => hw))
  split
  · exact o _
  · exact canApply_keeps (o _)
  · exact Keeps.mk' k fun hw => hw
  · exact canApply_keeps (o _)

theorem execCanBusOff_keeps {r s : State} {t} (h : Keeps r s) :
    KeepsO r (execCanBusOff t s) := by
  delta execCanBusOff
  exact (KeepsO.ite (KeepsO.next (canErrors_keeps (at_keeps h))) (KeepsO.next (raise_keeps (Keeps.mk'
      (canErrors_keeps (at_keeps h)) fun hw => hw))))

theorem execCanBusOffRecovery_keeps {r s : State} {t} (h : Keeps r s) :
    KeepsO r (execCanBusOffRecovery t s) := by
  delta execCanBusOffRecovery
  exact (KeepsO.next (Keeps.mk' (canErrors_keeps (at_keeps h)) fun hw => hw))

theorem execReplyCacheExpiry_keeps {r s : State} {t} (h : Keeps r s) :
    KeepsO r (execReplyCacheExpiry t s) := by
  delta execReplyCacheExpiry
  exact (KeepsO.next (Keeps.mk' (at_keeps h) fun hw => hw))

theorem execForwardTimeout_keeps {r s : State} {t} (h : Keeps r s) :
    KeepsO r (execForwardTimeout t s) := by
  delta execForwardTimeout
  exact (KeepsO.next (Keeps.fold (at_keeps h) (fun _ _ h1 => (finishFwd_keeps (Keeps.mk' h1 fun hw => hw)))))

/-! ## Machine/Anvil.lean -/

theorem setAnv_keeps {r s : State} {f} (h : Keeps r s) :
    Keeps r (setAnv f s) := by
  delta setAnv
  exact (Keeps.mk' h fun hw => hw)

theorem judgeHolder_keeps {r s : State} (h : Keeps r s) :
    Keeps r (judgeHolder s) := by
  delta judgeHolder
  exact (Keeps.ite (setAnv_keeps h) (raiseIf_keeps (setAnv_keeps h)))

theorem verifyFail_keeps {r s : State} {cause} {engine} (h : Keeps r s) :
    Keeps r (verifyFail cause engine s) := by
  delta verifyFail
  exact (judgeHolder_keeps (raise_keeps (setAnv_keeps h)))

theorem claimRefused_keeps {r s : State} (h : Keeps r s) :
    Keeps r (claimRefused s).1 := by
  delta claimRefused
  exact (Keeps.ite1 (Keeps.fst (raise_keeps (setAnv_keeps h))) (Keeps.fst (setAnv_keeps h)))

theorem anvilClaimBody_keeps {r s : State} {rq} (h : Keeps r s) :
    Keeps r (anvilClaimBody rq s).1 := by
  delta anvilClaimBody
  exact (Keeps.ite1 (deny_keeps h) (Keeps.ite1 (deny_keeps h) (by
    (try dsimp only)
    split
    · exact (deny_keeps h)
    · exact (Keeps.ite1 (deny_keeps h) (Keeps.ite1 (Keeps.fst (setAnv_keeps (fresh_keeps h))) (by
      split
      · exact (claimRefused_keeps h)
      · exact (Keeps.ite1 (Keeps.fst (setAnv_keeps h)) (claimRefused_keeps h))
    )))
  )))

theorem setFnState_keeps {r s : State} {n} {st} (h : Keeps r s) :
    Keeps r (setFnState n st s) := by
  delta setFnState
  exact (by
    (try dsimp only)
    split
    · exact (Keeps.ite (Keeps.mk' (setAnv_keeps h) fun hw => hw) (setAnv_keeps h))
    · exact (setAnv_keeps h)
  )

theorem anvilReply_keeps {r s : State} {rq} {seq} (h : Keeps r s) :
    Keeps r (anvilReply rq seq s).1 := by
  delta anvilReply
  exact (Keeps.fst h)

theorem ownerTimer_keeps {r s : State} (h : Keeps r s) :
    Keeps r (ownerTimer s) := by
  delta ownerTimer
  exact (setAnv_keeps h)

theorem anvilAccepted_keeps {r s : State} {seq} (h : Keeps r s) :
    Keeps r (anvilAccepted seq s) := by
  delta anvilAccepted
  exact (judgeHolder_keeps (setAnv_keeps (ownerTimer_keeps h)))

theorem anvilRequestBody_keeps {r s : State} {rq} (h : Keeps r s) :
    Keeps r (anvilRequestBody rq s).1 := by
  delta anvilRequestBody
  exact (Keeps.ite1 (deny_keeps h) (by
    (try dsimp only)
    split
    · exact (Keeps.ite1 (deny_keeps h) (Keeps.ite1 (Keeps.fst (raise_keeps h)) (Keeps.ite1 (Keeps.fst (raise_keeps
        h)) (Keeps.ite1 (deny_keeps (anvilAccepted_keeps h)) (Keeps.ite1 (deny_keeps (anvilAccepted_keeps h))
        (anvilReply_keeps (Keeps.ite (judgeHolder_keeps (setAnv_keeps (Keeps.fold (anvilAccepted_keeps h) (fun _ _ h1
        => (setFnState_keeps h1))))) (Keeps.fold (anvilAccepted_keeps h) (fun _ _ h2 => (setFnState_keeps h2))))))))))
    · exact (deny_keeps h)
  ))

theorem anvilVerifyReadBody_keeps {r s : State} {rq} (h : Keeps r s) :
    Keeps r (anvilVerifyReadBody rq s).1 := by
  delta anvilVerifyReadBody
  exact (Keeps.fst h)

theorem execAnvilClaim_keeps {r s : State} {t} {rq} (h : Keeps r s) :
    KeepsO r (execAnvilClaim t rq s) := by
  delta execAnvilClaim
  exact (KeepsO.next (serve_keeps (at_keeps h) (fun _ _ h1 => (anvilClaimBody_keeps h1))))

theorem execAnvilRequest_keeps {r s : State} {t} {rq} (h : Keeps r s) :
    KeepsO r (execAnvilRequest t rq s) := by
  delta execAnvilRequest
  exact (KeepsO.next (serve_keeps (at_keeps h) (fun _ _ h1 => (anvilRequestBody_keeps h1))))

theorem execAnvilVerifyRead_keeps {r s : State} {t} {rq} (h : Keeps r s) :
    KeepsO r (execAnvilVerifyRead t rq s) := by
  delta execAnvilVerifyRead
  exact (KeepsO.next (serve_keeps (at_keeps h) (fun _ _ h1 => (anvilVerifyReadBody_keeps h1))))

theorem execNonceExpiry_keeps {r s : State} {t} (h : Keeps r s) :
    KeepsO r (execNonceExpiry t s) := by
  delta execNonceExpiry
  exact (KeepsO.next (Keeps.ite (at_keeps h) (setAnv_keeps (at_keeps h))))

theorem execClaimLockoutExpiry_keeps {r s : State} {t} (h : Keeps r s) :
    KeepsO r (execClaimLockoutExpiry t s) := by
  delta execClaimLockoutExpiry
  exact (KeepsO.next (Keeps.ite (at_keeps h) (setAnv_keeps (at_keeps h))))

theorem execOwnerTimeout_keeps {r s : State} {t} (h : Keeps r s) :
    KeepsO r (execOwnerTimeout t s) := by
  delta execOwnerTimeout
  exact (by
    (try dsimp only)
    split
    · exact (KeepsO.ite (KeepsO.next (judgeHolder_keeps (raise_keeps (setAnv_keeps (at_keeps h))))) (KeepsO.next
        (at_keeps h)))
    · exact (KeepsO.next (at_keeps h))
  )

theorem slotUnlit_keeps {r s : State} {e} {n} (h : Keeps r s) :
    Keeps r (slotUnlit e n s) := by
  delta slotUnlit
  exact (setAnv_keeps h)

theorem probationStep_keeps {r s : State} (h : Keeps r s) :
    Keeps r (probationStep s) := by
  delta probationStep
  exact (Keeps.ite h (Keeps.ite (raise_keeps (setAnv_keeps h)) (setAnv_keeps h)))

theorem recordVerdict_keeps {r s : State} {v} (h : Keeps r s) :
    Keeps r (recordVerdict v s) := by
  delta recordVerdict
  exact (setAnv_keeps h)

theorem execFrameVerdict_keeps {r s : State} {t} {meas} (h : Keeps r s) :
    KeepsO r (execFrameVerdict t meas s) := by
  delta execFrameVerdict
  exact (KeepsO.ite (KeepsO.next (at_keeps h)) (KeepsO.ite (KeepsO.next (probationStep_keeps (recordVerdict_keeps
      (at_keeps h)))) (by
    (try dsimp only)
    split
    · exact (KeepsO.next (probationStep_keeps (setAnv_keeps (recordVerdict_keeps (at_keeps h)))))
    · exact (KeepsO.ite (KeepsO.next (verifyFail_keeps (setAnv_keeps (recordVerdict_keeps (at_keeps h)))))
        (KeepsO.next (setAnv_keeps (recordVerdict_keeps (at_keeps h)))))
  )))

theorem setCam_keeps {r s : State} {c} {f} (h : Keeps r s) :
    Keeps r (setCam c f s) := by
  delta setCam
  exact (setAnv_keeps h)

theorem camTest_keeps {r s : State} {c} {x} (h : Keeps r s) :
    Keeps r (camTest c x s) := by
  delta camTest
  exact (Keeps.ite (verifyFail_keeps (setCam_keeps h)) (setCam_keeps h))

theorem csiStatus_keeps {r s : State} {cam} {r0} (h : Keeps r s) :
    Keeps r (csiStatus cam r0 s) := by
  delta csiStatus
  exact (Keeps.mk' (fresh_keeps h) fun hw => hw)

theorem execCameraFrame_keeps {r s : State} {t} {cam} {crcErr} {covers} {quiet} {tests} (h : Keeps r s) :
    KeepsO r (execCameraFrame t cam crcErr covers quiet tests s) := by
  delta execCameraFrame
  exact (KeepsO.ite (KeepsO.next (at_keeps h)) (KeepsO.ite (KeepsO.next (raise_keeps (at_keeps h))) (KeepsO.ite
      (KeepsO.next (csiStatus_keeps (at_keeps h))) (KeepsO.next (Keeps.fold (setCam_keeps (csiStatus_keeps (at_keeps
      h))) (fun _ _ h1 => (camTest_keeps h1)))))))

theorem execCameraTimeout_keeps {r s : State} {t} {cam} (h : Keeps r s) :
    KeepsO r (execCameraTimeout t cam s) := by
  delta execCameraTimeout
  exact (KeepsO.ite (KeepsO.next (at_keeps h)) (KeepsO.ite (KeepsO.next (verifyFail_keeps (fresh_keeps (raise_keeps
      (setCam_keeps (csiStatus_keeps (at_keeps h))))))) (KeepsO.next (raise_keeps (setCam_keeps (csiStatus_keeps
      (at_keeps h)))))))

theorem execGlyphReloadComplete_keeps {r s : State} {t} (h : Keeps r s) :
    KeepsO r (execGlyphReloadComplete t s) := by
  delta execGlyphReloadComplete
  exact (KeepsO.next (setAnv_keeps (at_keeps h)))

theorem anvEcc_keeps {r s : State} {e} (h : Keeps r s) :
    Keeps r (anvEcc e s) := by
  delta anvEcc
  exact (by
    split
    · exact h
    · exact (raiseEcc_keeps (Keeps.ite (setAnv_keeps h) h))
  )

theorem anvImage_keeps {r s : State} {ok} (h : Keeps r s) :
    Keeps r (anvImage ok s) := by
  delta anvImage
  exact (Keeps.ite (setAnv_keeps h) (raiseIf_keeps (setAnv_keeps h)))

theorem anvFrame_keeps {r s : State} {ecc} {ok} (h : Keeps r s) :
    Keeps r (anvFrame ecc ok s) := by
  delta anvFrame
  exact (setAnv_keeps (judgeHolder_keeps (anvImage_keeps (anvEcc_keeps (setAnv_keeps h)))))

/-! ## Machine/Layers.lean -/

theorem setShadow_keeps {r s : State} {n} {d} (h : Keeps r s) :
    Keeps r (setShadow n d s) := by
  delta setShadow
  exact (Keeps.mk' h fun hw => hw)

theorem layerDefineBody_keeps {r s : State} {rq} (h : Keeps r s) :
    Keeps r (layerDefineBody rq s).1 := by
  delta layerDefineBody
  exact (Keeps.ite1 (deny_keeps h) (Keeps.fst (setShadow_keeps h)))

theorem layerShadowBody_keeps {r s : State} {rq} (h : Keeps r s) :
    Keeps r (layerShadowBody rq s).1 := by
  delta layerShadowBody
  exact (Keeps.ite1 (deny_keeps h) (Keeps.fst (setShadow_keeps h)))

theorem execLayerDefine_keeps {r s : State} {t} {rq} (h : Keeps r s) :
    KeepsO r (execLayerDefine t rq s) := by
  delta execLayerDefine
  exact (KeepsO.next (serve_keeps (at_keeps h) (fun _ _ h1 => (layerDefineBody_keeps h1))))

theorem execLayerShadow_keeps {r s : State} {t} {rq} (h : Keeps r s) :
    KeepsO r (execLayerShadow t rq s) := by
  delta execLayerShadow
  exact (KeepsO.next (serve_keeps (at_keeps h) (fun _ _ h1 => (layerShadowBody_keeps h1))))

theorem writeFence_keeps {r s : State} {n} {v} (h : Keeps r s) :
    Keeps r (writeFence n v s) := by
  delta writeFence
  exact (Keeps.mk' h fun hw => hw)

theorem releaseBuf_keeps {r s : State} {n} {o} (h : Keeps r s) :
    Keeps r (releaseBuf n o s) := by
  delta releaseBuf
  exact (by
    (try dsimp only)
    split
    · exact (Keeps.ite (Keeps.mk' h fun hw => hw) h)
    · exact h
  )

theorem setShown_keeps {r s : State} {n} {o} {transparent} (h : Keeps r s) :
    Keeps r (setShown n o transparent s) := by
  delta setShown
  exact (Keeps.mk' h fun hw => hw)

theorem layerFrame_keeps {r s : State} {n} (h : Keeps r s) :
    Keeps r (layerFrame n s) := by
  delta layerFrame
  exact (Keeps.ite (setShown_keeps (releaseBuf_keeps h)) (Keeps.ite (setShown_keeps (Keeps.ite h (releaseBuf_keeps
      h))) (Keeps.ite (setShown_keeps (releaseBuf_keeps (raise_keeps (Keeps.mk' h fun hw => hw)))) (by
    (try dsimp only)
    split
    · exact (setShown_keeps (raise_keeps (Keeps.mk' h fun hw => hw)))
    · exact (setShown_keeps (raise_keeps (Keeps.mk' h fun hw => hw)))
  ))))

theorem layersFrame_keeps {r s : State} (h : Keeps r s) :
    Keeps r (layersFrame s) := by
  delta layersFrame
  exact (Keeps.fold h (fun _ _ h1 => (layerFrame_keeps h1)))

theorem execCmpFenceWrite_keeps {r s : State} {t} {layer} {value} (h : Keeps r s) :
    KeepsO r (execCmpFenceWrite t layer value s) := by
  delta execCmpFenceWrite
  exact (KeepsO.ite (KeepsO.next (writeFence_keeps (at_keeps h))) (KeepsO.next (at_keeps h)))

theorem judgeDp_keeps {r s : State} {i} (h : Keeps r s) :
    Keeps r (judgeDp i s) := by
  delta judgeDp
  exact (Keeps.ite (raise_keeps (Keeps.mk' h fun hw => hw)) (Keeps.ite (raise_keeps (Keeps.mk' h fun hw => hw))
      (Keeps.mk' h fun hw => hw)))

theorem setDp_keeps {r s : State} {i} {f} (h : Keeps r s) :
    Keeps r (setDp i f s) := by
  delta setDp
  exact (Keeps.mk' h fun hw => hw)

theorem execDpFrameComplete_keeps {r s : State} {t} {f} (h : Keeps r s) :
    KeepsO r (execDpFrameComplete t f s) := by
  delta execDpFrameComplete
  exact (KeepsO.ite (KeepsO.next (at_keeps h)) (KeepsO.ite (KeepsO.next (setDp_keeps (at_keeps h))) (KeepsO.next
      (judgeDp_keeps (setDp_keeps (setGrn_wf (at_keeps h) fun hw => Grn.store_wf hw))))))

theorem execDpLinkLoss_keeps {r s : State} {t} {i} (h : Keeps r s) :
    KeepsO r (execDpLinkLoss t i s) := by
  delta execDpLinkLoss
  exact (KeepsO.ite (KeepsO.next (at_keeps h)) (KeepsO.next (judgeDp_keeps (setDp_keeps (at_keeps h)))))

theorem execDpStaleTimeout_keeps {r s : State} {t} {i} (h : Keeps r s) :
    KeepsO r (execDpStaleTimeout t i s) := by
  delta execDpStaleTimeout
  exact (KeepsO.ite (KeepsO.next (at_keeps h)) (KeepsO.next (judgeDp_keeps (setDp_keeps (at_keeps h)))))

theorem execDpLinkLock_keeps {r s : State} {t} {i} {rate} {dsc} {w} {h0} {refreshMilliHz} {bpp} (h : Keeps r s) :
    KeepsO r (execDpLinkLock t i rate dsc w h0 refreshMilliHz bpp s) := by
  delta execDpLinkLock
  exact (KeepsO.ite (KeepsO.next (at_keeps h)) (KeepsO.next (Keeps.ite (raise_keeps (setDp_keeps (at_keeps h)))
      (judgeDp_keeps (setDp_keeps (at_keeps h))))))

/-! ## Machine/Colour.lean -/

theorem setClw_keeps {r s : State} {f} (h : Keeps r s) :
    Keeps r (setClw f s) := by
  delta setClw
  exact (Keeps.mk' h fun hw => hw)

theorem gamutLoadBody_keeps {r s : State} {rq} (h : Keeps r s) :
    Keeps r (gamutLoadBody rq s).1 := by
  delta gamutLoadBody
  exact (Keeps.ite1 (deny_keeps h) (Keeps.ite1 (deny_keeps h) (Keeps.fst (setClw_keeps h))))

theorem execGamutLoad_keeps {r s : State} {t} {rq} (h : Keeps r s) :
    KeepsO r (execGamutLoad t rq s) := by
  delta execGamutLoad
  exact (KeepsO.next (serve_keeps (at_keeps h) (fun _ _ h1 => (gamutLoadBody_keeps h1))))

theorem availFrame_keeps {r s : State} (h : Keeps r s) :
    Keeps r (availFrame s) := by
  delta availFrame
  exact (Keeps.fold (raiseIf_keeps (setClw_keeps h)) (fun _ _ h1 => (raiseIf_keeps h1)))

theorem snapFrame_keeps {r s : State} (h : Keeps r s) :
    Keeps r (snapFrame s) := by
  delta snapFrame
  exact (setClw_keeps h)

theorem matrixEngine_keeps {r s : State} {ready} {e} (h : Keeps r s) :
    Keeps r (matrixEngine ready e s) := by
  delta matrixEngine
  exact (Keeps.ite h (Keeps.ite h (Keeps.ite (Keeps.ite h (raise_keeps (setClw_keeps h))) (by
    (try dsimp only)
    split
    · exact (raiseIf_keeps (setClw_keeps h))
    · exact (raise_keeps (setClw_keeps h))
  ))))

theorem execEstimateValidTimeout_keeps {r s : State} {t} {ch} (h : Keeps r s) :
    KeepsO r (execEstimateValidTimeout t ch s) := by
  delta execEstimateValidTimeout
  exact (KeepsO.ite (KeepsO.next (setClw_keeps (at_keeps h))) (KeepsO.next (at_keeps h)))

theorem execEstimateHoldExpiry_keeps {r s : State} {t} {ch} (h : Keeps r s) :
    KeepsO r (execEstimateHoldExpiry t ch s) := by
  delta execEstimateHoldExpiry
  exact (by
    (try dsimp only)
    split
    · exact (KeepsO.ite (KeepsO.next (raise_keeps (setClw_keeps (at_keeps h)))) (KeepsO.next (at_keeps h)))
    · exact (KeepsO.next (at_keeps h))
  )

theorem execGamutHoldTimeout_keeps {r s : State} {t} {e} (h : Keeps r s) :
    KeepsO r (execGamutHoldTimeout t e s) := by
  delta execGamutHoldTimeout
  exact (by
    (try dsimp only)
    split
    · exact (KeepsO.next (raiseIf_keeps (at_keeps h)))
    · exact (KeepsO.next (at_keeps h))
  )

theorem execColourSensorTimeout_keeps {r s : State} {t} {e} (h : Keeps r s) :
    KeepsO r (execColourSensorTimeout t e s) := by
  delta execColourSensorTimeout
  exact (KeepsO.ite (KeepsO.next (raise_keeps (setClw_keeps (at_keeps h)))) (KeepsO.next (at_keeps h)))

theorem setWarp_keeps {r s : State} {e} {f} (h : Keeps r s) :
    Keeps r (setWarp e f s) := by
  delta setWarp
  exact (setClw_keeps h)

theorem setSlot_keeps {r s : State} {e} {q} {m} (h : Keeps r s) :
    Keeps r (setSlot e q m s) := by
  delta setSlot
  exact (setWarp_keeps h)

theorem warpBegin_keeps {r s : State} {e} (h : Keeps r s) :
    Keeps r (warpBegin e s) := by
  delta warpBegin
  exact (setWarp_keeps h)

theorem warpDefine_keeps {r s : State} {e} {q} {sp} (h : Keeps r s) :
    Keeps r (warpDefine e q sp s).1 := by
  delta warpDefine
  exact (by
    (try dsimp only)
    split
    · exact (deny_keeps h)
    · exact (Keeps.fst (setClw_keeps (setSlot_keeps h)))
  )

theorem warpData_keeps {r s : State} {e} {q} {first} {p} {n} (h : Keeps r s) :
    Keeps r (warpData e q first p n s) := by
  delta warpData
  exact (setClw_keeps (setWarp_keeps h))

theorem warpLoadBody_keeps {r s : State} {rq} (h : Keeps r s) :
    Keeps r (warpLoadBody rq s).1 := by
  delta warpLoadBody
  exact (Keeps.ite1 (deny_keeps h) (Keeps.ite1 (deny_keeps h) (Keeps.ite1 (deny_keeps h) (Keeps.ite1 (deny_keeps h)
      (Keeps.ite1 (deny_keeps h) (Keeps.ite1 (Keeps.fst (warpBegin_keeps h)) (Keeps.ite1 (deny_keeps h) (Keeps.ite1
      (warpDefine_keeps h) (Keeps.ite1 (Keeps.ite1 (deny_keeps h) (Keeps.ite1 (deny_keeps h) (Keeps.fst
      (warpData_keeps h)))) (Keeps.ite1 (Keeps.fst (setSlot_keeps h)) (Keeps.fst (setSlot_keeps h))))))))))))

theorem execWarpLoad_keeps {r s : State} {t} {rq} (h : Keeps r s) :
    KeepsO r (execWarpLoad t rq s) := by
  delta execWarpLoad
  exact (KeepsO.next (serve_keeps (at_keeps h) (fun _ _ h1 => (warpLoadBody_keeps h1))))

theorem warpFallback_keeps {r s : State} {e} (h : Keeps r s) :
    Keeps r (warpFallback e s) := by
  delta warpFallback
  exact (Keeps.fold (setWarp_keeps h) (fun _ _ h1 => (raise_keeps h1)))

theorem gamutValidated_keeps {r s : State} {b} {e} (h : Keeps r s) :
    Keeps r (gamutValidated b e s) := by
  delta gamutValidated
  exact (setClw_keeps h)

theorem warpApply_keeps {r s : State} {e} (h : Keeps r s) :
    Keeps r (warpApply e s) := by
  delta warpApply
  exact (warpFallback_keeps (setWarp_keeps h))

theorem trialApply_keeps {r s : State} {e} (h : Keeps r s) :
    Keeps r (trialApply e s) := by
  delta trialApply
  exact (setClw_keeps h)

theorem gamutApply_keeps {r s : State} {e} (h : Keeps r s) :
    Keeps r (gamutApply e s) := by
  delta gamutApply
  exact (trialApply_keeps (setClw_keeps h))

/-! ## Machine/Sheaf.lean -/

theorem setThr_keeps {r s : State} {f} (h : Keeps r s) :
    Keeps r (setThr f s) := by
  delta setThr
  exact (Keeps.mk' h fun hw => hw)

theorem setThrE_keeps {r s : State} {e} {f} (h : Keeps r s) :
    Keeps r (setThrE e f s) := by
  delta setThrE
  exact (setThr_keeps h)

theorem startRecompile_keeps {r s : State} {e} {sn} {un} {rate} (h : Keeps r s) :
    Keeps r (startRecompile e sn un rate s) := by
  delta startRecompile
  exact (Keeps.ite h (setThrE_keeps h))

theorem endRecompile_keeps {r s : State} {e} {f} (h : Keeps r s) :
    Keeps r (endRecompile e f s) := by
  delta endRecompile
  exact (by
    (try dsimp only)
    split
    · exact h
    · exact (setThrE_keeps h)
  )

theorem judgeReduced_keeps {r s : State} {fresh} {e} {old} {new} (h : Keeps r s) :
    Keeps r (judgeReduced fresh e old new s) := by
  delta judgeReduced
  exact (by
    (try dsimp only)
    split
    · exact (raiseIf_keeps h)
    · exact h
  )

theorem stepEngine_keeps {r s : State} {f} {e} (h : Keeps r s) :
    Keeps r (stepEngine f e s) := by
  delta stepEngine
  exact (judgeReduced_keeps (setThr_keeps (setThrE_keeps (endRecompile_keeps h))))

theorem rateEvents_keeps {r s : State} {x} (h : Keeps r s) :
    Keeps r (rateEvents x s) := by
  delta rateEvents
  exact (setThr_keeps (raiseIf_keeps (raiseIf_keeps h)))

theorem reassess_keeps {r s : State} {f} (h : Keeps r s) :
    Keeps r (reassess f s) := by
  delta reassess
  exact (forEng_keeps (rateEvents_keeps h) (fun _ _ h1 => (startRecompile_keeps h1)))

theorem initBudget_keeps {r s : State} (h : Keeps r s) :
    Keeps r (initBudget s) := by
  delta initBudget
  exact (setThr_keeps (Keeps.mk' h fun hw => hw))

theorem sheafLoadRun_keeps {r s : State} {rq} (h : Keeps r s) :
    Keeps r (sheafLoadRun rq s).1 := by
  delta sheafLoadRun
  exact (Keeps.ite1 (deny_keeps h) (Keeps.ite1 (deny_keeps h) (Keeps.fst (setThrE_keeps h))))

theorem sheafLoadBody_keeps {r s : State} {rq} (h : Keeps r s) :
    Keeps r (sheafLoadBody rq s).1 := by
  delta sheafLoadBody
  exact (by
    split
    · exact (Keeps.fst h)
    · exact (deferrable_keeps h (fun _ _ h1 => (sheafLoadRun_keeps h1)))
  )

theorem execSheafLoad_keeps {r s : State} {t} {rq} (h : Keeps r s) :
    KeepsO r (execSheafLoad t rq s) := by
  delta execSheafLoad
  exact (KeepsO.next (serve_keeps (at_keeps h) (fun _ _ h1 => (sheafLoadBody_keeps h1))))

theorem execSheafRecompileComplete_keeps {r s : State} {t} {e} (h : Keeps r s) :
    KeepsO r (execSheafRecompileComplete t e s) := by
  delta execSheafRecompileComplete
  exact (KeepsO.next (endRecompile_keeps (at_keeps h)))

theorem selAdvance_keeps {r s : State} (h : Keeps r s) :
    Keeps r (selAdvance s) := by
  delta selAdvance
  exact (setThr_keeps h)

theorem execThrSheafDataHiRead_keeps {r s : State} {t} (h : Keeps r s) :
    KeepsO r (execThrSheafDataHiRead t s) := by
  delta execThrSheafDataHiRead
  exact (KeepsO.ite (KeepsO.next (Keeps.mk' (at_keeps h) fun hw => hw)) (KeepsO.next (selAdvance_keeps (Keeps.mk'
      (at_keeps h) fun hw => hw))))

theorem sheafValidated_keeps {r s : State} {depths} {flagged} {e} (h : Keeps r s) :
    Keeps r (sheafValidated depths flagged e s) := by
  delta sheafValidated
  exact (Keeps.ite (setThrE_keeps h) h)

theorem sheafWorks_keeps {r s : State} {f} {live} {e} (h : Keeps r s) :
    Keeps r (sheafWorks f live e s) := by
  delta sheafWorks
  exact (setThrE_keeps h)

theorem sheafApply_keeps {r s : State} {f} {flagged} {depthsMoved} {e} (h : Keeps r s) :
    Keeps r (sheafApply f flagged depthsMoved e s) := by
  delta sheafApply
  exact (Keeps.ite h (setThrE_keeps h))

/-! ## Machine/Forge.lean -/

theorem setFrg_keeps {r s : State} {f} (h : Keeps r s) :
    Keeps r (setFrg f s) := by
  delta setFrg
  exact (Keeps.mk' h fun hw => hw)

theorem setFrgE_keeps {r s : State} {e} {f} (h : Keeps r s) :
    Keeps r (setFrgE e f s) := by
  delta setFrgE
  exact (setFrg_keeps h)

theorem setCh_keeps {r s : State} {c} {f} (h : Keeps r s) :
    Keeps r (setCh c f s) := by
  delta setCh
  exact (setFrg_keeps h)

theorem setSwt_keeps {r s : State} {e} {f} (h : Keeps r s) :
    Keeps r (setSwt e f s) := by
  delta setSwt
  exact (Keeps.mk' h fun hw => hw)

theorem setScn_keeps {r s : State} {e} {f} (h : Keeps r s) :
    Keeps r (setScn e f s) := by
  delta setScn
  exact (Keeps.mk' h fun hw => hw)

theorem engChans_keeps {r s : State} {e} {f} (h : Keeps r s) :
    Keeps r (engChans e f s) := by
  delta engChans
  exact (setFrg_keeps h)

theorem setTmp_keeps {r s : State} {f} (h : Keeps r s) :
    Keeps r (setTmp f s) := by
  delta setTmp
  exact (Keeps.mk' h fun hw => hw)

theorem dropSteps_keeps {r s : State} {q} {p} (h : Keeps r s) :
    Keeps r (dropSteps q p s) := by
  delta dropSteps
  exact (setTmp_keeps h)

theorem engineDark_keeps {r s : State} {e} (h : Keeps r s) :
    Keeps r (engineDark e s) := by
  delta engineDark
  exact (dropSteps_keeps (dropSteps_keeps (dropSteps_keeps (dropSteps_keeps (setScn_keeps (setSwt_keeps
      (setThrE_keeps (engChans_keeps (setFrgE_keeps h)))))))))

theorem darkCause_keeps {r s : State} {e} {b} (h : Keeps r s) :
    Keeps r (darkCause e b s) := by
  delta darkCause
  exact (judgeHolder_keeps (engineDark_keeps (setFrgE_keeps h)))

theorem releaseCause_keeps {r s : State} {e} {b} (h : Keeps r s) :
    Keeps r (releaseCause e b s) := by
  delta releaseCause
  exact (setFrgE_keeps h)

theorem rampFrame_keeps {r s : State} (h : Keeps r s) :
    Keeps r (rampFrame s) := by
  delta rampFrame
  exact (by
    (try dsimp only)
    split
    · exact (Keeps.ite (setFrg_keeps (by
      split
      · exact (setFrg_keeps h)
      · exact h
    )) (setFrg_keeps (by
      split
      · exact (setFrg_keeps h)
      · exact h
    )))
    · exact (by
      split
      · exact (setFrg_keeps h)
      · exact h
    )
  )

theorem setLightLevel_keeps {r s : State} {v} {n} (h : Keeps r s) :
    Keeps r (setLightLevel v n s) := by
  delta setLightLevel
  exact (setFrg_keeps h)

theorem lightLevelBody_keeps {r s : State} {rq} (h : Keeps r s) :
    Keeps r (lightLevelBody rq s).1 := by
  delta lightLevelBody
  exact (Keeps.ite1 (deny_keeps h) (Keeps.ite1 (Keeps.fst (Keeps.mk' h fun hw => hw)) (Keeps.fst (setLightLevel_keeps
      h))))

theorem execLightLevel_keeps {r s : State} {t} {rq} (h : Keeps r s) :
    KeepsO r (execLightLevel t rq s) := by
  delta execLightLevel
  exact (KeepsO.next (serve_keeps (at_keeps h) (fun _ _ h1 => (lightLevelBody_keeps h1))))

theorem lightFrame_keeps {r s : State} {e} (h : Keeps r s) :
    Keeps r (lightFrame e s) := by
  delta lightFrame
  exact (Keeps.ite h (raiseIf_keeps (raiseIf_keeps (setFrgE_keeps h))))

theorem dropFrame_keeps {r s : State} {e} (h : Keeps r s) :
    Keeps r (dropFrame e s) := by
  delta dropFrame
  exact (Keeps.ite (setFrgE_keeps h) (setFrgE_keeps h))

theorem bitsFrame_keeps {r s : State} {e} (h : Keeps r s) :
    Keeps r (bitsFrame e s) := by
  delta bitsFrame
  exact (setThrE_keeps h)

theorem execDerateRecompute_keeps {r s : State} {t} (h : Keeps r s) :
    KeepsO r (execDerateRecompute t s) := by
  delta execDerateRecompute
  exact (KeepsO.ite (KeepsO.next (at_keeps h)) (KeepsO.next (setFrg_keeps (at_keeps h))))

theorem derateWrite_keeps {r s : State} {value} (h : Keeps r s) :
    Keeps r (derateWrite value s).2 := by
  delta derateWrite
  exact (Keeps.ite2 (Keeps.snd h) (Keeps.ite2 (Keeps.snd h) (Keeps.ite2 (Keeps.ite2 (Keeps.snd (setCh_keeps h))
      (Keeps.snd h)) (Keeps.snd (setCh_keeps h)))))

theorem regAnswer_keeps {r s : State} {f} (h : Keeps r s) (hf : ∀ x, Keeps r x → Keeps r (f x).2) :
    KeepsO r (regAnswer f s) := by
  delta regAnswer
  exact (KeepsO.ite (KeepsO.next (Keeps.mk' (hf _ h) fun hw => hw)) (KeepsO.next (Keeps.mk' h fun hw => hw)))

theorem execFrgDerateDataWrite_keeps {r s : State} {t} {value} (h : Keeps r s) :
    KeepsO r (execFrgDerateDataWrite t value s) := by
  delta execFrgDerateDataWrite
  exact (regAnswer_keeps (at_keeps h) (fun _ h1 => (derateWrite_keeps h1)))

theorem emissionTrip_keeps {r s : State} {e} (h : Keeps r s) :
    Keeps r (emissionTrip e s) := by
  delta emissionTrip
  exact (raise_keeps (darkCause_keeps (setFrgE_keeps h)))

theorem execEmissionSample_keeps {r s : State} {t} {e} {power} (h : Keeps r s) :
    KeepsO r (execEmissionSample t e power s) := by
  delta execEmissionSample
  exact (KeepsO.ite (KeepsO.next (at_keeps h)) (KeepsO.ite (KeepsO.next (emissionTrip_keeps (setFrgE_keeps (at_keeps
      h)))) (KeepsO.next (setFrgE_keeps (at_keeps h)))))

theorem emitResetWrite_keeps {r s : State} {e} (h : Keeps r s) :
    Keeps r (emitResetWrite e s).2 := by
  delta emitResetWrite
  exact (by
    split
    · exact (Keeps.snd h)
    · exact (Keeps.ite2 (Keeps.snd (releaseCause_keeps (setFrgE_keeps h))) (Keeps.snd h))
  )

theorem execEmitReset_keeps {r s : State} {t} {e} (h : Keeps r s) :
    KeepsO r (execEmitReset t e s) := by
  delta execEmitReset
  exact (regAnswer_keeps (at_keeps h) (fun _ h1 => (emitResetWrite_keeps h1)))

theorem execPdFaultCount_keeps {r s : State} {t} {ch} (h : Keeps r s) :
    KeepsO r (execPdFaultCount t ch s) := by
  delta execPdFaultCount
  exact (KeepsO.ite (KeepsO.next (at_keeps h)) (KeepsO.next (raise_keeps (setCh_keeps (setScn_keeps (at_keeps h))))))

/-! ## Machine/Temper.lean -/

theorem checkFailure_keeps {r s : State} {q} {t} (h : Keeps r s) :
    Keeps r (checkFailure q t s) := by
  delta checkFailure
  exact (raiseIf_keeps (setTmp_keeps h))

theorem execTemperMeasurementWindow_keeps {r s : State} {t} {q} {tap} {preOk} {target} (h : Keeps r s) :
    KeepsO r (execTemperMeasurementWindow t q tap preOk target s) := by
  delta execTemperMeasurementWindow
  exact (KeepsO.ite (KeepsO.next (at_keeps h)) (KeepsO.ite (KeepsO.next (setTmp_keeps (at_keeps h))) (by
    split
    · exact (KeepsO.next (at_keeps h))
    · exact (KeepsO.ite (KeepsO.next (checkFailure_keeps (at_keeps h))) (KeepsO.next (setTmp_keeps (at_keeps h))))
  )))

theorem setWorking_keeps {r s : State} {q} {t} {v} (h : Keeps r s) :
    Keeps r (setWorking q t v s) := by
  delta setWorking
  exact (setTmp_keeps h)

theorem applyMove_keeps {r s : State} {q} {tap} {target} (h : Keeps r s) :
    Keeps r (applyMove q tap target s) := by
  delta applyMove
  exact (Keeps.ite (setScn_keeps (setTmp_keeps (Keeps.mk' (setWorking_keeps h) fun hw => hw))) (setTmp_keeps
      (Keeps.mk' (setWorking_keeps h) fun hw => hw)))

theorem execTemperMove_keeps {r s : State} {t} {q} {tap} (h : Keeps r s) :
    KeepsO r (execTemperMove t q tap s) := by
  delta execTemperMove
  exact (by
    (try dsimp only)
    split
    · exact (KeepsO.next (at_keeps h))
    · exact (KeepsO.ite (KeepsO.next (dropSteps_keeps (at_keeps h))) (KeepsO.ite (KeepsO.next (applyMove_keeps
        (at_keeps h))) (KeepsO.next (at_keeps h))))
  )

theorem forceTaps_keeps {r s : State} {q} {l} (h : Keeps r s) :
    Keeps r (forceTaps q l s) := by
  delta forceTaps
  exact (setTmp_keeps h)

theorem freeTaps_keeps {r s : State} {q} {l} (h : Keeps r s) :
    Keeps r (freeTaps q l s) := by
  delta freeTaps
  exact (Keeps.fold h (fun _ _ h1 => (forceTaps_keeps (fresh_keeps h1))))

theorem adaptLanes_keeps {r s : State} {e} {l} (h : Keeps r s) :
    Keeps r (adaptLanes e l s) := by
  delta adaptLanes
  exact (freeTaps_keeps h)

theorem adaptSwath_keeps {r s : State} {e} (h : Keeps r s) :
    Keeps r (adaptSwath e s) := by
  delta adaptSwath
  exact (freeTaps_keeps (freeTaps_keeps h))

theorem saveDone_keeps {r s : State} {st} (h : Keeps r s) :
    Keeps r (saveDone st s) := by
  delta saveDone
  exact (by
    split
    · exact (cmdDone_keeps (setTmp_keeps h))
    · exact h
  )

theorem journalBegin_keeps {r s : State} (h : Keeps r s) :
    Keeps r (journalBegin s) := by
  delta journalBegin
  exact (by
    (try dsimp only)
    split
    · exact (saveDone_keeps (setTmp_keeps h))
    · exact (Keeps.mk' (setTmp_keeps h) fun hw => hw)
  )

theorem execJournalWriteStart_keeps {r s : State} {t} (h : Keeps r s) :
    KeepsO r (execJournalWriteStart t s) := by
  delta execJournalWriteStart
  exact (KeepsO.next (Keeps.ite (journalBegin_keeps (at_keeps h)) (at_keeps h)))

theorem execJournalRetry_keeps {r s : State} {t} (h : Keeps r s) :
    KeepsO r (execJournalRetry t s) := by
  delta execJournalRetry
  exact (by
    (try dsimp only)
    split
    · exact (KeepsO.ite (KeepsO.next (Keeps.ite (journalBegin_keeps (setTmp_keeps (at_keeps h))) (setTmp_keeps
        (at_keeps h)))) (KeepsO.next (at_keeps h)))
    · exact (KeepsO.next (at_keeps h))
  )

theorem execJournalWriteComplete_keeps {r s : State} {t} {readBackOk} (h : Keeps r s) :
    KeepsO r (execJournalWriteComplete t readBackOk s) := by
  delta execJournalWriteComplete
  exact (by
    (try dsimp only)
    split
    · exact (KeepsO.next (at_keeps h))
    · exact (KeepsO.ite (KeepsO.next (saveDone_keeps (raise_keeps (Keeps.mk' (setTmp_keeps (at_keeps h)) fun hw =>
        hw)))) (KeepsO.next (saveDone_keeps (raise_keeps (setTmp_keeps (at_keeps h))))))
  )

theorem journalAbandon_keeps {r s : State} (h : Keeps r s) :
    Keeps r (journalAbandon s) := by
  delta journalAbandon
  exact (by
    (try dsimp only)
    split
    · exact h
    · exact (saveDone_keeps (setTmp_keeps h))
  )

theorem restoreTaps_keeps {r s : State} {mask} (h : Keeps r s) :
    Keeps r (restoreTaps mask s) := by
  delta restoreTaps
  exact (Keeps.fold h (fun _ _ h1 => (Keeps.ite (setTmp_keeps h1) h1)))

theorem calControlBody_keeps {r s : State} {rq} (h : Keeps r s) :
    Keeps r (calControlBody rq s).1 := by
  delta calControlBody
  exact (Keeps.ite1 (deny_keeps h) (Keeps.ite1 (Keeps.fst (setTmp_keeps h)) (Keeps.ite1 (Keeps.ite1 (deny_keeps h)
      (Keeps.fst (setTmp_keeps h))) (Keeps.ite1 (Keeps.ite1 (deny_keeps h) (Keeps.fst (restoreTaps_keeps h)))
      (Keeps.ite1 (deny_keeps h) (Keeps.fst (setTmp_keeps h)))))))

theorem calReadBody_keeps {r s : State} {rq} (h : Keeps r s) :
    Keeps r (calReadBody rq s).1 := by
  delta calReadBody
  exact (Keeps.ite1 (deny_keeps h) (Keeps.fst h))

theorem execCalControl_keeps {r s : State} {t} {rq} (h : Keeps r s) :
    KeepsO r (execCalControl t rq s) := by
  delta execCalControl
  exact (KeepsO.next (serve_keeps (at_keeps h) (fun _ _ h1 => (calControlBody_keeps h1))))

theorem execCalRead_keeps {r s : State} {t} {rq} (h : Keeps r s) :
    KeepsO r (execCalRead t rq s) := by
  delta execCalRead
  exact (KeepsO.next (serve_keeps (at_keeps h) (fun _ _ h1 => (calReadBody_keeps h1))))

theorem journalLoad_keeps {r s : State} (h : Keeps r s) :
    Keeps r (journalLoad s) := by
  delta journalLoad
  exact (raiseIf_keeps (raiseIf_keeps (raiseIf_keeps (setTmp_keeps h))))

theorem storedTaps_keeps {r s : State} {q} {p} (h : Keeps r s) :
    Keeps r (storedTaps q p s) := by
  delta storedTaps
  exact (setTmp_keeps h)

/-! ## Machine/Servo.lean -/

theorem setSrv_keeps {r s : State} {f} (h : Keeps r s) :
    Keeps r (setSrv f s) := by
  delta setSrv
  exact (Keeps.mk' h fun hw => hw)

theorem setLoop_keeps {r s : State} {n} {f} (h : Keeps r s) :
    Keeps r (setLoop n f s) := by
  delta setLoop
  exact (setSrv_keeps h)

theorem setTrace_keeps {r s : State} {b} {f} (h : Keeps r s) :
    Keeps r (setTrace b f s) := by
  delta setTrace
  exact (setSrv_keeps h)

theorem focusDark_keeps {r s : State} {e} {slice} (h : Keeps r s) :
    Keeps r (focusDark e slice s) := by
  delta focusDark
  exact (raiseIf_keeps (slotUnlit_keeps (engChans_keeps (setThrE_keeps h))))

theorem windowFalls_keeps {r s : State} {n} (h : Keeps r s) :
    Keeps r (windowFalls n s) := by
  delta windowFalls
  exact (Keeps.ite (forEng_keeps (setLoop_keeps h) (fun _ _ h1 => (Keeps.ite (focusDark_keeps h1) h1)))
      (setLoop_keeps h))

theorem setTarget_keeps {r s : State} {e} {j} (h : Keeps r s) :
    Keeps r (setTarget e j s) := by
  delta setTarget
  exact (Keeps.ite (setThrE_keeps h) (setLoop_keeps (Keeps.ite (windowFalls_keeps (setThrE_keeps h)) (setThrE_keeps
      h))))

theorem markFlags_keeps {r s : State} {n} {m} (h : Keeps r s) :
    Keeps r (markFlags n m s) := by
  delta markFlags
  exact (setLoop_keeps h)

theorem satFlags_keeps {r s : State} {n} {a} {i} {o} (h : Keeps r s) :
    Keeps r (satFlags n a i o s) := by
  delta satFlags
  exact (raiseIf_keeps (setLoop_keeps (Keeps.ite (markFlags_keeps h) h)))

theorem bumpFlag_keeps {r s : State} {n} {b} (h : Keeps r s) :
    Keeps r (bumpFlag n b s) := by
  delta bumpFlag
  exact (Keeps.ite (raise_keeps (setLoop_keeps (markFlags_keeps h))) h)

theorem applyOut_keeps {r s : State} {n} (h : Keeps r s) :
    Keeps r (applyOut n s) := by
  delta applyOut
  exact (by
    (try dsimp only)
    split
    · exact (setSrv_keeps h)
    · exact (setCh_keeps h)
    · exact (setLoop_keeps h)
    · exact (setSrv_keeps h)
    · exact h
  )

theorem zeroOut_keeps {r s : State} {n} (h : Keeps r s) :
    Keeps r (zeroOut n s) := by
  delta zeroOut
  exact (by
    (try dsimp only)
    split
    · exact (setSrv_keeps h)
    · exact (setCh_keeps h)
    · exact (setSrv_keeps h)
    · exact h
  )

theorem holdPrivileged_keeps {r s : State} {e} (h : Keeps r s) :
    Keeps r (holdPrivileged e s) := by
  delta holdPrivileged
  exact (setSrv_keeps h)

theorem plausTrip_keeps {r s : State} {n} (h : Keeps r s) :
    Keeps r (plausTrip n s) := by
  delta plausTrip
  exact (raise_keeps (darkCause_keeps (setSrv_keeps (holdPrivileged_keeps (setLoop_keeps (markFlags_keeps h))))))

theorem superviseModel_keeps {r s : State} {n} {y} (h : Keeps r s) :
    Keeps r (superviseModel n y s) := by
  delta superviseModel
  exact (Keeps.ite h (Keeps.ite (plausTrip_keeps (satFlags_keeps (setLoop_keeps h))) (satFlags_keeps (setLoop_keeps
      h))))

theorem superviseError_keeps {r s : State} {n} (h : Keeps r s) :
    Keeps r (superviseError n s) := by
  delta superviseError
  exact (Keeps.ite h (Keeps.ite (Keeps.ite (raise_keeps (setLoop_keeps (markFlags_keeps h))) (setLoop_keeps h))
      (setLoop_keeps h)))

theorem superviseWindow_keeps {r s : State} {n} (h : Keeps r s) :
    Keeps r (superviseWindow n s) := by
  delta superviseWindow
  exact (Keeps.ite h (Keeps.ite (windowFalls_keeps h) (setLoop_keeps h)))

theorem sampleAuto_keeps {r s : State} {n} {x} (h : Keeps r s) :
    Keeps r (sampleAuto n x s) := by
  delta sampleAuto
  exact (bumpFlag_keeps (satFlags_keeps (setLoop_keeps h)))

theorem sampleManual_keeps {r s : State} {n} {x} (h : Keeps r s) :
    Keeps r (sampleManual n x s) := by
  delta sampleManual
  exact (satFlags_keeps (setLoop_keeps h))

theorem colourGains_keeps {r s : State} {n} {e} (h : Keeps r s) :
    Keeps r (colourGains n e s) := by
  delta colourGains
  exact (by
    (try dsimp only)
    split
    · exact h
    · exact (Keeps.fold (setSrv_keeps h) (fun _ _ h1 => (by
      split
      · exact (satFlags_keeps h1)
      · exact (Keeps.ite (raise_keeps (setLoop_keeps (markFlags_keeps (setSrv_keeps (satFlags_keeps h1)))))
          (setSrv_keeps (satFlags_keeps h1)))
    )))
  )

theorem colourChannel_keeps {r s : State} {n} {c} (h : Keeps r s) :
    Keeps r (colourChannel n c s) := by
  delta colourChannel
  exact (by
    (try dsimp only)
    split
    · exact h
    · exact (Keeps.ite (setLoop_keeps (satFlags_keeps h)) (setClw_keeps (setLoop_keeps (satFlags_keeps h))))
  )

theorem sampleColour_keeps {r s : State} {n} (h : Keeps r s) :
    Keeps r (sampleColour n s) := by
  delta sampleColour
  exact (Keeps.fold (colourGains_keeps h) (fun _ _ h1 => (colourChannel_keeps h1)))

theorem execColourSensorReading_keeps {r s : State} {t} {e} {rgb} {pairEnergy} (h : Keeps r s) :
    KeepsO r (execColourSensorReading t e rgb pairEnergy s) := by
  delta execColourSensorReading
  exact (KeepsO.ite (KeepsO.next (at_keeps h)) (KeepsO.next (setClw_keeps (setSrv_keeps (at_keeps h)))))

theorem capture_keeps {r s : State} {n} {b} (h : Keeps r s) :
    Keeps r (capture n b s) := by
  delta capture
  exact (Keeps.ite h (Keeps.ite (setTrace_keeps h) (raiseIf_keeps (setTrace_keeps h))))

theorem traceSample_keeps {r s : State} {n} (h : Keeps r s) :
    Keeps r (traceSample n s) := by
  delta traceSample
  exact (Keeps.fold h (fun _ _ h1 => (capture_keeps h1)))

theorem swapBank_keeps {r s : State} {n} (h : Keeps r s) :
    Keeps r (swapBank n s) := by
  delta swapBank
  exact (Keeps.ite (setLoop_keeps h) (bumpFlag_keeps (satFlags_keeps (setLoop_keeps (setLoop_keeps h)))))

theorem tickLoop_keeps {r s : State} {inp} {n} (h : Keeps r s) :
    Keeps r (tickLoop inp n s) := by
  delta tickLoop
  exact (Keeps.ite h (Keeps.ite (setLoop_keeps (by
    split
    · exact (Keeps.ite (swapBank_keeps h) h)
    · exact h
  )) (by
    split
    · exact (Keeps.ite (swapBank_keeps h) h)
    · exact h
  )))

theorem scanTick_keeps {r s : State} {inp} {e} (h : Keeps r s) :
    Keeps r (scanTick inp e s) := by
  delta scanTick
  exact (Keeps.ite h (setScn_keeps (setScn_keeps h)))

theorem execServoTick_keeps {r s : State} {t} {inp} (h : Keeps r s) :
    KeepsO r (execServoTick t inp s) := by
  delta execServoTick
  exact (KeepsO.ite (KeepsO.next (at_keeps h)) (KeepsO.next (setSrv_keeps (Keeps.fold (forEng_keeps (at_keeps h) (fun
      _ _ h1 => (scanTick_keeps h1))) (fun _ _ h2 => (tickLoop_keeps h2))))))

theorem sampleDone_keeps {r s : State} {n} {x} (h : Keeps r s) :
    Keeps r (sampleDone n x s) := by
  delta sampleDone
  exact (Keeps.ite (sampleColour_keeps h) (Keeps.ite (setLoop_keeps h) (Keeps.ite (Keeps.ite (setLoop_keeps h)
      (superviseModel_keeps (setLoop_keeps h))) (superviseError_keeps (superviseWindow_keeps (applyOut_keeps
      (Keeps.ite (sampleAuto_keeps (Keeps.ite (setLoop_keeps h) (superviseModel_keeps (setLoop_keeps h))))
      (sampleManual_keeps (Keeps.ite (setLoop_keeps h) (superviseModel_keeps (setLoop_keeps h)))))))))))

theorem sampleMissed_keeps {r s : State} {n} (h : Keeps r s) :
    Keeps r (sampleMissed n s) := by
  delta sampleMissed
  exact (Keeps.ite (plausTrip_keeps (Keeps.ite (windowFalls_keeps (raiseIf_keeps (raiseIf_keeps (setLoop_keeps
      (markFlags_keeps h))))) (raiseIf_keeps (raiseIf_keeps (setLoop_keeps (markFlags_keeps h)))))) (Keeps.ite
      (windowFalls_keeps (raiseIf_keeps (raiseIf_keeps (setLoop_keeps (markFlags_keeps h))))) (raiseIf_keeps
      (raiseIf_keeps (setLoop_keeps (markFlags_keeps h))))))

theorem execLoopSampleDeadline_keeps {r s : State} {t} {slot} {done} (h : Keeps r s) :
    KeepsO r (execLoopSampleDeadline t slot done s) := by
  delta execLoopSampleDeadline
  exact (by
    (try dsimp only)
    split
    · exact (KeepsO.next (at_keeps h))
    · exact (KeepsO.ite (KeepsO.next (at_keeps h)) (KeepsO.next (traceSample_keeps (Keeps.ite (sampleDone_keeps
        (setLoop_keeps (setLoop_keeps (at_keeps h)))) (sampleMissed_keeps (setLoop_keeps (at_keeps h)))))))
  )

theorem servoStart_keeps {r s : State} (h : Keeps r s) :
    Keeps r (servoStart s) := by
  delta servoStart
  exact (Keeps.ite h (setSrv_keeps h))

theorem servoStop_keeps {r s : State} (h : Keeps r s) :
    Keeps r (servoStop s) := by
  delta servoStop
  exact (Keeps.ite h (setSrv_keeps (Keeps.fold h (fun _ _ h1 => (zeroOut_keeps h1)))))

theorem scanLoopsHold_keeps {r s : State} {e} (h : Keeps r s) :
    Keeps r (scanLoopsHold e s) := by
  delta scanLoopsHold
  exact (Keeps.fold h (fun _ _ h1 => (Keeps.ite (setLoop_keeps (zeroOut_keeps h1)) h1)))

theorem loopsResume_keeps {r s : State} {p} (h : Keeps r s) :
    Keeps r (loopsResume p s) := by
  delta loopsResume
  exact (setSrv_keeps h)

theorem tripRelease_keeps {r s : State} {e} (h : Keeps r s) :
    Keeps r (tripRelease e s) := by
  delta tripRelease
  exact (by
    split
    · exact (loopsResume_keeps (releaseCause_keeps (setSrv_keeps h)))
    · exact h
  )

theorem tripResetWrite_keeps {r s : State} {e} (h : Keeps r s) :
    Keeps r (tripResetWrite e s).2 := by
  delta tripResetWrite
  exact (Keeps.ite2 (Keeps.snd (tripRelease_keeps h)) (Keeps.snd h))

theorem execTripReset_keeps {r s : State} {t} {e} (h : Keeps r s) :
    KeepsO r (execTripReset t e s) := by
  delta execTripReset
  exact (regAnswer_keeps (at_keeps h) (fun _ h1 => (tripResetWrite_keeps h1)))

theorem loopFlagWrite_keeps {r s : State} {n} {v} (h : Keeps r s) :
    Keeps r (loopFlagWrite n v s).2 := by
  delta loopFlagWrite
  exact (Keeps.ite2 (Keeps.snd h) (Keeps.snd (setLoop_keeps h)))

theorem execSrvLoopFlagClear_keeps {r s : State} {t} {slot} {value} (h : Keeps r s) :
    KeepsO r (execSrvLoopFlagClear t slot value s) := by
  delta execSrvLoopFlagClear
  exact (regAnswer_keeps (at_keeps h) (fun _ h1 => (loopFlagWrite_keeps h1)))

theorem loopConfigureBody_keeps {r s : State} {rq} (h : Keeps r s) :
    Keeps r (loopConfigureBody rq s).1 := by
  delta loopConfigureBody
  exact (Keeps.ite1 (deny_keeps h) (Keeps.ite1 (deny_keeps h) (Keeps.ite1 (deny_keeps h) (Keeps.ite1 (deny_keeps h)
      (Keeps.ite1 (deny_keeps h) (Keeps.fst (setSrv_keeps h)))))))

theorem execLoopConfigure_keeps {r s : State} {t} {rq} (h : Keeps r s) :
    KeepsO r (execLoopConfigure t rq s) := by
  delta execLoopConfigure
  exact (KeepsO.next (serve_keeps (at_keeps h) (fun _ _ h1 => (loopConfigureBody_keeps h1))))

theorem loopBankWriteBody_keeps {r s : State} {rq} (h : Keeps r s) :
    Keeps r (loopBankWriteBody rq s).1 := by
  delta loopBankWriteBody
  exact (Keeps.ite1 (deny_keeps h) (Keeps.ite1 (deny_keeps h) (Keeps.ite1 (deny_keeps h) (Keeps.fst (setLoop_keeps
      h)))))

theorem execLoopBankWrite_keeps {r s : State} {t} {rq} (h : Keeps r s) :
    KeepsO r (execLoopBankWrite t rq s) := by
  delta execLoopBankWrite
  exact (KeepsO.next (serve_keeps (at_keeps h) (fun _ _ h1 => (loopBankWriteBody_keeps h1))))

theorem loopSwapRun_keeps {r s : State} {rq} (h : Keeps r s) :
    Keeps r (loopSwapRun rq s).1 := by
  delta loopSwapRun
  exact (Keeps.ite1 (deny_keeps h) (Keeps.ite1 (deny_keeps h) (Keeps.ite1 (Keeps.fst (setLoop_keeps h)) (Keeps.fst
      (setLoop_keeps h)))))

theorem loopBankSwapBody_keeps {r s : State} {rq} (h : Keeps r s) :
    Keeps r (loopBankSwapBody rq s).1 := by
  delta loopBankSwapBody
  exact (by
    split
    · exact (Keeps.fst h)
    · exact (deferrable_keeps h (fun _ _ h1 => (loopSwapRun_keeps h1)))
  )

theorem execLoopBankSwap_keeps {r s : State} {t} {rq} (h : Keeps r s) :
    KeepsO r (execLoopBankSwap t rq s) := by
  delta execLoopBankSwap
  exact (KeepsO.next (serve_keeps (at_keeps h) (fun _ _ h1 => (loopBankSwapBody_keeps h1))))

theorem loopApply_keeps {r s : State} {f} {n} (h : Keeps r s) :
    Keeps r (loopApply f n s) := by
  delta loopApply
  exact (setLoop_keeps h)

theorem enterMode_keeps {r s : State} {n} {m} {man} (h : Keeps r s) :
    Keeps r (enterMode n m man s) := by
  delta enterMode
  exact (by
    (try dsimp only)
    split
    · exact (zeroOut_keeps (setLoop_keeps (windowFalls_keeps h)))
    · exact (setLoop_keeps (windowFalls_keeps h))
    · exact (Keeps.ite h (setLoop_keeps h))
    · exact (setLoop_keeps (windowFalls_keeps h))
  )

theorem loopModeBody_keeps {r s : State} {rq} (h : Keeps r s) :
    Keeps r (loopModeBody rq s).1 := by
  delta loopModeBody
  exact (Keeps.ite1 (deny_keeps h) (Keeps.ite1 (deny_keeps h) (Keeps.ite1 (Keeps.fst (setLoop_keeps h)) (Keeps.fst
      (enterMode_keeps h)))))

theorem execLoopMode_keeps {r s : State} {t} {rq} (h : Keeps r s) :
    KeepsO r (execLoopMode t rq s) := by
  delta execLoopMode
  exact (KeepsO.next (serve_keeps (at_keeps h) (fun _ _ h1 => (loopModeBody_keeps h1))))

theorem traceArmBody_keeps {r s : State} {rq} (h : Keeps r s) :
    Keeps r (traceArmBody rq s).1 := by
  delta traceArmBody
  exact (Keeps.ite1 (deny_keeps h) (Keeps.fst (setTrace_keeps h)))

theorem execTraceArm_keeps {r s : State} {t} {rq} (h : Keeps r s) :
    KeepsO r (execTraceArm t rq s) := by
  delta execTraceArm
  exact (KeepsO.next (serve_keeps (at_keeps h) (fun _ _ h1 => (traceArmBody_keeps h1))))

theorem traceReadBody_keeps {r s : State} {rq} (h : Keeps r s) :
    Keeps r (traceReadBody rq s).1 := by
  delta traceReadBody
  exact (Keeps.ite1 (deny_keeps h) (Keeps.ite1 (deny_keeps h) (Keeps.fst h)))

theorem execTraceRead_keeps {r s : State} {t} {rq} (h : Keeps r s) :
    KeepsO r (execTraceRead t rq s) := by
  delta execTraceRead
  exact (KeepsO.next (serve_keeps (at_keeps h) (fun _ _ h1 => (traceReadBody_keeps h1))))

/-! ## Machine/Background.lean -/

theorem scrubTick_keeps {r s : State} (h : Keeps r s) :
    Keeps r (scrubTick s) := by
  delta scrubTick
  exact (Keeps.ite h (setGrn_keeps h fun _ => rfl))

theorem slotTaken_keeps {r s : State} {a} (h : Keeps r s) :
    Keeps r (slotTaken a s) := by
  delta slotTaken
  exact (setBst_keeps h)

theorem portSlot_keeps {r s : State} {p} (h : Keeps r s) :
    Keeps r (portSlot p s) := by
  delta portSlot
  exact (Keeps.ite (slotTaken_keeps (setGrn_keeps h fun _ => rfl)) h)

theorem portSlots_keeps {r s : State} (h : Keeps r s) :
    Keeps r (portSlots s) := by
  delta portSlots
  exact (Keeps.fold h (fun _ _ h1 => (portSlot_keeps h1)))

theorem starveTick_keeps {r s : State} (h : Keeps r s) :
    Keeps r (starveTick s) := by
  delta starveTick
  exact (portSlots_keeps (setBst_keeps h))

/-! ## Machine/Scan.lean -/

theorem exciteStart_keeps {r s : State} {st} {e} (h : Keeps r s) :
    Keeps r (exciteStart st e s) := by
  delta exciteStart
  exact (loopsResume_keeps (setScn_keeps h))

theorem exciteStop_keeps {r s : State} {e} (h : Keeps r s) :
    Keeps r (exciteStop e s) := by
  delta exciteStop
  exact (scanLoopsHold_keeps (setScn_keeps h))

theorem scanStart_keeps {r s : State} {e} (h : Keeps r s) :
    Keeps r (scanStart e s) := by
  delta scanStart
  exact (Keeps.ite (Keeps.ite (raise_keeps h) (exciteStart_keeps h)) h)

theorem scanOff_keeps {r s : State} {e} (h : Keeps r s) :
    Keeps r (scanOff e s) := by
  delta scanOff
  exact (releaseCause_keeps (setScn_keeps (exciteStop_keeps h)))

theorem scanRestart_keeps {r s : State} {e} (h : Keeps r s) :
    Keeps r (scanRestart e s) := by
  delta scanRestart
  exact (Keeps.ite (setScn_keeps (exciteStart_keeps h)) h)

theorem execScnRestart_keeps {r s : State} {t} {e} (h : Keeps r s) :
    KeepsO r (execScnRestart t e s) := by
  delta execScnRestart
  exact (regAnswer_keeps (at_keeps h) (fun _ h1 => (Keeps.snd (scanRestart_keeps h1))))

theorem scanStop_keeps {r s : State} {e} {cond} (h : Keeps r s) :
    Keeps r (scanStop e cond s) := by
  delta scanStop
  exact (Keeps.ite h (Keeps.ite (raise_keeps (setScn_keeps (Keeps.ite (exciteStop_keeps (raise_keeps (setScn_keeps
      (darkCause_keeps h)))) (raise_keeps (setScn_keeps (darkCause_keeps h)))))) (Keeps.ite (exciteStart_keeps
      (Keeps.ite (exciteStop_keeps (raise_keeps (setScn_keeps (darkCause_keeps h)))) (raise_keeps (setScn_keeps
      (darkCause_keeps h))))) (Keeps.ite (exciteStop_keeps (raise_keeps (setScn_keeps (darkCause_keeps h))))
      (raise_keeps (setScn_keeps (darkCause_keeps h)))))))

theorem windowReached_keeps {r s : State} {e} (h : Keeps r s) :
    Keeps r (windowReached e s) := by
  delta windowReached
  exact (Keeps.ite (releaseCause_keeps (setScn_keeps h)) h)

theorem execAmplitudeSample_keeps {r s : State} {t} {e} {code} (h : Keeps r s) :
    KeepsO r (execAmplitudeSample t e code s) := by
  delta execAmplitudeSample
  exact (KeepsO.ite (KeepsO.next (at_keeps h)) (KeepsO.next (Keeps.ite (scanStop_keeps (setScn_keeps (setScn_keeps
      (at_keeps h)))) (setScn_keeps (setScn_keeps (at_keeps h))))))

theorem edgeForming_keeps {r s : State} {e} (h : Keeps r s) :
    Keeps r (edgeForming e s) := by
  delta edgeForming
  exact (setScn_keeps h)

theorem lineFollows_keeps {r s : State} {e} (h : Keeps r s) :
    Keeps r (lineFollows e s) := by
  delta lineFollows
  exact (by
    (try dsimp only)
    split
    · exact (Keeps.ite h (setScn_keeps h))
    · exact h
  )

theorem edgeAccepted_keeps {r s : State} {e} {p} (h : Keeps r s) :
    Keeps r (edgeAccepted e p s) := by
  delta edgeAccepted
  exact (Keeps.ite (scanStop_keeps (lineFollows_keeps (setScn_keeps h))) (Keeps.ite (scanStop_keeps
      (lineFollows_keeps (setScn_keeps h))) (Keeps.ite (windowReached_keeps (lineFollows_keeps (setScn_keeps h)))
      (lineFollows_keeps (setScn_keeps h)))))

theorem edgeIgnored_keeps {r s : State} {e} (h : Keeps r s) :
    Keeps r (edgeIgnored e s) := by
  delta edgeIgnored
  exact (raiseIf_keeps (setScn_keeps h))

theorem execPickoffEdge_keeps {r s : State} {t} {e} (h : Keeps r s) :
    KeepsO r (execPickoffEdge t e s) := by
  delta execPickoffEdge
  exact (KeepsO.ite (KeepsO.next (at_keeps h)) (by
    (try dsimp only)
    split
    · exact (KeepsO.next (edgeForming_keeps (at_keeps h)))
    · exact (KeepsO.ite (KeepsO.next (edgeAccepted_keeps (at_keeps h))) (KeepsO.next (edgeIgnored_keeps (at_keeps
        h))))
  ))

theorem execPredictedEdgeMissed_keeps {r s : State} {t} {e} (h : Keeps r s) :
    KeepsO r (execPredictedEdgeMissed t e s) := by
  delta execPredictedEdgeMissed
  exact (by
    (try dsimp only)
    split
    · exact (KeepsO.ite (KeepsO.next (at_keeps h)) (KeepsO.next (Keeps.ite (scanStop_keeps (lineFollows_keeps
        (setScn_keeps (at_keeps h)))) (lineFollows_keeps (setScn_keeps (at_keeps h))))))
    · exact (KeepsO.next (at_keeps h))
  )

theorem execScanStartTimeout_keeps {r s : State} {t} {e} (h : Keeps r s) :
    KeepsO r (execScanStartTimeout t e s) := by
  delta execScanStartTimeout
  exact (KeepsO.ite (KeepsO.next (raise_keeps (setScn_keeps (at_keeps h)))) (KeepsO.next (at_keeps h)))

theorem execVerticalDeviationTimeout_keeps {r s : State} {t} {e} (h : Keeps r s) :
    KeepsO r (execVerticalDeviationTimeout t e s) := by
  delta execVerticalDeviationTimeout
  exact (KeepsO.ite (KeepsO.next (scanStop_keeps (at_keeps h))) (KeepsO.next (at_keeps h)))

theorem portLevel_keeps {r s : State} {e} {u} (h : Keeps r s) :
    Keeps r (portLevel e u s) := by
  delta portLevel
  exact (Keeps.ite (raise_keeps (setGrn_keeps (setGrn_keeps (starveTick_keeps h) fun _ => rfl) fun _ => rfl))
      (setGrn_keeps (starveTick_keeps h) fun _ => rfl))

theorem rowDark_keeps {r s : State} {e} (h : Keeps r s) :
    Keeps r (rowDark e s) := by
  delta rowDark
  exact (raiseIf_keeps (setScn_keeps h))

theorem rowDrawn_keeps {r s : State} {e} {l} {complete} (h : Keeps r s) :
    Keeps r (rowDrawn e l complete s) := by
  delta rowDrawn
  exact (setScn_keeps (setScn_keeps h))

theorem execRowStart_keeps {r s : State} {t} {e} {fetched} {complete} (h : Keeps r s) :
    KeepsO r (execRowStart t e fetched complete s) := by
  delta execRowStart
  exact (by
    (try dsimp only)
    split
    · exact (KeepsO.next (at_keeps h))
    · exact (KeepsO.ite (KeepsO.next (at_keeps h)) (KeepsO.next (Keeps.ite (rowDark_keeps (portLevel_keeps
        (rowDrawn_keeps (at_keeps h)))) (portLevel_keeps (rowDrawn_keeps (at_keeps h))))))
  )

theorem execFlyback_keeps {r s : State} {t} {e} (h : Keeps r s) :
    KeepsO r (execFlyback t e s) := by
  delta execFlyback
  exact (by
    (try dsimp only)
    split
    · exact (KeepsO.next (at_keeps h))
    · exact (KeepsO.ite (KeepsO.next (setScn_keeps (at_keeps h))) (KeepsO.next (at_keeps h)))
  )

theorem scnFrame_keeps {r s : State} {e} (h : Keeps r s) :
    Keeps r (scnFrame e s) := by
  delta scnFrame
  exact (setScn_keeps h)

theorem scanRelit_keeps {r s : State} {e} (h : Keeps r s) :
    Keeps r (scanRelit e s) := by
  delta scanRelit
  exact (Keeps.ite (setScn_keeps h) (raise_keeps (Keeps.ite (setScn_keeps h) (setScn_keeps (setScn_keeps h)))))

/-! ## Machine/Swath.lean -/

theorem linkStart_keeps {r s : State} {e} (h : Keeps r s) :
    Keeps r (linkStart e s) := by
  delta linkStart
  exact (setSwt_keeps (storedTaps_keeps (storedTaps_keeps h)))

theorem linkOff_keeps {r s : State} {e} (h : Keeps r s) :
    Keeps r (linkOff e s) := by
  delta linkOff
  exact (releaseCause_keeps (setSwt_keeps h))

theorem linkFailed_keeps {r s : State} {e} (h : Keeps r s) :
    Keeps r (linkFailed e s) := by
  delta linkFailed
  exact (raise_keeps (setSwt_keeps h))

theorem attemptFailed_keeps {r s : State} {e} (h : Keeps r s) :
    Keeps r (attemptFailed e s) := by
  delta attemptFailed
  exact (Keeps.ite (linkFailed_keeps (setSwt_keeps h)) (raise_keeps (adaptLanes_keeps (setSwt_keeps (setSwt_keeps
      h)))))

theorem cfgMismatch_keeps {r s : State} {e} (h : Keeps r s) :
    Keeps r (cfgMismatch e s) := by
  delta cfgMismatch
  exact (raise_keeps (setSwt_keeps h))

theorem swtRetryWrite_keeps {r s : State} {e} (h : Keeps r s) :
    Keeps r (swtRetryWrite e s).2 := by
  delta swtRetryWrite
  exact (Keeps.ite2 (Keeps.snd (linkStart_keeps h)) (Keeps.snd h))

theorem execSwtRetry_keeps {r s : State} {t} {e} (h : Keeps r s) :
    KeepsO r (execSwtRetry t e s) := by
  delta execSwtRetry
  exact (regAnswer_keeps (at_keeps h) (fun _ h1 => (swtRetryWrite_keeps h1)))

theorem linkLoss_keeps {r s : State} {e} (h : Keeps r s) :
    Keeps r (linkLoss e s) := by
  delta linkLoss
  exact (Keeps.ite (setSwt_keeps (Keeps.ite (raise_keeps (darkCause_keeps h)) h)) (Keeps.ite (linkFailed_keeps
      (setSwt_keeps (Keeps.ite (raise_keeps (darkCause_keeps h)) h))) (Keeps.ite (setSwt_keeps (Keeps.ite
      (raise_keeps (darkCause_keeps h)) h)) (linkStart_keeps (setSwt_keeps (setSwt_keeps (Keeps.ite (raise_keeps
      (darkCause_keeps h)) h)))))))

theorem lossIfUp_keeps {r s : State} {from'} {e} (h : Keeps r s) :
    Keeps r (lossIfUp from' e s) := by
  delta lossIfUp
  exact (Keeps.ite (linkLoss_keeps h) (Keeps.ite (attemptFailed_keeps h) h))

theorem frameMissing_keeps {r s : State} {e} (h : Keeps r s) :
    Keeps r (frameMissing e s) := by
  delta frameMissing
  exact (Keeps.ite (lossIfUp_keeps (setSwt_keeps h)) (setSwt_keeps h))

theorem execStatusFrameMissing_keeps {r s : State} {t} {e} (h : Keeps r s) :
    KeepsO r (execStatusFrameMissing t e s) := by
  delta execStatusFrameMissing
  exact (KeepsO.ite (KeepsO.next (at_keeps h)) (KeepsO.next (frameMissing_keeps (at_keeps h))))

theorem execReturnLaneBlockLock_keeps {r s : State} {t} {e} (h : Keeps r s) :
    KeepsO r (execReturnLaneBlockLock t e s) := by
  delta execReturnLaneBlockLock
  exact (KeepsO.ite (KeepsO.next (at_keeps h)) (KeepsO.next (setSwt_keeps (at_keeps h))))

theorem execReturnLaneBlockLockLoss_keeps {r s : State} {t} {e} (h : Keeps r s) :
    KeepsO r (execReturnLaneBlockLockLoss t e s) := by
  delta execReturnLaneBlockLockLoss
  exact (KeepsO.ite (KeepsO.next (at_keeps h)) (KeepsO.next (lossIfUp_keeps (setSwt_keeps (at_keeps h)))))

theorem execLinkBringupStepTimeout_keeps {r s : State} {t} {e} (h : Keeps r s) :
    KeepsO r (execLinkBringupStepTimeout t e s) := by
  delta execLinkBringupStepTimeout
  exact (KeepsO.ite (KeepsO.next (attemptFailed_keeps (at_keeps h))) (KeepsO.next (at_keeps h)))

theorem execLinkSoakComplete_keeps {r s : State} {t} {e} (h : Keeps r s) :
    KeepsO r (execLinkSoakComplete t e s) := by
  delta execLinkSoakComplete
  exact (KeepsO.ite (KeepsO.next (raise_keeps (releaseCause_keeps (setSwt_keeps (at_keeps h))))) (KeepsO.next
      (at_keeps h)))

theorem slotReported_keeps {r s : State} {e} {b} (h : Keeps r s) :
    Keeps r (slotReported e b s) := by
  delta slotReported
  exact (Keeps.ite (slotUnlit_keeps h) h)

theorem frameRecord_keeps {r s : State} {e} {b} (h : Keeps r s) :
    Keeps r (frameRecord e b s) := by
  delta frameRecord
  exact (raiseIf_keeps (raiseIf_keeps (slotReported_keeps (setSwt_keeps h))))

theorem bringStep_keeps {r s : State} {b} {e} (h : Keeps r s) :
    Keeps r (bringStep b e s) := by
  delta bringStep
  exact (Keeps.ite (setSwt_keeps (Keeps.ite (setSwt_keeps (Keeps.ite (Keeps.ite (setSwt_keeps h) (raise_keeps
      (adaptSwath_keeps (setSwt_keeps (setSwt_keeps h))))) h)) (Keeps.ite (Keeps.ite (setSwt_keeps h) (raise_keeps
      (adaptSwath_keeps (setSwt_keeps (setSwt_keeps h))))) h))) (Keeps.ite (setSwt_keeps (Keeps.ite (Keeps.ite
      (setSwt_keeps h) (raise_keeps (adaptSwath_keeps (setSwt_keeps (setSwt_keeps h))))) h)) (Keeps.ite (Keeps.ite
      (setSwt_keeps h) (raise_keeps (adaptSwath_keeps (setSwt_keeps (setSwt_keeps h))))) h)))

theorem bringCheck_keeps {r s : State} {b} {e} (h : Keeps r s) :
    Keeps r (bringCheck b e s) := by
  delta bringCheck
  exact (Keeps.ite (Keeps.ite (setSwt_keeps h) (cfgMismatch_keeps h)) (Keeps.ite (attemptFailed_keeps (setSwt_keeps
      h)) (setSwt_keeps (setSwt_keeps h))))

theorem soakFrame_keeps {r s : State} {b} {e} (h : Keeps r s) :
    Keeps r (soakFrame b e s) := by
  delta soakFrame
  exact (Keeps.ite (attemptFailed_keeps (setSwt_keeps h)) (setSwt_keeps h))

theorem bringFrame_keeps {r s : State} {b} {e} (h : Keeps r s) :
    Keeps r (bringFrame b e s) := by
  delta bringFrame
  exact (Keeps.ite (cfgMismatch_keeps h) (Keeps.ite (attemptFailed_keeps h) (Keeps.ite (bringStep_keeps h) (Keeps.ite
      (bringCheck_keeps h) (soakFrame_keeps h)))))

theorem execReturnStatusFrame_keeps {r s : State} {t} {e} {bytes} (h : Keeps r s) :
    KeepsO r (execReturnStatusFrame t e bytes s) := by
  delta execReturnStatusFrame
  exact (KeepsO.ite (KeepsO.next (at_keeps h)) (KeepsO.ite (KeepsO.next (frameMissing_keeps (at_keeps h)))
      (KeepsO.ite (KeepsO.next (bringFrame_keeps (frameRecord_keeps (at_keeps h)))) (KeepsO.ite (KeepsO.next
      (lossIfUp_keeps (frameRecord_keeps (at_keeps h)))) (KeepsO.next (frameRecord_keeps (at_keeps h)))))))

theorem laneSecond_keeps {r s : State} {e} {m} (h : Keeps r s) :
    Keeps r (laneSecond e m s) := by
  delta laneSecond
  exact (raiseIf_keeps (setSwt_keeps h))

theorem execLaneCorrSecond_keeps {r s : State} {t} (h : Keeps r s) :
    KeepsO r (execLaneCorrSecond t s) := by
  delta execLaneCorrSecond
  exact (KeepsO.ite (KeepsO.next (at_keeps h)) (KeepsO.next (forEng_keeps (at_keeps h) (fun _ _ h1 => (Keeps.fold h1
      (fun _ _ h2 => (laneSecond_keeps h2)))))))

theorem swtFrame_keeps {r s : State} {e} (h : Keeps r s) :
    Keeps r (swtFrame e s) := by
  delta swtFrame
  exact (setSwt_keeps h)

/-! ## Machine/Slots.lean -/

theorem lanesSlot_keeps {r s : State} {e} {n} (h : Keeps r s) :
    Keeps r (lanesSlot e n s) := by
  delta lanesSlot
  exact (setSwt_keeps h)

theorem slotBegins_keeps {r s : State} {e} {n} {lead} (h : Keeps r s) :
    Keeps r (slotBegins e n lead s) := by
  delta slotBegins
  exact (portLevel_keeps (by
    split
    · exact (setTarget_keeps (setTmp_keeps (setSwt_keeps (engChans_keeps (setThrE_keeps h)))))
    · exact (setTmp_keeps (setSwt_keeps (engChans_keeps (setThrE_keeps h))))
  ))

theorem execSlotEpoch_keeps {r s : State} {t} {e} {lead} (h : Keeps r s) :
    KeepsO r (execSlotEpoch t e lead s) := by
  delta execSlotEpoch
  exact (KeepsO.ite (KeepsO.next (at_keeps h)) (KeepsO.next (slotBegins_keeps (at_keeps h))))

theorem openWindow_keeps {r s : State} {e} {x} (h : Keeps r s) :
    Keeps r (openWindow e x s) := by
  delta openWindow
  exact (Keeps.ite h (Keeps.ite (focusDark_keeps h) (setThrE_keeps (setCh_keeps h))))

theorem execLightWindowOpen_keeps {r s : State} {t} {e} (h : Keeps r s) :
    KeepsO r (execLightWindowOpen t e s) := by
  delta execLightWindowOpen
  exact (KeepsO.ite (KeepsO.next (at_keeps h)) (by
    split
    · exact (KeepsO.ite (KeepsO.next (at_keeps h)) (KeepsO.next (openWindow_keeps (at_keeps h))))
    · exact (KeepsO.next (at_keeps h))
  ))

theorem slotLost_keeps {r s : State} {e} {a} (h : Keeps r s) :
    Keeps r (slotLost e a s) := by
  delta slotLost
  exact (Keeps.ite (slotUnlit_keeps h) (setThrE_keeps h))

theorem blankBands_keeps {r s : State} {e} {a} {k} {sent} (h : Keeps r s) :
    Keeps r (blankBands e a k sent s) := by
  delta blankBands
  exact (slotLost_keeps (setSwt_keeps (setThrE_keeps h)))

theorem execBandLoadDeadline_keeps {r s : State} {t} {e} {band} {flits} (h : Keeps r s) :
    KeepsO r (execBandLoadDeadline t e band flits s) := by
  delta execBandLoadDeadline
  exact (KeepsO.ite (KeepsO.next (at_keeps h)) (KeepsO.ite (KeepsO.next (setThrE_keeps (at_keeps h))) (KeepsO.next
      (raise_keeps (blankBands_keeps (at_keeps h))))))

theorem bandErr_keeps {r s : State} {addr} (h : Keeps r s) :
    Keeps r (bandErr addr s) := by
  delta bandErr
  exact (by
    (try dsimp only)
    split
    · exact h
    · exact (by
      split
      · exact h
      · exact (Keeps.ite h (raise_keeps (blankBands_keeps h)))
    )
  )

theorem slotFrame_keeps {r s : State} {composed} {e} (h : Keeps r s) :
    Keeps r (slotFrame composed e s) := by
  delta slotFrame
  exact (raiseIf_keeps (engChans_keeps (setThrE_keeps h)))

/-! ## Machine/Power.lean -/

theorem setHth_keeps {r s : State} {f} (h : Keeps r s) :
    Keeps r (setHth f s) := by
  delta setHth
  exact (Keeps.mk' h fun hw => hw)

theorem setTng_keeps {r s : State} {f} (h : Keeps r s) :
    Keeps r (setTng f s) := by
  delta setTng
  exact (Keeps.mk' h fun hw => hw)

theorem setCmp_keeps {r s : State} {f} (h : Keeps r s) :
    Keeps r (setCmp f s) := by
  delta setCmp
  exact (Keeps.mk' h fun hw => hw)

theorem setThm_keeps {r s : State} {f} (h : Keeps r s) :
    Keeps r (setThm f s) := by
  delta setThm
  exact (Keeps.mk' h fun hw => hw)

theorem setBrg_keeps {r s : State} {f} (h : Keeps r s) :
    Keeps r (setBrg f s) := by
  delta setBrg
  exact (Keeps.mk' h fun hw => hw)

theorem setHst_keeps {r s : State} {f} (h : Keeps r s) :
    Keeps r (setHst f s) := by
  delta setHst
  exact (Keeps.mk' h fun hw => hw)

theorem setSec_keeps {r s : State} {f} (h : Keeps r s) :
    Keeps r (setSec f s) := by
  delta setSec
  exact (Keeps.mk' h fun hw => hw)

theorem setPll_keeps {r s : State} {p} {f} (h : Keeps r s) :
    Keeps r (setPll p f s) := by
  delta setPll
  exact (setTng_keeps h)

theorem pllOff_keeps {r s : State} {p} (h : Keeps r s) :
    Keeps r (pllOff p s) := by
  delta pllOff
  exact (setPll_keeps h)

theorem pllOn_keeps {r s : State} {p} (h : Keeps r s) :
    Keeps r (pllOn p s) := by
  delta pllOn
  exact (setPll_keeps h)

theorem allPlls_keeps {r s : State} {f} (h : Keeps r s) (hf : ∀ a0 x, Keeps r x → Keeps r (f a0 x)) :
    Keeps r (allPlls f s) := by
  delta allPlls
  exact (hf _ _ (hf _ _ (hf _ _ (hf _ _ h))))

theorem quenchPlls_keeps {r s : State} (h : Keeps r s) :
    Keeps r (quenchPlls s) := by
  delta quenchPlls
  exact (Keeps.ite (pllOff_keeps (pllOff_keeps h)) (pllOff_keeps (pllOff_keeps (pllOff_keeps h))))

theorem pcieDown_keeps {r s : State} (h : Keeps r s) :
    Keeps r (pcieDown s) := by
  delta pcieDown
  exact (setHst_keeps h)

theorem mirrorTrain_keeps {r s : State} {ok} (h : Keeps r s) :
    Keeps r (mirrorTrain ok s) := by
  delta mirrorTrain
  exact (Keeps.ite (raiseIf_keeps (Keeps.mk' h fun hw => hw)) h)

theorem mirrorEnable_keeps {r s : State} (h : Keeps r s) :
    Keeps r (mirrorEnable s) := by
  delta mirrorEnable
  exact (Keeps.ite (mirrorTrain_keeps (fresh_keeps h)) h)

theorem abortCommit_keeps {r s : State} (h : Keeps r s) :
    Keeps r (abortCommit s) := by
  delta abortCommit
  exact (by
    split
    · exact h
    · exact (raise_keeps (setCmp_keeps h))
  )

theorem dropDeferred_keeps {r s : State} (h : Keeps r s) :
    Keeps r (dropDeferred s) := by
  delta dropDeferred
  exact (Keeps.fold (setHst_keeps h) (fun _ _ h1 => (cmdDone_keeps h1)))

theorem stateChange_keeps {r s : State} {cause} {prev} {new} (h : Keeps r s) :
    Keeps r (stateChange cause prev new s) := by
  delta stateChange
  exact (raise_keeps h)

theorem enterState_keeps {r s : State} {cause} {start} {new} (h : Keeps r s) :
    Keeps r (enterState cause start new s) := by
  delta enterState
  exact (stateChange_keeps (setHth_keeps h))

theorem abandonTrans_keeps {r s : State} {st} (h : Keeps r s) :
    Keeps r (abandonTrans st s) := by
  delta abandonTrans
  exact (by
    (try dsimp only)
    split
    · exact (by
      split
      · exact (cmdDone_keeps (setHth_keeps h))
      · exact (setHth_keeps h)
    )
    · exact h
  )

theorem allDark_keeps {r s : State} (h : Keeps r s) :
    Keeps r (allDark s) := by
  delta allDark
  exact (forEng_keeps h (fun _ _ h1 => (engineDark_keeps h1)))

theorem safeFromStandby_keeps {r s : State} (h : Keeps r s) :
    Keeps r (safeFromStandby s) := by
  delta safeFromStandby
  exact (setHst_keeps (setGrn_keeps (allPlls_keeps h (fun _ _ h1 => (pllOn_keeps h1))) fun _ => rfl))

theorem enterSafe_keeps {r s : State} {cause} (h : Keeps r s) :
    Keeps r (enterSafe cause s) := by
  delta enterSafe
  exact (Keeps.ite h (Keeps.ite (Keeps.ite h (judgeHolder_keeps (forEng_keeps (setHth_keeps (abandonTrans_keeps h))
      (fun _ _ h1 => (scanOff_keeps h1))))) (judgeHolder_keeps (mirrorEnable_keeps (enterState_keeps (setHth_keeps
      (Keeps.ite (setGrn_keeps (quenchPlls_keeps (setThm_keeps (forEng_keeps (allDark_keeps (doneAll_keeps
      (dropDeferred_keeps (abortCommit_keeps (abandonTrans_keeps h))))) (fun _ _ h2 => (scanOff_keeps h2))))) fun _
      => rfl) (Keeps.ite (safeFromStandby_keeps (setThm_keeps (forEng_keeps (allDark_keeps (doneAll_keeps
      (dropDeferred_keeps (abortCommit_keeps (abandonTrans_keeps h))))) (fun _ _ h3 => (scanOff_keeps h3)))))
      (setThm_keeps (forEng_keeps (allDark_keeps (doneAll_keeps (dropDeferred_keeps (abortCommit_keeps
      (abandonTrans_keeps h))))) (fun _ _ h4 => (scanOff_keeps h4))))))))))))

theorem execEstopAssert_keeps {r s : State} {t} (h : Keeps r s) :
    KeepsO r (execEstopAssert t s) := by
  delta execEstopAssert
  exact (KeepsO.ite (KeepsO.next (setHth_keeps (at_keeps h))) (KeepsO.next (Keeps.ite (enterSafe_keeps (forEng_keeps
      (setHth_keeps (at_keeps h)) (fun _ _ h1 => (darkCause_keeps h1)))) (forEng_keeps (setHth_keeps (at_keeps h))
      (fun _ _ h2 => (darkCause_keeps h2))))))

theorem quenchDark_keeps {r s : State} (h : Keeps r s) :
    Keeps r (quenchDark s) := by
  delta quenchDark
  exact (judgeHolder_keeps (servoStop_keeps (forEng_keeps (setThm_keeps (allDark_keeps h)) (fun _ _ h1 =>
      (scanOff_keeps h1)))))

theorem quenchInSafe_keeps {r s : State} (h : Keeps r s) :
    Keeps r (quenchInSafe s) := by
  delta quenchInSafe
  exact (quenchPlls_keeps (setGrn_keeps (setThm_keeps (Keeps.ite (servoStop_keeps (forEng_keeps (forEng_keeps
      (abandonTrans_keeps h) (fun _ _ h2 => (scanOff_keeps h2))) (fun _ _ h1 => (linkOff_keeps h1)))) h)) fun _ =>
      rfl))

theorem declareQuench_keeps {r s : State} {immediate} {cause} (h : Keeps r s) :
    Keeps r (declareQuench immediate cause s) := by
  delta declareQuench
  exact (Keeps.ite h (Keeps.ite (raiseIf_keeps (raiseIf_keeps (setThm_keeps (setHth_keeps h)))) (Keeps.ite (Keeps.ite
      (quenchDark_keeps (setHth_keeps (setThm_keeps h))) h) (Keeps.ite (quenchInSafe_keeps (abortCommit_keeps
      (raiseIf_keeps (raiseIf_keeps (setThm_keeps h))))) (Keeps.ite (quenchDark_keeps (judgeHolder_keeps
      (setThm_keeps (setHth_keeps (dropDeferred_keeps (abandonTrans_keeps (abortCommit_keeps (raiseIf_keeps
      (raiseIf_keeps (setThm_keeps h)))))))))) (judgeHolder_keeps (setThm_keeps (setHth_keeps (dropDeferred_keeps
      (abandonTrans_keeps (abortCommit_keeps (raiseIf_keeps (raiseIf_keeps (setThm_keeps h))))))))))))))

theorem quenchReached_keeps {r s : State} {t} (h : Keeps r s) :
    Keeps r (quenchReached t s) := by
  delta quenchReached
  exact (judgeHolder_keeps (setThm_keeps (enterState_keeps (quenchPlls_keeps (setGrn_keeps (forEng_keeps
      (servoStop_keeps (forEng_keeps (allDark_keeps h) (fun _ _ h2 => (scanOff_keeps h2)))) (fun _ _ h1 =>
      (linkOff_keeps h1))) fun _ => rfl)))))

theorem execQuenchRampStep_keeps {r s : State} {t} (h : Keeps r s) :
    KeepsO r (execQuenchRampStep t s) := by
  delta execQuenchRampStep
  exact (KeepsO.ite (KeepsO.next (Keeps.ite (quenchDark_keeps (setThm_keeps (at_keeps h))) (setThm_keeps (at_keeps
      h)))) (KeepsO.next (at_keeps h)))

/-! ## Machine/Tongs.lean -/

theorem setAligner_keeps {r s : State} {a} {f} (h : Keeps r s) :
    Keeps r (setAligner a f s) := by
  delta setAligner
  exact (by
    split
    · exact (setTng_keeps h)
    · exact (setTng_keeps h)
  )

theorem joinPhase_keeps {r s : State} {a} {d} {st} (h : Keeps r s) :
    Keeps r (joinPhase a d st s) := by
  delta joinPhase
  exact (Keeps.ite (setAligner_keeps (by
    split
    · exact (setTng_keeps h)
    · exact h
  )) (setAligner_keeps (by
    split
    · exact (setTng_keeps h)
    · exact h
  )))

theorem edgeSpurious_keeps {r s : State} {a} (h : Keeps r s) :
    Keeps r (edgeSpurious a s) := by
  delta edgeSpurious
  exact (raiseIf_keeps (setAligner_keeps h))

theorem restartRun_keeps {r s : State} {a} (h : Keeps r s) :
    Keeps r (restartRun a s) := by
  delta restartRun
  exact (setAligner_keeps h)

theorem edgeAccept_keeps {r s : State} {a} (h : Keeps r s) :
    Keeps r (edgeAccept a s) := by
  delta edgeAccept
  exact (by
    (try dsimp only)
    split
    · exact (Keeps.ite (raise_keeps (joinPhase_keeps (setAligner_keeps h))) (setAligner_keeps h))
    · exact (Keeps.ite (setAligner_keeps (setAligner_keeps h)) (setAligner_keeps h))
    · exact (by
      split
      · exact (setTng_keeps (setAligner_keeps (setAligner_keeps h)))
      · exact (setAligner_keeps (setAligner_keeps h))
    )
    · exact (setAligner_keeps h)
  )

theorem edgeReturn_keeps {r s : State} {a} (h : Keeps r s) :
    Keeps r (edgeReturn a s) := by
  delta edgeReturn
  exact (Keeps.ite (setAligner_keeps h) (raise_keeps (by
    split
    · exact (setTng_keeps (joinPhase_keeps (setAligner_keeps (setAligner_keeps h))))
    · exact (joinPhase_keeps (setAligner_keeps (setAligner_keeps h)))
  )))

theorem refEdge_keeps {r s : State} {a} (h : Keeps r s) :
    Keeps r (refEdge a s) := by
  delta refEdge
  exact (by
    (try dsimp only)
    split
    · exact h
    · exact (edgeReturn_keeps h)
    · exact (by
      split
      · exact (setAligner_keeps h)
      · exact (Keeps.ite (Keeps.ite (edgeSpurious_keeps h) (restartRun_keeps (edgeSpurious_keeps h))) (Keeps.ite
          (Keeps.ite (raise_keeps h) (restartRun_keeps (raise_keeps h))) (edgeAccept_keeps h)))
    )
  )

theorem execReferenceEdge_keeps {r s : State} {t} {al} (h : Keeps r s) :
    KeepsO r (execReferenceEdge t al s) := by
  delta execReferenceEdge
  exact (KeepsO.ite (KeepsO.next (at_keeps h)) (KeepsO.next (refEdge_keeps (at_keeps h))))

theorem pllLanes_keeps {r s : State} {p} {e} (h : Keeps r s) :
    Keeps r (pllLanes p e s) := by
  delta pllLanes
  exact (Keeps.ite (darkCause_keeps h) h)

theorem loopsHoldAll_keeps {r s : State} (h : Keeps r s) :
    Keeps r (loopsHoldAll s) := by
  delta loopsHoldAll
  exact (setSrv_keeps h)

theorem pllFailed_keeps {r s : State} {p} (h : Keeps r s) :
    Keeps r (pllFailed p s) := by
  delta pllFailed
  exact (enterSafe_keeps (raise_keeps h))

theorem pllLoss_keeps {r s : State} {p} (h : Keeps r s) :
    Keeps r (pllLoss p s) := by
  delta pllLoss
  exact (Keeps.ite h (Keeps.ite (pllFailed_keeps (Keeps.ite (Keeps.mk' (pcieDown_keeps (Keeps.ite (setHth_keeps
      (Keeps.ite (loopsHoldAll_keeps (forEng_keeps (raise_keeps (setPll_keeps h)) (fun _ _ h1 => (pllLanes_keeps
      h1)))) (forEng_keeps (raise_keeps (setPll_keeps h)) (fun _ _ h2 => (pllLanes_keeps h2))))) (Keeps.ite
      (loopsHoldAll_keeps (forEng_keeps (raise_keeps (setPll_keeps h)) (fun _ _ h3 => (pllLanes_keeps h3))))
      (forEng_keeps (raise_keeps (setPll_keeps h)) (fun _ _ h4 => (pllLanes_keeps h4)))))) fun hw => hw) (Keeps.ite
      (setHth_keeps (Keeps.ite (loopsHoldAll_keeps (forEng_keeps (raise_keeps (setPll_keeps h)) (fun _ _ h5 =>
      (pllLanes_keeps h5)))) (forEng_keeps (raise_keeps (setPll_keeps h)) (fun _ _ h6 => (pllLanes_keeps h6)))))
      (Keeps.ite (loopsHoldAll_keeps (forEng_keeps (raise_keeps (setPll_keeps h)) (fun _ _ h7 => (pllLanes_keeps
      h7)))) (forEng_keeps (raise_keeps (setPll_keeps h)) (fun _ _ h8 => (pllLanes_keeps h8))))))) (Keeps.ite
      (Keeps.mk' (pcieDown_keeps (Keeps.ite (setHth_keeps (Keeps.ite (loopsHoldAll_keeps (forEng_keeps (raise_keeps
      (setPll_keeps h)) (fun _ _ h9 => (pllLanes_keeps h9)))) (forEng_keeps (raise_keeps (setPll_keeps h)) (fun _ _
      h10 => (pllLanes_keeps h10))))) (Keeps.ite (loopsHoldAll_keeps (forEng_keeps (raise_keeps (setPll_keeps h))
      (fun _ _ h11 => (pllLanes_keeps h11)))) (forEng_keeps (raise_keeps (setPll_keeps h)) (fun _ _ h12 =>
      (pllLanes_keeps h12)))))) fun hw => hw) (Keeps.ite (setHth_keeps (Keeps.ite (loopsHoldAll_keeps (forEng_keeps
      (raise_keeps (setPll_keeps h)) (fun _ _ h13 => (pllLanes_keeps h13)))) (forEng_keeps (raise_keeps (setPll_keeps
      h)) (fun _ _ h14 => (pllLanes_keeps h14))))) (Keeps.ite (loopsHoldAll_keeps (forEng_keeps (raise_keeps
      (setPll_keeps h)) (fun _ _ h15 => (pllLanes_keeps h15)))) (forEng_keeps (raise_keeps (setPll_keeps h)) (fun _ _
      h16 => (pllLanes_keeps h16))))))))

theorem execPllLossOfLock_keeps {r s : State} {t} {pll} (h : Keeps r s) :
    KeepsO r (execPllLossOfLock t pll s) := by
  delta execPllLossOfLock
  exact (KeepsO.ite (KeepsO.next (pllLoss_keeps (at_keeps h))) (KeepsO.next (at_keeps h)))

theorem execPllRelockAttemptExpiry_keeps {r s : State} {t} {pll} (h : Keeps r s) :
    KeepsO r (execPllRelockAttemptExpiry t pll s) := by
  delta execPllRelockAttemptExpiry
  exact (KeepsO.ite (KeepsO.next (at_keeps h)) (KeepsO.next (Keeps.ite (pllFailed_keeps (setPll_keeps (at_keeps h)))
      (setPll_keeps (at_keeps h)))))

theorem pllLocks_keeps {r s : State} {p} (h : Keeps r s) :
    Keeps r (pllLocks p s) := by
  delta pllLocks
  exact (setPll_keeps h)

theorem execPllRelock_keeps {r s : State} {t} {pll} {dptxTrained} (h : Keeps r s) :
    KeepsO r (execPllRelock t pll dptxTrained s) := by
  delta execPllRelock
  exact (KeepsO.ite (KeepsO.next (at_keeps h)) (KeepsO.next (Keeps.ite (mirrorTrain_keeps (setHst_keeps
      (pllLocks_keeps (setPll_keeps (at_keeps h))))) (pllLocks_keeps (setPll_keeps (at_keeps h))))))

theorem execSafePllAttempt_keeps {r s : State} {t} {locked} (h : Keeps r s) :
    KeepsO r (execSafePllAttempt t locked s) := by
  delta execSafePllAttempt
  exact (KeepsO.ite (KeepsO.next (allPlls_keeps (at_keeps h) (fun _ _ h1 => (Keeps.ite (Keeps.ite (mirrorTrain_keeps
      (setHst_keeps (fresh_keeps (pllLocks_keeps h1)))) (pllLocks_keeps h1)) h1)))) (KeepsO.next (at_keeps h)))

theorem pllFrame_keeps {r s : State} (h : Keeps r s) :
    Keeps r (pllFrame s) := by
  delta pllFrame
  exact (forEng_keeps (allPlls_keeps h (fun _ _ h2 => (Keeps.ite h2 (Keeps.ite (setSrv_keeps (raise_keeps
      (setPll_keeps h2))) (raise_keeps (setPll_keeps h2)))))) (fun _ _ h1 => (Keeps.ite (releaseCause_keeps h1) h1)))

theorem loseRef_keeps {r s : State} {al} (h : Keeps r s) :
    Keeps r (loseRef al s) := by
  delta loseRef
  exact (raise_keeps (setAligner_keeps h))

theorem execReferenceLoss_keeps {r s : State} {t} {al} (h : Keeps r s) :
    KeepsO r (execReferenceLoss t al s) := by
  delta execReferenceLoss
  exact (KeepsO.ite (by
    (try dsimp only)
    split
    · exact (KeepsO.next (allPlls_keeps (setTng_keeps (loseRef_keeps (at_keeps h))) (fun _ _ h1 => (pllLoss_keeps
        h1))))
    · exact (KeepsO.next (loseRef_keeps (at_keeps h)))
  ) (KeepsO.next (at_keeps h)))

theorem execHoldoverLongExpiry_keeps {r s : State} {t} {al} (h : Keeps r s) :
    KeepsO r (execHoldoverLongExpiry t al s) := by
  delta execHoldoverLongExpiry
  exact (by
    (try dsimp only)
    split
    · exact (KeepsO.ite (KeepsO.next (raise_keeps (setAligner_keeps (at_keeps h)))) (KeepsO.next (at_keeps h)))
    · exact (KeepsO.next (at_keeps h))
  )

theorem clockFrame_keeps {r s : State} (h : Keeps r s) :
    Keeps r (clockFrame s) := by
  delta clockFrame
  exact (by
    (try dsimp only)
    split
    · exact (raise_keeps (setAligner_keeps (setAligner_keeps h)))
    · exact (setAligner_keeps h)
  )

theorem alignFrame_keeps {r s : State} {t} (h : Keeps r s) :
    Keeps r (alignFrame t s).1 := by
  delta alignFrame
  exact (by
    (try dsimp only)
    split
    · exact (Keeps.fst (raise_keeps (setAligner_keeps (setAligner_keeps h))))
    · exact (Keeps.fst (setAligner_keeps (setAligner_keeps h)))
  )

theorem syncFrame_keeps {r s : State} (h : Keeps r s) :
    Keeps r (syncFrame s) := by
  delta syncFrame
  exact (setTng_keeps h)

theorem periodFrame_keeps {r s : State} (h : Keeps r s) :
    Keeps r (periodFrame s) := by
  delta periodFrame
  exact (by
    (try dsimp only)
    split
    · exact (Keeps.ite (setTng_keeps (alignFrame_keeps h)) (Keeps.ite (raise_keeps (setTng_keeps (alignFrame_keeps
        (setTng_keeps h)))) (setTng_keeps (alignFrame_keeps (setTng_keeps h)))))
    · exact (setTng_keeps (alignFrame_keeps h))
  )

theorem engineSet_keeps {r s : State} {e} {c} (h : Keeps r s) :
    Keeps r (engineSet e c s) := by
  delta engineSet
  exact (Keeps.ite h (Keeps.ite (Keeps.ite (linkStart_keeps (Keeps.ite (warpFallback_keeps (Keeps.mk' (Keeps.ite
      (linkOff_keeps h) (Keeps.ite (scanOff_keeps h) h)) fun hw => hw)) (sheafWorks_keeps (warpFallback_keeps
      (Keeps.mk' (Keeps.ite (linkOff_keeps h) (Keeps.ite (scanOff_keeps h) h)) fun hw => hw))))) (Keeps.ite
      (warpFallback_keeps (Keeps.mk' (Keeps.ite (linkOff_keeps h) (Keeps.ite (scanOff_keeps h) h)) fun hw => hw))
      (sheafWorks_keeps (warpFallback_keeps (Keeps.mk' (Keeps.ite (linkOff_keeps h) (Keeps.ite (scanOff_keeps h) h))
      fun hw => hw))))) (Keeps.ite (scanStart_keeps (warpFallback_keeps (Keeps.mk' (Keeps.ite (linkOff_keeps h)
      (Keeps.ite (scanOff_keeps h) h)) fun hw => hw))) (warpFallback_keeps (Keeps.mk' (Keeps.ite (linkOff_keeps h)
      (Keeps.ite (scanOff_keeps h) h)) fun hw => hw)))))

theorem profileEngine_keeps {r s : State} {p} (h : Keeps r s) :
    Keeps r (profileEngine p s).1 := by
  delta profileEngine
  exact (Keeps.ite1 (deny_keeps h) (by
    split
    · exact (deny_keeps h)
    · exact (Keeps.fst (engineSet_keeps h))
  ))

theorem rateAccept_keeps {r s : State} {profile} {n} {f2} {applyAt} (h : Keeps r s) :
    Keeps r (rateAccept profile n f2 applyAt s) := by
  delta rateAccept
  exact (Keeps.ite (reassess_keeps (setTng_keeps h)) (setTng_keeps h))

theorem profileRate_keeps {r s : State} {p} (h : Keeps r s) :
    Keeps r (profileRate p s).1 := by
  delta profileRate
  exact (Keeps.ite1 (deny_keeps h) (by
    split
    · exact (deny_keeps h)
    · exact (Keeps.fst (rateAccept_keeps h))
  ))

theorem profileVct_keeps {r s : State} {p} (h : Keeps r s) :
    Keeps r (profileVct p s).1 := by
  delta profileVct
  exact (Keeps.ite1 (deny_keeps h) (Keeps.ite1 (deny_keeps h) (Keeps.ite1 (deny_keeps h) (Keeps.ite1 (deny_keeps h)
      (Keeps.ite1 (Keeps.fst (setScn_keeps h)) (by
    split
    · exact (deny_keeps h)
    · exact (Keeps.fst (setScn_keeps h))
  ))))))

/-! ## Machine/Granary.lean -/

theorem setPc_keeps {r s : State} {c} {f} (h : Keeps r s) :
    Keeps r (setPc c f s) := by
  delta setPc
  exact (setGrn_keeps h fun _ => rfl)

theorem logPush_keeps {r s : State} {addr} {ty} {port} {c} {syndrome} (h : Keeps r s) :
    Keeps r (logPush addr ty port c syndrome s) := by
  delta logPush
  exact (Keeps.ite (setGrn_keeps h fun _ => rfl) (raiseIf_keeps (setGrn_keeps h fun _ => rfl)))

theorem redirect_keeps {r s : State} {stack} (h : Keeps r s) : Keeps r (redirect stack s) := by
  refine setGrn_wf h fun hw => ?_
  exact Mem.erase_wf (fun a => (pcOf s.grn.stacksUsed a).val / 32 == stack && s.grn.pc[pcOf s.grn.stacksUsed a].failed) hw

theorem failPc_keeps {r s : State} {c} (h : Keeps r s) :
    Keeps r (failPc c s) := by
  delta failPc
  exact (Keeps.ite (enterSafe_keeps (setGrn_keeps (raise_keeps (logPush_keeps (redirect_keeps (setPc_keeps h)))) fun
      _ => rfl)) (raise_keeps (logPush_keeps (redirect_keeps (setPc_keeps h)))))

theorem makeSuspect_keeps {r s : State} {c} (h : Keeps r s) :
    Keeps r (makeSuspect c s) := by
  delta makeSuspect
  exact (Keeps.ite h (setPc_keeps h))

theorem retrain_keeps {r s : State} {c} (h : Keeps r s) :
    Keeps r (retrain c s) := by
  delta retrain
  exact (setPc_keeps h)

theorem dataCheck_keeps {r s : State} {c} {ok} (h : Keeps r s) :
    Keeps r (dataCheck c ok s) := by
  delta dataCheck
  exact (by
    (try dsimp only)
    split
    · exact h
    · exact (Keeps.ite (setPc_keeps h) (Keeps.ite (setPc_keeps (logPush_keeps h)) (Keeps.ite (failPc_keeps
        (logPush_keeps h)) (retrain_keeps (logPush_keeps h)))))
  )

theorem trainSettle_keeps {r s : State} (h : Keeps r s) :
    Keeps r (trainSettle s) := by
  delta trainSettle
  exact (by
    split
    · exact (cmdDone_keeps (setGrn_keeps h fun _ => rfl))
    · exact h
  )

theorem trainTick_keeps {r s : State} {c} (h : Keeps r s) :
    Keeps r (trainTick c s) := by
  delta trainTick
  exact (by
    split
    · exact h
    · exact (Keeps.ite (trainSettle_keeps (setGrn_keeps h fun _ => rfl)) h)
  )

theorem trainTaps_keeps {r s : State} {c} {taps} (h : Keeps r s) :
    Keeps r (trainTaps c taps s) := by
  delta trainTaps
  exact (forceTaps_keeps h)

theorem execRetrainComplete_keeps {r s : State} {t} {pc} {found} {checkOk} {taps} (h : Keeps r s) :
    KeepsO r (execRetrainComplete t pc found checkOk taps s) := by
  delta execRetrainComplete
  exact (KeepsO.ite (KeepsO.next (at_keeps h)) (KeepsO.next (trainTick_keeps (Keeps.ite (trainTaps_keeps (setPc_keeps
      (at_keeps h))) (Keeps.ite (raise_keeps (setPc_keeps (at_keeps h))) (failPc_keeps (setPc_keeps (at_keeps
      h))))))))

theorem refreshFollow_keeps {r s : State} (h : Keeps r s) :
    Keeps r (refreshFollow s) := by
  delta refreshFollow
  exact (setGrn_keeps h fun _ => rfl)

theorem refreshFrame_keeps {r s : State} (h : Keeps r s) :
    Keeps r (refreshFrame s) := by
  delta refreshFrame
  exact (setGrn_keeps h fun _ => rfl)

theorem issueRefresh_keeps {r s : State} {c} {ok} (h : Keeps r s) :
    Keeps r (issueRefresh c ok s) := by
  delta issueRefresh
  exact (Keeps.ite (dataCheck_keeps (setPc_keeps h)) (setPc_keeps h))

theorem execRefreshInterval_keeps {r s : State} {t} {pc} {checkOk} (h : Keeps r s) :
    KeepsO r (execRefreshInterval t pc checkOk s) := by
  delta execRefreshInterval
  exact (KeepsO.ite (KeepsO.next (starveTick_keeps (scrubTick_keeps (at_keeps h)))) (KeepsO.ite (KeepsO.ite
      (KeepsO.next (setPc_keeps (starveTick_keeps (scrubTick_keeps (at_keeps h))))) (KeepsO.next (issueRefresh_keeps
      (raise_keeps (logPush_keeps (setGrn_keeps (starveTick_keeps (scrubTick_keeps (at_keeps h))) fun _ => rfl))))))
      (KeepsO.ite (KeepsO.next (issueRefresh_keeps (starveTick_keeps (scrubTick_keeps (at_keeps h))))) (KeepsO.next
      (issueRefresh_keeps (issueRefresh_keeps (setPc_keeps (starveTick_keeps (scrubTick_keeps (at_keeps h))))))))))

theorem errorResponse_keeps {r s : State} {port} {addr} {write} (h : Keeps r s) :
    Keeps r (errorResponse port addr write s) := by
  delta errorResponse
  exact (Keeps.ite (Keeps.ite (Keeps.ite (rowDark_keeps h) h) (bandErr_keeps h)) (Keeps.ite (by
    split
    · exact (setThrE_keeps h)
    · exact h
  ) (Keeps.ite (setGrn_keeps h fun _ => rfl) (Keeps.ite (Keeps.ite (raise_keeps h) (setGrn_keeps h fun _ => rfl))
      (Keeps.ite (setDp_keeps h) h)))))

theorem replaysExhausted_keeps {r s : State} {c} {addr} {port} {write} (h : Keeps r s) :
    Keeps r (replaysExhausted c addr port write s) := by
  delta replaysExhausted
  exact (Keeps.ite (makeSuspect_keeps (Keeps.ite (logPush_keeps (setPc_keeps h)) (errorResponse_keeps (logPush_keeps
      (setPc_keeps h))))) (Keeps.ite (logPush_keeps (setPc_keeps h)) (errorResponse_keeps (logPush_keeps (setPc_keeps
      h)))))

theorem execParityError_keeps {r s : State} {t} {pc} {addr} {port} {write} {replaysFailed} (h : Keeps r s) :
    KeepsO r (execParityError t pc addr port write replaysFailed s) := by
  delta execParityError
  exact (KeepsO.ite (KeepsO.next (at_keeps h)) (KeepsO.next (Keeps.ite (replaysExhausted_keeps (raiseIf_keeps
      (setGrn_keeps (at_keeps h) fun _ => rfl))) (raiseIf_keeps (setGrn_keeps (at_keeps h) fun _ => rfl)))))

theorem eccCorrected_keeps {r s : State} {c} {addr} {port} {syndrome} (h : Keeps r s) :
    Keeps r (eccCorrected c addr port syndrome s) := by
  delta eccCorrected
  exact (Keeps.ite (makeSuspect_keeps (raise_keeps (Keeps.ite (logPush_keeps (setPc_keeps (setGrn_keeps h fun _ =>
      rfl))) (setGrn_keeps (logPush_keeps (setPc_keeps (setGrn_keeps h fun _ => rfl))) fun _ => rfl)))) (Keeps.ite
      (makeSuspect_keeps (Keeps.ite (logPush_keeps (setPc_keeps (setGrn_keeps h fun _ => rfl))) (setGrn_keeps
      (logPush_keeps (setPc_keeps (setGrn_keeps h fun _ => rfl))) fun _ => rfl))) (Keeps.ite (logPush_keeps
      (setPc_keeps (setGrn_keeps h fun _ => rfl))) (setGrn_keeps (logPush_keeps (setPc_keeps (setGrn_keeps h fun _ =>
      rfl))) fun _ => rfl))))

theorem eccUncorrectable_keeps {r s : State} {c} {addr} {port} {syndrome} (h : Keeps r s) :
    Keeps r (eccUncorrectable c addr port syndrome s) := by
  delta eccUncorrectable
  exact (Keeps.ite (makeSuspect_keeps (errorResponse_keeps (raise_keeps (logPush_keeps (setPc_keeps (setGrn_keeps h
      fun _ => rfl)))))) (errorResponse_keeps (raise_keeps (logPush_keeps (setPc_keeps (setGrn_keeps h fun _ =>
      rfl))))))

theorem execEccError_keeps {r s : State} {t} {pc} {addr} {port} {uncorrectable} {syndrome} (h : Keeps r s) :
    KeepsO r (execEccError t pc addr port uncorrectable syndrome s) := by
  delta execEccError
  exact (KeepsO.ite (KeepsO.next (at_keeps h)) (KeepsO.ite (KeepsO.next (eccUncorrectable_keeps (at_keeps h)))
      (KeepsO.next (eccCorrected_keeps (at_keeps h)))))

theorem execBar2Write_keeps {r s : State} {t} {addr} {bytes} (h : Keeps r s) :
    KeepsO r (execBar2Write t addr bytes s) := by
  delta execBar2Write
  exact (KeepsO.ite trivial (KeepsO.ite (KeepsO.next (at_keeps h)) (KeepsO.ite (KeepsO.next (setGrn_wf (at_keeps h)
      fun hw => Mem.writes_wf _ _ hw)) (KeepsO.next (raise_keeps (at_keeps h))))))

theorem execBar2Read_keeps {r s : State} {t} {addr} {len} (h : Keeps r s) :
    KeepsO r (execBar2Read t addr len s) := by
  delta execBar2Read
  exact (KeepsO.ite trivial (KeepsO.ite (KeepsO.next (at_keeps h)) (KeepsO.ite (KeepsO.next (setGrn_keeps (at_keeps
      h) fun _ => rfl)) (KeepsO.ite (KeepsO.next (setGrn_keeps (at_keeps h) fun _ => rfl)) (KeepsO.next (setGrn_keeps
      (at_keeps h) fun _ => rfl))))))

theorem memTrainRun_keeps {r s : State} {rq} (h : Keeps r s) :
    Keeps r (memTrainRun rq s).1 := by
  delta memTrainRun
  exact (by
    (try dsimp only)
    split
    · exact (Keeps.fst h)
    · exact (Keeps.fst (setGrn_keeps (Keeps.fold h (fun _ _ h1 => (retrain_keeps h1))) fun _ => rfl))
  )

theorem execMemTrain_keeps {r s : State} {t} {rq} (h : Keeps r s) :
    KeepsO r (execMemTrain t rq s) := by
  delta execMemTrain
  exact (KeepsO.next (trainSettle_keeps (serve_keeps (at_keeps h) (fun _ _ h1 => (deferrable_keeps h1 (fun _ _ h2 =>
      (memTrainRun_keeps h2)))))))

theorem freshBytes_keeps {r s : State} {n : Nat} (h : Keeps r s) : Keeps r (freshBytes n s).2 := by
  induction n generalizing s with
  | zero => exact h
  | succ n ih => exact ih (fresh_keeps h)

theorem memStatusBody_keeps {r s : State} {rq} (h : Keeps r s) :
    Keeps r (memStatusBody rq s).1 := by
  delta memStatusBody
  exact (Keeps.ite1 (deny_keeps h) (Keeps.fst (Keeps.ite (setGrn_keeps (freshBytes_keeps h) fun _ => rfl)
      (freshBytes_keeps h))))

theorem execMemStatus_keeps {r s : State} {t} {rq} (h : Keeps r s) :
    KeepsO r (execMemStatus t rq s) := by
  delta execMemStatus
  exact (KeepsO.next (serve_keeps (at_keeps h) (fun _ _ h1 => (memStatusBody_keeps h1))))

/-! ## Machine/Thermal.lean -/

theorem dieFail_keeps {r s : State} {i} (h : Keeps r s) :
    Keeps r (dieFail i s) := by
  delta dieFail
  exact (raise_keeps (setThm_keeps h))

theorem dieRange_keeps {r s : State} (h : Keeps r s) :
    Keeps r (dieRange s) := by
  delta dieRange
  exact (Keeps.fold h (fun _ _ h1 => (Keeps.ite (dieFail_keeps h1) h1)))

theorem dieSuspicion_keeps {r s : State} (h : Keeps r s) :
    Keeps r (dieSuspicion s) := by
  delta dieSuspicion
  exact (setThm_keeps h)

theorem dieJunction_keeps {r s : State} (h : Keeps r s) :
    Keeps r (dieJunction s) := by
  delta dieJunction
  exact (setThm_keeps h)

theorem dieDwells_keeps {r s : State} (h : Keeps r s) :
    Keeps r (dieDwells s) := by
  delta dieDwells
  exact (setThm_keeps h)

theorem setLevel_keeps {r s : State} {n} (h : Keeps r s) :
    Keeps r (setLevel n s) := by
  delta setLevel
  exact (raiseIf_keeps (raiseIf_keeps (raiseIf_keeps (setThm_keeps h))))

theorem slopeCheck_keeps {r s : State} (h : Keeps r s) :
    Keeps r (slopeCheck s) := by
  delta slopeCheck
  exact (Keeps.ite (Keeps.ite (declareQuench_keeps h) h) (Keeps.ite (declareQuench_keeps (setLevel_keeps h)) h))

theorem hardwareTrip_keeps {r s : State} {i} (h : Keeps r s) :
    Keeps r (hardwareTrip i s) := by
  delta hardwareTrip
  exact (Keeps.ite h (declareQuench_keeps (forEng_keeps (raise_keeps (setLevel_keeps h)) (fun _ _ h1 =>
      (darkCause_keeps h1)))))

theorem execDieSensorSample_keeps {r s : State} {t} {i} {value} (h : Keeps r s) :
    KeepsO r (execDieSensorSample t i value s) := by
  delta execDieSensorSample
  exact (KeepsO.ite (KeepsO.next (at_keeps h)) (KeepsO.next (Keeps.ite (hardwareTrip_keeps (setThm_keeps (at_keeps
      h))) (setThm_keeps (at_keeps h)))))

theorem execDieSensorReading_keeps {r s : State} {t} {values} (h : Keeps r s) :
    KeepsO r (execDieSensorReading t values s) := by
  delta execDieSensorReading
  exact (KeepsO.ite (KeepsO.next (at_keeps h)) (KeepsO.ite (KeepsO.next (slopeCheck_keeps (dieDwells_keeps
      (dieJunction_keeps (dieSuspicion_keeps (dieRange_keeps (setThm_keeps (at_keeps h)))))))) (KeepsO.next
      (hardwareTrip_keeps (dieDwells_keeps (dieJunction_keeps (dieSuspicion_keeps (dieRange_keeps (setThm_keeps
      (at_keeps h))))))))))

theorem execSensorSuspectExpiry_keeps {r s : State} {t} {i} (h : Keeps r s) :
    KeepsO r (execSensorSuspectExpiry t i s) := by
  delta execSensorSuspectExpiry
  exact (KeepsO.ite (KeepsO.next (dieFail_keeps (at_keeps h))) (KeepsO.next (at_keeps h)))

theorem execLevelDwellExpiry_keeps {r s : State} {t} (h : Keeps r s) :
    KeepsO r (execLevelDwellExpiry t s) := by
  delta execLevelDwellExpiry
  exact (KeepsO.ite (KeepsO.next (at_keeps h)) (KeepsO.ite (KeepsO.next (Keeps.ite (declareQuench_keeps
      (setLevel_keeps (at_keeps h))) (setLevel_keeps (at_keeps h)))) (KeepsO.next (Keeps.ite (setLevel_keeps
      (at_keeps h)) (at_keeps h)))))

theorem execThrottleHoldExpiry_keeps {r s : State} {t} (h : Keeps r s) :
    KeepsO r (execThrottleHoldExpiry t s) := by
  delta execThrottleHoldExpiry
  exact (by
    (try dsimp only)
    split
    · exact (KeepsO.ite (KeepsO.next (dieDwells_keeps (setThm_keeps (at_keeps h)))) (KeepsO.next (at_keeps h)))
    · exact (KeepsO.next (at_keeps h))
  )

theorem execThrottleStep_keeps {r s : State} {t} (h : Keeps r s) :
    KeepsO r (execThrottleStep t s) := by
  delta execThrottleStep
  exact (KeepsO.ite (KeepsO.next (setThm_keeps (at_keeps h))) (KeepsO.next (at_keeps h)))

theorem execStackSensorReading_keeps {r s : State} {t} {k} {value} (h : Keeps r s) :
    KeepsO r (execStackSensorReading t k value s) := by
  delta execStackSensorReading
  exact (KeepsO.ite (KeepsO.next (at_keeps h)) (KeepsO.next (refreshFollow_keeps (setThm_keeps (at_keeps h)))))

theorem execStackLevelDwellExpiry_keeps {r s : State} {t} {k} (h : Keeps r s) :
    KeepsO r (execStackLevelDwellExpiry t k s) := by
  delta execStackLevelDwellExpiry
  exact (KeepsO.ite (KeepsO.next (at_keeps h)) (KeepsO.next (refreshFollow_keeps (setThm_keeps (at_keeps h)))))

theorem execStackSensorTimeout_keeps {r s : State} {t} {k} (h : Keeps r s) :
    KeepsO r (execStackSensorTimeout t k s) := by
  delta execStackSensorTimeout
  exact (KeepsO.ite (KeepsO.next (at_keeps h)) (KeepsO.next (raise_keeps (refreshFollow_keeps (setThm_keeps (at_keeps
      h))))))

theorem execNtcReading_keeps {r s : State} {t} {m} {value} (h : Keeps r s) :
    KeepsO r (execNtcReading t m value s) := by
  delta execNtcReading
  exact (KeepsO.ite (KeepsO.next (at_keeps h)) (KeepsO.ite (KeepsO.next (raise_keeps (setThm_keeps (setThm_keeps
      (at_keeps h))))) (KeepsO.next (setThm_keeps (at_keeps h)))))

theorem execProcessMonitorMeasure_keeps {r s : State} {t} {ratios} (h : Keeps r s) :
    KeepsO r (execProcessMonitorMeasure t ratios s) := by
  delta execProcessMonitorMeasure
  exact (KeepsO.ite (KeepsO.next (at_keeps h)) (by
    (try dsimp only)
    split
    · exact (KeepsO.ite (KeepsO.next (setThm_keeps (at_keeps h))) (KeepsO.next (raise_keeps (setThm_keeps
        (setThm_keeps (at_keeps h))))))
    · exact (KeepsO.next (setThm_keeps (at_keeps h)))
  ))

theorem thermalPolicyBody_keeps {r s : State} {rq} (h : Keeps r s) :
    Keeps r (thermalPolicyBody rq s).1 := by
  delta thermalPolicyBody
  exact (Keeps.ite1 (Keeps.fst (setThm_keeps h)) (deny_keeps h))

theorem execThermalPolicy_keeps {r s : State} {t} {rq} (h : Keeps r s) :
    KeepsO r (execThermalPolicy t rq s) := by
  delta execThermalPolicy
  exact (KeepsO.next (serve_keeps (at_keeps h) (fun _ _ h1 => (thermalPolicyBody_keeps h1))))

/-! ## Machine/SelfTest.lean -/

theorem setResult_keeps {r s : State} {i} {f} (h : Keeps r s) :
    Keeps r (setResult i f s) := by
  delta setResult
  exact (setBst_keeps h)

theorem assignSpare_keeps {r s : State} {i} {addr} {row} {col} (h : Keeps r s) :
    Keeps r (assignSpare i addr row col s) := by
  delta assignSpare
  exact (Keeps.ite (setBst_keeps h) (by
    (try dsimp only)
    split
    · exact (setBst_keeps (setBst_keeps h))
    · exact (raise_keeps (setBst_keeps (setBst_keeps h)))
  ))

theorem execMarchSliceStart_keeps {r s : State} {t} {inst} {idle} {free} (h : Keeps r s) :
    KeepsO r (execMarchSliceStart t inst idle free s) := by
  delta execMarchSliceStart
  exact (KeepsO.ite (KeepsO.next (at_keeps h)) (KeepsO.next (slotTaken_keeps (setBst_keeps (at_keeps h)))))

theorem passEnds_keeps {r s : State} {m} {whole} (h : Keeps r s) :
    Keeps r (passEnds m whole s) := by
  delta passEnds
  exact (Keeps.ite (raise_keeps (setBst_keeps (setResult_keeps h))) (Keeps.ite (raise_keeps (setBst_keeps
      (setResult_keeps h))) (setBst_keeps (setResult_keeps h))))

theorem execMarchSliceComplete_keeps {r s : State} {t} {inst} {predicted} {actual} {fail} (h : Keeps r s) :
    KeepsO r (execMarchSliceComplete t inst predicted actual fail s) := by
  delta execMarchSliceComplete
  exact (by
    (try dsimp only)
    split
    · exact (KeepsO.next (at_keeps h))
    · exact (KeepsO.ite (KeepsO.next (at_keeps h)) (KeepsO.next (Keeps.ite (passEnds_keeps (by
      split
      · exact (Keeps.ite (assignSpare_keeps (setBst_keeps (at_keeps h))) (setBst_keeps (at_keeps h)))
      · exact (setBst_keeps (at_keeps h))
    )) (by
      split
      · exact (Keeps.ite (assignSpare_keeps (setBst_keeps (at_keeps h))) (setBst_keeps (at_keeps h)))
      · exact (setBst_keeps (at_keeps h))
    ))))
  )

theorem sliceAbandon_keeps {r s : State} (h : Keeps r s) :
    Keeps r (sliceAbandon s) := by
  delta sliceAbandon
  exact (by
    split
    · exact h
    · exact (setResult_keeps (setBst_keeps h))
  )

theorem execMarchSliceAbort_keeps {r s : State} {t} {inst} (h : Keeps r s) :
    KeepsO r (execMarchSliceAbort t inst s) := by
  delta execMarchSliceAbort
  exact (KeepsO.ite (KeepsO.next (sliceAbandon_keeps (at_keeps h))) (KeepsO.next (at_keeps h)))

theorem execPassLimitExpiry_keeps {r s : State} {t} {inst} (h : Keeps r s) :
    KeepsO r (execPassLimitExpiry t inst s) := by
  delta execPassLimitExpiry
  exact (by
    (try dsimp only)
    split
    · exact (KeepsO.next (at_keeps h))
    · exact (KeepsO.ite (KeepsO.next (at_keeps h)) (KeepsO.next (passEnds_keeps (Keeps.ite (setBst_keeps (at_keeps
        h)) (at_keeps h)))))
  )

theorem repairWrite_keeps {r s : State} {ok} (h : Keeps r s) :
    Keeps r (repairWrite ok s) := by
  delta repairWrite
  exact (Keeps.ite (Keeps.fold (setBst_keeps (Keeps.mk' h fun hw => hw)) (fun _ _ h1 => (raise_keeps h1)))
      (setBst_keeps (Keeps.mk' h fun hw => hw)))

theorem execRepairRecordWrite_keeps {r s : State} {t} {readBackOk} (h : Keeps r s) :
    KeepsO r (execRepairRecordWrite t readBackOk s) := by
  delta execRepairRecordWrite
  exact (KeepsO.ite (KeepsO.next (at_keeps h)) (by
    split
    · exact (KeepsO.next (setBst_keeps (at_keeps h)))
    · exact (KeepsO.next (repairWrite_keeps (at_keeps h)))
  ))

theorem repairLoad_keeps {r s : State} (h : Keeps r s) :
    Keeps r (repairLoad s) := by
  delta repairLoad
  exact (by
    (try dsimp only)
    split
    · exact h
    · exact (Keeps.fold (setBst_keeps h) (fun _ _ h1 => (logPush_keeps h1)))
  )

theorem bistRunBody_keeps {r s : State} {rq} (h : Keeps r s) :
    Keeps r (bistRunBody rq s).1 := by
  delta bistRunBody
  exact (Keeps.ite1 (deny_keeps h) (Keeps.ite1 (Keeps.fst (setBst_keeps h)) (by
    (try dsimp only)
    split
    · exact (deny_keeps h)
    · exact (Keeps.fst (Keeps.ite (setGrn_keeps (fresh_keeps (setBst_keeps h)) fun _ => rfl) (setBst_keeps h)))
  )))

theorem execBistRun_keeps {r s : State} {t} {rq} (h : Keeps r s) :
    KeepsO r (execBistRun t rq s) := by
  delta execBistRun
  exact (KeepsO.next (serve_keeps (at_keeps h) (fun _ _ h1 => (bistRunBody_keeps h1))))

theorem destructiveEnds_keeps {r s : State} {k} {key} {ok} {fails} {rows} (h : Keeps r s) :
    Keeps r (destructiveEnds k key ok fails rows s) := by
  delta destructiveEnds
  exact (by
    (try dsimp only)
    split
    · exact (cmdDone_keeps (setHth_keeps (setBst_keeps h)))
    · exact (cmdDone_keeps (repairWrite_keeps (setBst_keeps (setHth_keeps (setBst_keeps h)))))
  )

theorem fuseRepair_keeps {r s : State} {key} {ok} (h : Keeps r s) :
    Keeps r (fuseRepair key ok s) := by
  delta fuseRepair
  exact (Keeps.ite (cmdDone_keeps (setBst_keeps h)) (cmdDone_keeps (setBst_keeps (Keeps.mkOtp (setBst_keeps h) ⟨rfl,
      fun _ => BitVec.and_self, Nat.le_refl _, Nat.le_refl _⟩ fun hw => hw))))

theorem hbmPpr_keeps {r s : State} {key} {rows} (h : Keeps r s) :
    Keeps r (hbmPpr key rows s) := by
  delta hbmPpr
  exact (cmdDone_keeps (setBst_keeps h))

theorem execBistRunComplete_keeps {r s : State} {t} {readBackOk} {fails} {rows} (h : Keeps r s) :
    KeepsO r (execBistRunComplete t readBackOk fails rows s) := by
  delta execBistRunComplete
  exact (by
    (try dsimp only)
    split
    · exact (KeepsO.next (at_keeps h))
    · exact (KeepsO.ite (KeepsO.next (fuseRepair_keeps (at_keeps h))) (KeepsO.ite (KeepsO.next (hbmPpr_keeps
        (at_keeps h))) (KeepsO.next (destructiveEnds_keeps (at_keeps h)))))
  )

theorem bistResultBody_keeps {r s : State} {rq} (h : Keeps r s) :
    Keeps r (bistResultBody rq s).1 := by
  delta bistResultBody
  exact (Keeps.ite1 (deny_keeps h) (Keeps.fst h))

theorem execBistResult_keeps {r s : State} {t} {rq} (h : Keeps r s) :
    KeepsO r (execBistResult t rq s) := by
  delta execBistResult
  exact (KeepsO.next (serve_keeps (at_keeps h) (fun _ _ h1 => (bistResultBody_keeps h1))))

theorem execStarvationExpiry_keeps {r s : State} {t} {activity} (h : Keeps r s) :
    KeepsO r (execStarvationExpiry t activity s) := by
  delta execStarvationExpiry
  exact (by
    (try dsimp only)
    split
    · exact (KeepsO.next (starveTick_keeps (at_keeps h)))
    · exact (KeepsO.ite (KeepsO.next (starveTick_keeps (at_keeps h))) (KeepsO.next (portSlots_keeps (setBst_keeps
        (starveTick_keeps (at_keeps h))))))
  )

/-! ## Machine/Commit.lean -/

theorem commitRejected_keeps {r s : State} {r0} (h : Keeps r s) :
    Keeps r (commitRejected r0 s).1 := by
  delta commitRejected
  exact (Keeps.fst (setCmp_keeps h))

theorem commitArm_keeps {r s : State} {f} {frames} {inBarrier} (h : Keeps r s) :
    Keeps r (commitArm f frames inBarrier s) := by
  delta commitArm
  exact (setCmp_keeps (forEng_keeps (forEng_keeps h (fun _ _ h2 => (Keeps.ite (gamutValidated_keeps h2) h2))) (fun _
      _ h1 => (sheafValidated_keeps h1))))

theorem commitLocal_keeps {r s : State} {rq} (h : Keeps r s) :
    Keeps r (commitLocal rq s).1 := by
  delta commitLocal
  exact (by
    (try dsimp only)
    split
    · exact (Keeps.fst h)
    · exact (Keeps.ite1 (deny_keeps h) (by
      split
      · exact (commitRejected_keeps h)
      · exact (Keeps.fst (commitArm_keeps h))
    ))
  )

theorem commitApply_keeps {r s : State} {x} {f} (h : Keeps r s) :
    Keeps r (commitApply x f s) := by
  delta commitApply
  exact (raise_keeps (Keeps.fold (forEng_keeps (forEng_keeps (forEng_keeps (Keeps.mk' h fun hw => hw) (fun _ _ h3 =>
      (Keeps.ite (warpApply_keeps h3) h3))) (fun _ _ h2 => (Keeps.ite (gamutApply_keeps h2) h2))) (fun _ _ h1 =>
      (sheafApply_keeps h1))) (fun _ _ h4 => (Keeps.ite (loopApply_keeps h4) h4))))

theorem commitFrame_keeps {r s : State} (h : Keeps r s) :
    Keeps r (commitFrame s) := by
  delta commitFrame
  exact (by
    split
    · exact (Keeps.ite (commitApply_keeps h) h)
    · exact h
  )

theorem commitStatusBody_keeps {r s : State} {x1} (h : Keeps r s) :
    Keeps r (commitStatusBody x1 s).1 := by
  delta commitStatusBody
  exact (Keeps.fst h)

theorem execCommitStatus_keeps {r s : State} {t} {rq} (h : Keeps r s) :
    KeepsO r (execCommitStatus t rq s) := by
  delta execCommitStatus
  exact (KeepsO.next (serve_keeps (at_keeps h) (fun _ _ h1 => (commitStatusBody_keeps h1))))

/-! ## Machine/Brugo.lean -/

theorem setPort_keeps {r s : State} {p} {f} (h : Keeps r s) :
    Keeps r (setPort p f s) := by
  delta setPort
  exact (setBrg_keeps h)

theorem sendMsg_keeps {r s : State} {m} (h : Keeps r s) :
    Keeps r (sendMsg m s) := by
  delta sendMsg
  exact (setBrg_keeps h)

theorem ackSettles_keeps {r s : State} {f} (h : Keeps r s) :
    Keeps r (ackSettles f s) := by
  delta ackSettles
  exact (setPort_keeps h)

theorem forwardFlit_keeps {r s : State} {f} (h : Keeps r s) :
    Keeps r (forwardFlit f s) := by
  delta forwardFlit
  exact (Keeps.ite (setBrg_keeps h) h)

theorem receive_keeps {r s : State} {open'} {f} {act} (h : Keeps r s) (hact : ∀ x, Keeps r x → Keeps r (act x)) :
    Keeps r (receive open' f act s) := by
  delta receive
  exact (Keeps.ite h (Keeps.ite (ackSettles_keeps h) (Keeps.ite (hact _ (forwardFlit_keeps (setBrg_keeps
      (ackSettles_keeps h)))) (forwardFlit_keeps (setBrg_keeps (ackSettles_keeps h))))))

theorem portsJudge_keeps {r s : State} (h : Keeps r s) :
    Keeps r (portsJudge s) := by
  delta portsJudge
  exact (Keeps.ite (by
    (try dsimp only)
    split
    · exact (setBrg_keeps h)
    · exact (setBrg_keeps h)
    · exact (setBrg_keeps h)
    · exact (setBrg_keeps h)
  ) h)

theorem capEvents_keeps {r s : State} (h : Keeps r s) :
    Keeps r (capEvents s) := by
  delta capEvents
  exact (Keeps.ite (Keeps.mk' (raise_keeps h) fun hw => hw) h)

theorem managerLost_keeps {r s : State} (h : Keeps r s) :
    Keeps r (managerLost s) := by
  delta managerLost
  exact (Keeps.ite h (capEvents_keeps (Keeps.ite (loseRef_keeps (raise_keeps (setBrg_keeps h))) (raise_keeps
      (setBrg_keeps h)))))

theorem portDown_keeps {r s : State} {p} (h : Keeps r s) :
    Keeps r (portDown p s) := by
  delta portDown
  exact (Keeps.ite h (Keeps.ite (managerLost_keeps (portsJudge_keeps (raise_keeps (setPort_keeps h)))) (Keeps.ite
      (setBrg_keeps (portsJudge_keeps (raise_keeps (setPort_keeps h)))) (portsJudge_keeps (raise_keeps (setPort_keeps
      h))))))

theorem portsFollow_keeps {r s : State} (h : Keeps r s) :
    Keeps r (portsFollow s) := by
  delta portsFollow
  exact (portsJudge_keeps (Keeps.ite (Keeps.ite h (Keeps.ite (setPort_keeps h) (Keeps.ite (setPort_keeps h) h)))
      (Keeps.ite (setPort_keeps (Keeps.ite h (Keeps.ite (setPort_keeps h) (Keeps.ite (setPort_keeps h) h))))
      (Keeps.ite (setPort_keeps (Keeps.ite h (Keeps.ite (setPort_keeps h) (Keeps.ite (setPort_keeps h) h))))
      (Keeps.ite h (Keeps.ite (setPort_keeps h) (Keeps.ite (setPort_keeps h) h)))))))

theorem execBrugoPortUp_keeps {r s : State} {t} {port} (h : Keeps r s) :
    KeepsO r (execBrugoPortUp t port s) := by
  delta execBrugoPortUp
  exact (KeepsO.ite (KeepsO.next (portsJudge_keeps (sendMsg_keeps (setPort_keeps (at_keeps h))))) (KeepsO.next
      (at_keeps h)))

theorem execBrugoPortSilence_keeps {r s : State} {t} {port} (h : Keeps r s) :
    KeepsO r (execBrugoPortSilence t port s) := by
  delta execBrugoPortSilence
  exact (KeepsO.next (portDown_keeps (at_keeps h)))

theorem execBrugoCodewordLockLoss_keeps {r s : State} {t} {port} (h : Keeps r s) :
    KeepsO r (execBrugoCodewordLockLoss t port s) := by
  delta execBrugoCodewordLockLoss
  exact (KeepsO.next (portDown_keeps (at_keeps h)))

theorem execFlitResendTimeout_keeps {r s : State} {t} {port} {seq} (h : Keeps r s) :
    KeepsO r (execFlitResendTimeout t port seq s) := by
  delta execFlitResendTimeout
  exact (KeepsO.ite (KeepsO.next (at_keeps h)) (KeepsO.ite (KeepsO.next (portDown_keeps (at_keeps h))) (KeepsO.next
      (setPort_keeps (at_keeps h)))))

theorem enumManager_keeps {r s : State} {f} {en} (h : Keeps r s) :
    Keeps r (enumManager f en s) := by
  delta enumManager
  exact (Keeps.ite (raise_keeps (setPort_keeps h)) (raiseIf_keeps (by
    (try dsimp only)
    split
    · exact (sendMsg_keeps (setBrg_keeps h))
    · exact (by
      split
      · exact (sendMsg_keeps (setBrg_keeps h))
      · exact h
    )
  )))

theorem enumWorker_keeps {r s : State} {f} {en} (h : Keeps r s) :
    Keeps r (enumWorker f en s) := by
  delta enumWorker
  exact (Keeps.ite h (portsJudge_keeps (setPort_keeps (setBrg_keeps h))))

theorem execEnumReceive_keeps {r s : State} {t} {f} {en} (h : Keeps r s) :
    KeepsO r (execEnumReceive t f en s) := by
  delta execEnumReceive
  exact (KeepsO.next (receive_keeps (at_keeps h) (fun _ h1 => (Keeps.ite (enumManager_keeps h1) (enumWorker_keeps
      h1)))))

theorem shareApply_keeps {r s : State} {v} (h : Keeps r s) :
    Keeps r (shareApply v s) := by
  delta shareApply
  exact (setBrg_keeps (by
    split
    · exact (Keeps.ite h (setLightLevel_keeps h))
    · exact h
  ))

theorem markTime_keeps {r s : State} {edge : Time} (h : Keeps r s) :
    Keeps r { refEdge .frame { s with now := edge } with now := s.now } := by
  have k : Keeps { s with now := edge } (refEdge .frame { s with now := edge }) := refEdge_keeps (Keeps.refl _)
  exact ⟨k.pending.trans h.pending, h.now, h.otp.trans k.otp, fun w => k.hbm (h.hbm w)⟩

theorem markAccept_keeps {r s : State} {f} {tm} (h : Keeps r s) : Keeps r (markAccept f tm s) := by
  delta markAccept
  exact Keeps.ite (shareApply_keeps (setBrg_keeps (markTime_keeps h))) (setBrg_keeps (markTime_keeps h))

theorem execTimeMarkReceive_keeps {r s : State} {t} {f} {tm} (h : Keeps r s) :
    KeepsO r (execTimeMarkReceive t f tm s) := by
  delta execTimeMarkReceive
  exact (KeepsO.next (receive_keeps (at_keeps h) (fun _ h1 => (Keeps.ite (markAccept_keeps h1) h1))))

theorem execRefclkMismatchCount_keeps {r s : State} {t} (h : Keeps r s) :
    KeepsO r (execRefclkMismatchCount t s) := by
  delta execRefclkMismatchCount
  exact (KeepsO.ite (KeepsO.next (managerLost_keeps (raise_keeps (setBrg_keeps (at_keeps h))))) (KeepsO.next
      (at_keeps h)))

theorem execDelayReqReceive_keeps {r s : State} {t} {port} {t1} (h : Keeps r s) :
    KeepsO r (execDelayReqReceive t port t1 s) := by
  delta execDelayReqReceive
  exact (KeepsO.next (Keeps.ite (sendMsg_keeps (at_keeps h)) (at_keeps h)))

theorem execDelayRespReceive_keeps {r s : State} {t} {port} {t2} {t3} (h : Keeps r s) :
    KeepsO r (execDelayRespReceive t port t2 t3 s) := by
  delta execDelayRespReceive
  exact (by
    (try dsimp only)
    split
    · exact (KeepsO.next (setPort_keeps (at_keeps h)))
    · exact (KeepsO.next (at_keeps h))
  )

theorem execDelayMeasureTimer_keeps {r s : State} {t} (h : Keeps r s) :
    KeepsO r (execDelayMeasureTimer t s) := by
  delta execDelayMeasureTimer
  exact (KeepsO.next (Keeps.ite (sendMsg_keeps (setPort_keeps (Keeps.ite (sendMsg_keeps (setPort_keeps (at_keeps h)))
      (at_keeps h)))) (Keeps.ite (sendMsg_keeps (setPort_keeps (at_keeps h))) (at_keeps h))))

theorem setWorker_keeps {r s : State} {n} {f} (h : Keeps r s) :
    Keeps r (setWorker n f s) := by
  delta setWorker
  exact (setBrg_keeps h)

theorem membersFollow_keeps {r s : State} (h : Keeps r s) :
    Keeps r (membersFollow s) := by
  delta membersFollow
  exact (setBrg_keeps h)

theorem dropMember_keeps {r s : State} {n} (h : Keeps r s) :
    Keeps r (dropMember n s) := by
  delta dropMember
  exact (Keeps.ite (raise_keeps (membersFollow_keeps (setWorker_keeps h))) h)

theorem statusTake_keeps {r s : State} {n} {ws} (h : Keeps r s) :
    Keeps r (statusTake n ws s) := by
  delta statusTake
  exact (by
    (try dsimp only)
    split
    · exact h
    · exact (Keeps.ite (dropMember_keeps (setWorker_keeps h)) (Keeps.ite (setWorker_keeps h) (raiseIf_keeps
        (membersFollow_keeps (setWorker_keeps (setWorker_keeps h))))))
  )

theorem execBrugoStatusReceive_keeps {r s : State} {t} {f} {ws} (h : Keeps r s) :
    KeepsO r (execBrugoStatusReceive t f ws s) := by
  delta execBrugoStatusReceive
  exact (KeepsO.next (receive_keeps (at_keeps h) (fun _ h1 => (Keeps.ite (statusTake_keeps h1) h1))))

theorem execMemberStatusTimeout_keeps {r s : State} {t} {dev} (h : Keeps r s) :
    KeepsO r (execMemberStatusTimeout t dev s) := by
  delta execMemberStatusTimeout
  exact (KeepsO.next (Keeps.ite (dropMember_keeps (at_keeps h)) (at_keeps h)))

theorem execManagerLoss_keeps {r s : State} {t} (h : Keeps r s) :
    KeepsO r (execManagerLoss t s) := by
  delta execManagerLoss
  exact (KeepsO.next (Keeps.ite (managerLost_keeps (at_keeps h)) (at_keeps h)))

theorem execBrugoCmdReceive_keeps {r s : State} {t} {f} {packet} (h : Keeps r s) :
    KeepsO r (execBrugoCmdReceive t f packet s) := by
  delta execBrugoCmdReceive
  exact (KeepsO.next (receive_keeps (at_keeps h) (fun _ h1 => (Keeps.ite (packetIn_keeps h1) h1))))

theorem replyTake_keeps {r s : State} {n} {b} (h : Keeps r s) :
    Keeps r (replyTake n b s) := by
  delta replyTake
  exact (by
    (try dsimp only)
    split
    · exact h
    · exact (Keeps.ite (finishFwd_keeps (setBrg_keeps h)) (setBrg_keeps h))
  )

theorem execBrugoReplyReceive_keeps {r s : State} {t} {f} {packet} (h : Keeps r s) :
    KeepsO r (execBrugoReplyReceive t f packet s) := by
  delta execBrugoReplyReceive
  exact (KeepsO.next (receive_keeps (at_keeps h) (fun _ h1 => (Keeps.ite (replyTake_keeps h1) h1))))

theorem fwdPush_keeps {r s : State} {n} {r0} (h : Keeps r s) :
    Keeps r (fwdPush n r0 s) := by
  delta fwdPush
  exact (by
    (try dsimp only)
    split
    · exact (Keeps.ite (setHst_keeps (raiseIf_keeps (Keeps.mk' h fun hw => hw))) (raiseIf_keeps (Keeps.mk' h fun hw
        => hw)))
    · exact (raiseIf_keeps (Keeps.mk' h fun hw => hw))
  )

theorem execBrugoEventReceive_keeps {r s : State} {t} {f} {records} (h : Keeps r s) :
    KeepsO r (execBrugoEventReceive t f records s) := by
  delta execBrugoEventReceive
  exact (KeepsO.next (receive_keeps (at_keeps h) (fun _ h1 => (Keeps.ite (Keeps.fold h1 (fun _ _ h2 => (fwdPush_keeps
      h2))) h1))))

theorem execAnvilMirrorSend_keeps {r s : State} {t} (h : Keeps r s) :
    KeepsO r (execAnvilMirrorSend t s) := by
  delta execAnvilMirrorSend
  exact (KeepsO.ite (KeepsO.next (sendMsg_keeps (setBrg_keeps (at_keeps h)))) (KeepsO.next (at_keeps h)))

theorem workerStale_keeps {r s : State} {stale} (h : Keeps r s) :
    Keeps r (workerStale stale s) := by
  delta workerStale
  exact (Keeps.ite h (judgeHolder_keeps (raiseIf_keeps (setAnv_keeps h))))

theorem mirrorTake_keeps {r s : State} {m} (h : Keeps r s) :
    Keeps r (mirrorTake m s) := by
  delta mirrorTake
  exact (workerStale_keeps (Keeps.fold (setBrg_keeps h) (fun _ _ h1 => (setFnState_keeps h1))))

theorem execAnvilMirrorReceive_keeps {r s : State} {t} {f} {m} (h : Keeps r s) :
    KeepsO r (execAnvilMirrorReceive t f m s) := by
  delta execAnvilMirrorReceive
  exact (KeepsO.next (receive_keeps (at_keeps h) (fun _ h1 => (Keeps.ite (mirrorTake_keeps h1) h1))))

theorem execMirrorMissingCount_keeps {r s : State} {t} (h : Keeps r s) :
    KeepsO r (execMirrorMissingCount t s) := by
  delta execMirrorMissingCount
  exact (KeepsO.next (Keeps.ite (workerStale_keeps (at_keeps h)) (at_keeps h)))

theorem barrierCause_keeps {r s : State} {n} {reason} {detail} (h : Keeps r s) :
    Keeps r (barrierCause n reason detail s) := by
  delta barrierCause
  exact (setBrg_keeps h)

theorem barrierCancels_keeps {r s : State} {x} (h : Keeps r s) :
    Keeps r (barrierCancels x s) := by
  delta barrierCancels
  exact (Keeps.ite (setTng_keeps (sendMsg_keeps (setBrg_keeps h))) (sendMsg_keeps (setBrg_keeps h)))

theorem barrierDecide_keeps {r s : State} (h : Keeps r s) :
    Keeps r (barrierDecide s) := by
  delta barrierDecide
  exact (by
    (try dsimp only)
    split
    · exact h
    · exact (Keeps.ite h (Keeps.ite (by
      split
      · exact (rateAccept_keeps (sendMsg_keeps (setBrg_keeps h)))
      · exact (sendMsg_keeps (setBrg_keeps h))
    ) (barrierCancels_keeps h)))
  )

theorem barrierStart_keeps {r s : State} {rq} {frames} {ramp} (h : Keeps r s) :
    Keeps r (barrierStart rq frames ramp s) := by
  delta barrierStart
  exact (Keeps.ite (barrierDecide_keeps (Keeps.fold (setBrg_keeps h) (fun _ _ h1 => (sendMsg_keeps h1)))) (Keeps.fold
      (setBrg_keeps h) (fun _ _ h2 => (sendMsg_keeps h2))))

theorem voteTake_keeps {r s : State} {n} {number} {yes} {element} {reason} (h : Keeps r s) :
    Keeps r (voteTake n number yes element reason s) := by
  delta voteTake
  exact (by
    (try dsimp only)
    split
    · exact h
    · exact (Keeps.ite h (Keeps.ite (barrierDecide_keeps (Keeps.ite (setBrg_keeps h) (Keeps.ite (barrierCause_keeps
        (setBrg_keeps h)) (barrierCause_keeps (setBrg_keeps h))))) (Keeps.ite (setBrg_keeps h) (Keeps.ite
        (barrierCause_keeps (setBrg_keeps h)) (barrierCause_keeps (setBrg_keeps h))))))
  )

theorem execBarrierVote_keeps {r s : State} {t} {f} {number} {yes} {element} {reason} (h : Keeps r s) :
    KeepsO r (execBarrierVote t f number yes element reason s) := by
  delta execBarrierVote
  exact (KeepsO.next (receive_keeps (at_keeps h) (fun _ h1 => (Keeps.ite (voteTake_keeps h1) h1))))

theorem execBarrierDecisionDeadline_keeps {r s : State} {t} (h : Keeps r s) :
    KeepsO r (execBarrierDecisionDeadline t s) := by
  delta execBarrierDecisionDeadline
  exact (by
    (try dsimp only)
    split
    · exact (KeepsO.ite (KeepsO.next (at_keeps h)) (KeepsO.next (barrierDecide_keeps (Keeps.fold (at_keeps h) (fun _
        _ h1 => (barrierCause_keeps h1))))))
    · exact (KeepsO.next (at_keeps h))
  )

theorem ackTake_keeps {r s : State} {n} {number} (h : Keeps r s) :
    Keeps r (ackTake n number s) := by
  delta ackTake
  exact (setBrg_keeps h)

theorem execBarrierAck_keeps {r s : State} {t} {f} {number} (h : Keeps r s) :
    KeepsO r (execBarrierAck t f number s) := by
  delta execBarrierAck
  exact (KeepsO.next (receive_keeps (at_keeps h) (fun _ h1 => (Keeps.ite (ackTake_keeps h1) h1))))

theorem execBarrierAckDeadline_keeps {r s : State} {t} (h : Keeps r s) :
    KeepsO r (execBarrierAckDeadline t s) := by
  delta execBarrierAckDeadline
  exact (by
    (try dsimp only)
    split
    · exact (KeepsO.ite (KeepsO.next (at_keeps h)) (KeepsO.next (Keeps.ite (Keeps.fold (Keeps.fold (at_keeps h) (fun
        _ _ h1 => (barrierCause_keeps h1))) (fun _ _ h2 => (barrierCause_keeps h2))) (barrierCancels_keeps
        (Keeps.fold (Keeps.fold (at_keeps h) (fun _ _ h3 => (barrierCause_keeps h3))) (fun _ _ h4 =>
        (barrierCause_keeps h4)))))))
    · exact (KeepsO.next (at_keeps h))
  )

theorem barrierEnds_keeps {r s : State} {x} (h : Keeps r s) :
    Keeps r (barrierEnds x s) := by
  delta barrierEnds
  exact (cmdDone_keeps (setBrg_keeps (by
    split
    · exact (setCmp_keeps (by
      split
      · exact (Keeps.ite h (Keeps.ite (commitApply_keeps h) (setCmp_keeps h)))
      · exact (Keeps.ite (setCmp_keeps h) h)
    ))
    · exact (by
      split
      · exact (Keeps.ite h (Keeps.ite (commitApply_keeps h) (setCmp_keeps h)))
      · exact (Keeps.ite (setCmp_keeps h) h)
    )
  )))

theorem prepareTake_keeps {r s : State} {number} {apply} {b} (h : Keeps r s) :
    Keeps r (prepareTake number apply b s) := by
  delta prepareTake
  exact (Keeps.ite (Keeps.ite (sendMsg_keeps h) (by
    (try dsimp only)
    split
    · exact (sendMsg_keeps h)
    · exact (sendMsg_keeps (setBrg_keeps (commitArm_keeps h)))
  )) (by
    (try dsimp only)
    split
    · exact (sendMsg_keeps h)
    · exact (sendMsg_keeps (setBrg_keeps h))
  ))

theorem execBarrierPrepare_keeps {r s : State} {t} {f} {number} {apply} {packet} (h : Keeps r s) :
    KeepsO r (execBarrierPrepare t f number apply packet s) := by
  delta execBarrierPrepare
  exact (KeepsO.next (receive_keeps (at_keeps h) (fun _ h1 => (Keeps.ite (prepareTake_keeps h1) h1))))

theorem applyTake_keeps {r s : State} {number} (h : Keeps r s) :
    Keeps r (applyTake number s) := by
  delta applyTake
  exact (by
    (try dsimp only)
    split
    · exact h
    · exact (Keeps.ite h (by
      split
      · exact (Keeps.ite (sendMsg_keeps (setBrg_keeps h)) (rateAccept_keeps (sendMsg_keeps (setBrg_keeps h))))
      · exact (sendMsg_keeps (setBrg_keeps h))
    ))
  )

theorem execBarrierApply_keeps {r s : State} {t} {f} {number} (h : Keeps r s) :
    KeepsO r (execBarrierApply t f number s) := by
  delta execBarrierApply
  exact (KeepsO.next (receive_keeps (at_keeps h) (fun _ h1 => (Keeps.ite (applyTake_keeps h1) h1))))

theorem cancelTake_keeps {r s : State} {number} (h : Keeps r s) :
    Keeps r (cancelTake number s) := by
  delta cancelTake
  exact (by
    (try dsimp only)
    split
    · exact h
    · exact (Keeps.ite h (Keeps.ite (setTng_keeps (setBrg_keeps h)) (setBrg_keeps h)))
  )

theorem execBarrierCancel_keeps {r s : State} {t} {f} {number} (h : Keeps r s) :
    KeepsO r (execBarrierCancel t f number s) := by
  delta execBarrierCancel
  exact (KeepsO.next (receive_keeps (at_keeps h) (fun _ h1 => (Keeps.ite (cancelTake_keeps h1) h1))))

theorem mineEnds_keeps {r s : State} {m} (h : Keeps r s) :
    Keeps r (mineEnds m s) := by
  delta mineEnds
  exact (Keeps.ite (Keeps.ite (setBrg_keeps h) (setTng_keeps (setBrg_keeps h))) (by
    split
    · exact (Keeps.ite (setBrg_keeps h) (Keeps.ite (commitApply_keeps (setBrg_keeps h)) (abortCommit_keeps
        (setBrg_keeps h))))
    · exact (setBrg_keeps h)
  ))

theorem brugoFrame_keeps {r s : State} (h : Keeps r s) :
    Keeps r (brugoFrame s) := by
  delta brugoFrame
  exact (setBrg_keeps (Keeps.ite (Keeps.fold (by
    split
    · exact (Keeps.ite (mineEnds_keeps (by
      split
      · exact (Keeps.ite (barrierEnds_keeps (Keeps.ite (setBrg_keeps (setBrg_keeps h)) (setBrg_keeps h))) (Keeps.ite
          (setBrg_keeps (setBrg_keeps h)) (setBrg_keeps h)))
      · exact (Keeps.ite (setBrg_keeps (setBrg_keeps h)) (setBrg_keeps h))
    )) (by
      split
      · exact (Keeps.ite (barrierEnds_keeps (Keeps.ite (setBrg_keeps (setBrg_keeps h)) (setBrg_keeps h))) (Keeps.ite
          (setBrg_keeps (setBrg_keeps h)) (setBrg_keeps h)))
      · exact (Keeps.ite (setBrg_keeps (setBrg_keeps h)) (setBrg_keeps h))
    ))
    · exact (by
      split
      · exact (Keeps.ite (barrierEnds_keeps (Keeps.ite (setBrg_keeps (setBrg_keeps h)) (setBrg_keeps h))) (Keeps.ite
          (setBrg_keeps (setBrg_keeps h)) (setBrg_keeps h)))
      · exact (Keeps.ite (setBrg_keeps (setBrg_keeps h)) (setBrg_keeps h))
    )
  ) (fun _ _ h1 => (shareApply_keeps h1))) (by
    split
    · exact (Keeps.ite (mineEnds_keeps (by
      split
      · exact (Keeps.ite (barrierEnds_keeps (Keeps.ite (setBrg_keeps (setBrg_keeps h)) (setBrg_keeps h))) (Keeps.ite
          (setBrg_keeps (setBrg_keeps h)) (setBrg_keeps h)))
      · exact (Keeps.ite (setBrg_keeps (setBrg_keeps h)) (setBrg_keeps h))
    )) (by
      split
      · exact (Keeps.ite (barrierEnds_keeps (Keeps.ite (setBrg_keeps (setBrg_keeps h)) (setBrg_keeps h))) (Keeps.ite
          (setBrg_keeps (setBrg_keeps h)) (setBrg_keeps h)))
      · exact (Keeps.ite (setBrg_keeps (setBrg_keeps h)) (setBrg_keeps h))
    ))
    · exact (by
      split
      · exact (Keeps.ite (barrierEnds_keeps (Keeps.ite (setBrg_keeps (setBrg_keeps h)) (setBrg_keeps h))) (Keeps.ite
          (setBrg_keeps (setBrg_keeps h)) (setBrg_keeps h)))
      · exact (Keeps.ite (setBrg_keeps (setBrg_keeps h)) (setBrg_keeps h))
    )
  )))

theorem brugoSends_keeps {r s : State} (h : Keeps r s) :
    Keeps r (brugoSends s) := by
  delta brugoSends
  exact (Keeps.ite (Keeps.ite (sendMsg_keeps (Keeps.ite (capEvents_keeps (setBrg_keeps h)) (setBrg_keeps
      (capEvents_keeps (setBrg_keeps h))))) (Keeps.ite (capEvents_keeps (setBrg_keeps h)) (setBrg_keeps
      (capEvents_keeps (setBrg_keeps h))))) (Keeps.ite (Keeps.ite (sendMsg_keeps (capEvents_keeps (setBrg_keeps h)))
      (Keeps.mk' (sendMsg_keeps (sendMsg_keeps (capEvents_keeps (setBrg_keeps h)))) fun hw => hw)) (capEvents_keeps
      (setBrg_keeps h))))

theorem commitForwarded_keeps {r s : State} {rq} (h : Keeps r s) :
    Keeps r (commitForwarded rq s).1 := by
  delta commitForwarded
  exact (Keeps.ite1 (deny_keeps h) (by
    (try dsimp only)
    split
    · exact (commitRejected_keeps h)
    · exact (Keeps.ite1 (commitRejected_keeps h) (Keeps.fst (barrierStart_keeps (Keeps.ite (commitArm_keeps h)
        (setCmp_keeps h)))))
  ))

theorem commitRun_keeps {r s : State} {rq} (h : Keeps r s) :
    Keeps r (commitRun rq s).1 := by
  delta commitRun
  exact (by
    split
    · exact (Keeps.fst h)
    · exact (Keeps.ite1 (commitForwarded_keeps h) (Keeps.ite1 (deny_keeps h) (commitLocal_keeps h)))
  )

theorem commitBody_keeps {r s : State} {rq} (h : Keeps r s) :
    Keeps r (commitBody rq s).1 := by
  delta commitBody
  exact (by
    split
    · exact (Keeps.fst h)
    · exact (deferrable_keeps h (fun _ _ h1 => (commitRun_keeps h1)))
  )

theorem execCommit_keeps {r s : State} {t} {rq} (h : Keeps r s) :
    KeepsO r (execCommit t rq s) := by
  delta execCommit
  exact (KeepsO.next (serve_keeps (at_keeps h) (fun _ _ h1 => (commitBody_keeps h1))))

theorem rateBody_keeps {r s : State} {rq} (h : Keeps r s) :
    Keeps r (rateBody rq s).1 := by
  delta rateBody
  exact (Keeps.ite1 (deny_keeps h) (Keeps.ite1 (deny_keeps h) (Keeps.ite1 (profileRate_keeps h) (Keeps.ite1
      (deny_keeps h) (by
    split
    · exact (deny_keeps h)
    · exact (Keeps.fst (barrierStart_keeps h))
  )))))

theorem timingProfileBody_keeps {r s : State} {rq} (h : Keeps r s) :
    Keeps r (timingProfileBody rq s).1 := by
  delta timingProfileBody
  exact (by
    split
    · exact (profileEngine_keeps h)
    · exact (rateBody_keeps h)
    · exact (profileVct_keeps h)
    · exact (deny_keeps h)
  )

theorem execTimingProfile_keeps {r s : State} {t} {rq} (h : Keeps r s) :
    KeepsO r (execTimingProfile t rq s) := by
  delta execTimingProfile
  exact (KeepsO.next (serve_keeps (at_keeps h) (fun _ _ h1 => (timingProfileBody_keeps h1))))

/-! ## Machine/Security.lean -/

theorem identifyBody_keeps {r s : State} {rq} (h : Keeps r s) :
    Keeps r (identifyBody rq s).1 := by
  delta identifyBody
  exact (by
    split
    · exact (Keeps.fst h)
    · exact (Keeps.fst h)
    · exact (Keeps.fst h)
    · exact (deny_keeps h)
  )

theorem execIdentify_keeps {r s : State} {t} {rq} (h : Keeps r s) :
    KeepsO r (execIdentify t rq s) := by
  delta execIdentify
  exact (KeepsO.next (serve_keeps (at_keeps h) (fun _ _ h1 => (identifyBody_keeps h1))))

theorem attestChallengeBody_keeps {r s : State} {rq} (h : Keeps r s) :
    Keeps r (attestChallengeBody rq s).1 := by
  delta attestChallengeBody
  exact (Keeps.fst (Keeps.mk' h fun hw => hw))

theorem execAttestChallenge_keeps {r s : State} {t} {rq} (h : Keeps r s) :
    KeepsO r (execAttestChallenge t rq s) := by
  delta execAttestChallenge
  exact (KeepsO.next (serve_keeps (at_keeps h) (fun _ _ h1 => (attestChallengeBody_keeps h1))))

theorem lifecycleAdvanceBody_keeps {r s : State} {rq} (h : Keeps r s) :
    Keeps r (lifecycleAdvanceBody rq s).1 := by
  delta lifecycleAdvanceBody
  exact (Keeps.ite1 (deny_keeps h) (Keeps.ite1 (deny_keeps h) (Keeps.ite1 (deny_keeps h) (Keeps.ite1 (deny_keeps h)
      (by
    split
    · exact (deny_keeps h)
    · exact (Keeps.fst (setSec_keeps h))
  )))))

theorem execLifecycleAdvance_keeps {r s : State} {t} {rq} (h : Keeps r s) :
    KeepsO r (execLifecycleAdvance t rq s) := by
  delta execLifecycleAdvance
  exact (KeepsO.next (serve_keeps (at_keeps h) (fun _ _ h1 => (lifecycleAdvanceBody_keeps h1))))

theorem setSlots_kept {code : Nat} {e : Fin 4} {l : List OtpSlot} {o : Otp} : OtpKept o (setSlots code e l o) := by
  unfold setSlots
  split <;> exact ⟨rfl, fun _ => BitVec.and_self, Nat.le_refl _, Nat.le_refl _⟩

theorem partWord_kept {old : Word} {s : State} : old &&& partWord old s = old := by
  unfold partWord
  dsimp only
  split
  · exact BitVec.and_self
  · ext i
    simp only [BitVec.getElem_and, BitVec.getElem_or]
    cases old[i] <;> simp

theorem limitedSettingWriteBody_keeps {r s : State} {rq} (h : Keeps r s) :
    Keeps r (limitedSettingWriteBody rq s).1 := by
  delta limitedSettingWriteBody
  exact (Keeps.ite1 (deny_keeps h) (Keeps.ite1 (deny_keeps h) (Keeps.ite1 (deny_keeps h) (Keeps.ite1 (deny_keeps h)
      (Keeps.ite1 (deny_keeps h) (by
    (try dsimp only)
    split
    · exact (deny_keeps h)
    · exact (Keeps.fst (setSec_keeps (Keeps.mkOtp h setSlots_kept fun hw => hw)))
  ))))))

theorem execLimitedSettingWrite_keeps {r s : State} {t} {rq} (h : Keeps r s) :
    KeepsO r (execLimitedSettingWrite t rq s) := by
  delta execLimitedSettingWrite
  exact (KeepsO.next (serve_keeps (at_keeps h) (fun _ _ h1 => (limitedSettingWriteBody_keeps h1))))

theorem settingWritten_keeps {r s : State} {key} {code} {e} {v} {ok} (h : Keeps r s) :
    Keeps r (settingWritten key code e v ok s) := by
  delta settingWritten
  exact (Keeps.ite (cmdDone_keeps (Keeps.ite (setAnv_keeps (Keeps.mkOtp h setSlots_kept fun hw => hw)) (Keeps.mkOtp h
      setSlots_kept fun hw => hw))) (cmdDone_keeps (raise_keeps h)))

theorem lifecycleWritten_keeps {r s : State} {key} {target} {ok} (h : Keeps r s) :
    Keeps r (lifecycleWritten key target ok s) := by
  delta lifecycleWritten
  exact (Keeps.ite (raise_keeps (cmdDone_keeps (Keeps.mkOtp (setHth_keeps h) (OtpKept.word rfl rfl rfl rfl
      BitVec.and_allOnes) fun hw => hw))) (cmdDone_keeps (Keeps.mkOtp (fresh_keeps (setHth_keeps h)) (OtpKept.word
      rfl rfl rfl rfl partWord_kept) fun hw => hw)))

theorem execOtpWriteComplete_keeps {r s : State} {t} {readBackOk} (h : Keeps r s) :
    KeepsO r (execOtpWriteComplete t readBackOk s) := by
  delta execOtpWriteComplete
  exact (by
    (try dsimp only)
    split
    · exact (KeepsO.next (at_keeps h))
    · exact (KeepsO.next (settingWritten_keeps (setSec_keeps (at_keeps h))))
    · exact (KeepsO.next (lifecycleWritten_keeps (setSec_keeps (at_keeps h))))
  )

theorem slotInvalid_keeps {r s : State} {image} (h : Keeps r s) :
    Keeps r (slotInvalid image s) := by
  delta slotInvalid
  exact (Keeps.mk' h fun hw => hw)

theorem imageSegment_keeps {r s : State} {rq} (h : Keeps r s) :
    Keeps r (imageSegment rq s).1 := by
  delta imageSegment
  exact (by
    (try dsimp only)
    split
    · exact (deny_keeps h)
    · exact (Keeps.ite1 (deny_keeps h) (by
      split
      · exact (deny_keeps h)
      · exact (Keeps.fst (Keeps.ite (slotInvalid_keeps (setSec_keeps h)) (setSec_keeps h)))
    ))
  )

theorem captureBody_keeps {r s : State} {rq} (h : Keeps r s) :
    Keeps r (captureBody rq s).1 := by
  delta captureBody
  exact (Keeps.ite1 (deny_keeps h) (Keeps.ite1 (Keeps.fst h) (by
    split
    · exact (deny_keeps h)
    · exact (Keeps.fst (setSec_keeps h))
  )))

theorem firmwareLoadBody_keeps {r s : State} {rq} (h : Keeps r s) :
    Keeps r (firmwareLoadBody rq s).1 := by
  delta firmwareLoadBody
  exact (Keeps.ite1 (deny_keeps h) (Keeps.ite1 (captureBody_keeps h) (imageSegment_keeps h)))

theorem execFirmwareLoad_keeps {r s : State} {t} {rq} (h : Keeps r s) :
    KeepsO r (execFirmwareLoad t rq s) := by
  delta execFirmwareLoad
  exact (KeepsO.next (serve_keeps (at_keeps h) (fun _ _ h1 => (firmwareLoadBody_keeps h1))))

theorem linkTopologyBody_keeps {r s : State} {rq} (h : Keeps r s) :
    Keeps r (linkTopologyBody rq s).1 := by
  delta linkTopologyBody
  exact (Keeps.ite1 (deny_keeps h) (by
    (try dsimp only)
    split
    · exact (deny_keeps h)
    · exact (Keeps.fst (setSec_keeps h))
  ))

theorem execLinkTopology_keeps {r s : State} {t} {rq} (h : Keeps r s) :
    KeepsO r (execLinkTopology t rq s) := by
  delta execLinkTopology
  exact (KeepsO.next (serve_keeps (at_keeps h) (fun _ _ h1 => (linkTopologyBody_keeps h1))))

theorem imagePending_keeps {r s : State} {l} {v} {anvil} (h : Keeps r s) :
    Keeps r (imagePending l v anvil s) := by
  delta imagePending
  exact (Keeps.mk' h fun hw => hw)

theorem segmentWritten_keeps {r s : State} {key} {l} {last} {ok} {v} {anvil} (h : Keeps r s) :
    Keeps r (segmentWritten key l last ok v anvil s) := by
  delta segmentWritten
  exact (Keeps.ite (cmdDone_keeps h) (Keeps.ite (cmdDone_keeps (setSec_keeps h)) (Keeps.ite (cmdDone_keeps
      (imagePending_keeps (setSec_keeps h))) (cmdDone_keeps (raiseIf_keeps (raise_keeps (slotInvalid_keeps
      (setSec_keeps h))))))))

theorem captureWritten_keeps {r s : State} {key} {r0} {h0} {ok} (h : Keeps r s) :
    Keeps r (captureWritten key r0 h0 ok s) := by
  delta captureWritten
  exact (Keeps.ite (cmdDone_keeps (Keeps.mk' h fun hw => hw)) (cmdDone_keeps (Keeps.mk' h fun hw => hw)))

theorem execBootFlashWriteComplete_keeps {r s : State} {t} {readBackOk} {v} {anvil} (h : Keeps r s) :
    KeepsO r (execBootFlashWriteComplete t readBackOk v anvil s) := by
  delta execBootFlashWriteComplete
  exact (by
    (try dsimp only)
    split
    · exact (KeepsO.next (at_keeps h))
    · exact (KeepsO.next (segmentWritten_keeps (setSec_keeps (at_keeps h))))
    · exact (KeepsO.next (captureWritten_keeps (setSec_keeps (at_keeps h))))
    · exact (KeepsO.next (Keeps.ite (cmdDone_keeps (Keeps.mk' (setSec_keeps (at_keeps h)) fun hw => hw))
        (cmdDone_keeps (setSec_keeps (at_keeps h)))))
  )

theorem svnRaise_keeps {r s : State} (h : Keeps r s) :
    Keeps r (svnRaise s) := by
  delta svnRaise
  exact (setSec_keeps (Keeps.mkOtp h ⟨rfl, fun _ => BitVec.and_self, le_ite_max, le_ite_max⟩ fun hw => hw))

theorem svnLater_keeps {r s : State} (h : Keeps r s) :
    Keeps r (svnLater s) := by
  delta svnLater
  exact (setSec_keeps h)

theorem activate_keeps {r s : State} (h : Keeps r s) :
    Keeps r (activate s) := by
  delta activate
  exact (setSec_keeps (Keeps.mk' h fun hw => hw))

theorem execFirmwareActivation_keeps {r s : State} {t} (h : Keeps r s) :
    KeepsO r (execFirmwareActivation t s) := by
  delta execFirmwareActivation
  exact (KeepsO.ite (KeepsO.next (Keeps.ite (svnLater_keeps (activate_keeps (at_keeps h))) (svnRaise_keeps
      (activate_keeps (at_keeps h))))) (KeepsO.next (at_keeps h)))

theorem execSvnMinWriteRetry_keeps {r s : State} {t} {readBackOk} (h : Keeps r s) :
    KeepsO r (execSvnMinWriteRetry t readBackOk s) := by
  delta execSvnMinWriteRetry
  exact (by
    (try dsimp only)
    split
    · exact (KeepsO.ite (KeepsO.next (at_keeps h)) (KeepsO.ite (KeepsO.next (svnLater_keeps (at_keeps h)))
        (KeepsO.next (svnRaise_keeps (at_keeps h)))))
    · exact (KeepsO.next (at_keeps h))
  )

/-! ## Machine/Params.lean -/

theorem readDp_keeps {r s : State} {i} (h : Keeps r s) :
    Keeps r (readDp i s).2 := by
  delta readDp
  exact (Keeps.ite2 (Keeps.snd h) (Keeps.ite2 (Keeps.snd h) (Keeps.snd (fresh_keeps h))))

theorem paramRead_keeps' {r s : State} {id v : Nat} {s1 : State} (h : Keeps r s) (e : paramRead id s = some (v, s1)) :
    Keeps r s1 := by
  unfold paramRead at e
  split at e
  · injection e with e
    have : Keeps r (readDp (Fin.ofNat 2 (id - 0x0301)) s).2 := readDp_keeps h
    rw [e] at this
    exact this
  · split at e
    · injection e with e
      injection e with _ e
      exact e ▸ Keeps.ite (selAdvance_keeps h) h
    · cases e

theorem paramReads_keeps {r s : State} {l : List Nat} {i : Nat} {b : List Byte} {s1 : State} (h : Keeps r s)
    (e : paramReads s l i = .inl (b, s1)) : Keeps r s1 := by
  induction l generalizing s i b s1 with
  | nil => injection e with e; injection e with _ e; exact e ▸ h
  | cons id l ih =>
    unfold paramReads at e
    split at e
    · cases e
    · split at e
      · injection e with e; injection e with _ e
        exact e ▸ ih (paramRead_keeps' h ‹_›) ‹_›
      · cases e

theorem paramReadBody_keeps {r s : State} {rq : Req} (h : Keeps r s) : Keeps r (paramReadBody rq s).1 := by
  unfold paramReadBody
  dsimp only
  split
  · exact paramReads_keeps h ‹_›
  · exact h

theorem execParamRead_keeps {r s : State} {t} {rq} (h : Keeps r s) :
    KeepsO r (execParamRead t rq s) := by
  delta execParamRead
  exact (KeepsO.next (serve_keeps (at_keeps h) (fun _ _ h1 => (paramReadBody_keeps h1))))

/-! ## Machine/Matrix.lean -/

theorem setMtx_keeps {r s : State} {f} (h : Keeps r s) :
    Keeps r (setMtx f s) := by
  delta setMtx
  exact (Keeps.mk' h fun hw => hw)

theorem execMatrixFrameStart_keeps {r s : State} {t} (h : Keeps r s) :
    KeepsO r (execMatrixFrameStart t s) := by
  delta execMatrixFrameStart
  exact (KeepsO.ite (KeepsO.next (at_keeps h)) (KeepsO.next (setMtx_keeps (at_keeps h))))

theorem confirmFault_keeps {r s : State} {led} {short} (h : Keeps r s) :
    Keeps r (confirmFault led short s) := by
  delta confirmFault
  exact (by
    (try dsimp only)
    split
    · exact (Keeps.ite (Keeps.ite (setMtx_keeps h) (raise_keeps (setMtx_keeps (setMtx_keeps h)))) (raise_keeps
        (setMtx_keeps h)))
    · exact (setMtx_keeps h)
  )

theorem diagnose_keeps {r s : State} {led} {volt} {rowSupply} (h : Keeps r s) :
    Keeps r (diagnose led volt rowSupply s) := by
  delta diagnose
  exact (Keeps.ite (confirmFault_keeps (setMtx_keeps h)) (Keeps.ite (confirmFault_keeps (setMtx_keeps h))
      (setMtx_keeps h)))

theorem execMatrixRowSlot_keeps {r s : State} {t} {row} {volts} {rowSupply} (h : Keeps r s) :
    KeepsO r (execMatrixRowSlot t row volts rowSupply s) := by
  delta execMatrixRowSlot
  exact (KeepsO.ite (KeepsO.next (at_keeps h)) (KeepsO.next (Keeps.fold (setMtx_keeps (at_keeps h)) (fun _ _ h1 =>
      (diagnose_keeps h1)))))

theorem execColumnOvervoltageCount_keeps {r s : State} {t} {row} {col} (h : Keeps r s) :
    KeepsO r (execColumnOvervoltageCount t row col s) := by
  delta execColumnOvervoltageCount
  exact (KeepsO.ite (KeepsO.next (at_keeps h)) (KeepsO.next (raise_keeps (setMtx_keeps (at_keeps h)))))

theorem setLamp_keeps {r s : State} {i} {f} (h : Keeps r s) :
    Keeps r (setLamp i f s) := by
  delta setLamp
  exact (setMtx_keeps h)

theorem lampFunctionSetBody_keeps {r s : State} {rq} (h : Keeps r s) :
    Keeps r (lampFunctionSetBody rq s).1 := by
  delta lampFunctionSetBody
  exact (Keeps.ite1 (deny_keeps h) (Keeps.ite1 (deny_keeps h) (Keeps.ite1 (deny_keeps h) (Keeps.fst (setLamp_keeps
      h)))))

theorem execLampFunctionSet_keeps {r s : State} {t} {rq} (h : Keeps r s) :
    KeepsO r (execLampFunctionSet t rq s) := by
  delta execLampFunctionSet
  exact (KeepsO.next (serve_keeps (at_keeps h) (fun _ _ h1 => (lampFunctionSetBody_keeps h1))))

/-! ## Machine/ParamWrite.lean -/

theorem no_keeps {r s : State} {st} (h : Keeps r s) :
    Keeps r (no st s).2 := by
  delta no
  exact (Keeps.snd h)

theorem yes_keeps {r s : State} (h : Keeps r s) :
    Keeps r (yes s).2 := by
  delta yes
  exact (Keeps.snd h)

theorem okIf_keeps {r new s : State} {c} (hnew : Keeps r new) (hs : Keeps r s) :
    Keeps r (okIf c new s).2 := by
  delta okIf
  exact (Keeps.ite2 (Keeps.snd hnew) (Keeps.snd hs))

theorem clears_keeps {r new s : State} {v} (hnew : Keeps r new) (hs : Keeps r s) :
    Keeps r (clears v new s).2 := by
  delta clears
  exact (okIf_keeps hnew hs)

theorem writeCan_keeps {r s : State} {i} {v} (h : Keeps r s) :
    Keeps r (writeCan i v s).2 := by
  delta writeCan
  exact (okIf_keeps (setHth_keeps h) h)

theorem writeHth_keeps {r s : State} {id} {v} (h : Keeps r s) :
    Keeps r (writeHth id v s).2 := by
  delta writeHth
  exact (Keeps.ite2 (okIf_keeps (setHth_keeps h) h) (Keeps.ite2 (okIf_keeps (setHth_keeps h) h) (Keeps.ite2
      (writeCan_keeps h) (Keeps.ite2 (okIf_keeps (setMtx_keeps h) h) (no_keeps h)))))

theorem writeDptx_keeps {r s : State} {v} (h : Keeps r s) :
    Keeps r (writeDptx v s).2 := by
  delta writeDptx
  exact (Keeps.ite2 (no_keeps h) (Keeps.ite2 (no_keeps h) (Keeps.ite2 (yes_keeps (Keeps.mk' h fun hw => hw)) (by
    (try dsimp only)
    split
    · exact (no_keeps h)
    · exact (no_keeps h)
    · exact (Keeps.ite2 (yes_keeps (mirrorEnable_keeps (Keeps.mk' (Keeps.mk' h fun hw => hw) fun hw => hw)))
        (no_keeps h))
  ))))

theorem writeIng_keeps {r s : State} {id} {v} (h : Keeps r s) :
    Keeps r (writeIng id v s).2 := by
  delta writeIng
  exact (Keeps.ite2 (okIf_keeps (Keeps.mk' h fun hw => hw) h) (Keeps.ite2 (writeDptx_keeps h) (Keeps.ite2 (Keeps.ite2
      (no_keeps h) (Keeps.ite2 (no_keeps h) (Keeps.ite2 (yes_keeps (Keeps.mk' h fun hw => hw)) (yes_keeps (Keeps.mk'
      h fun hw => hw))))) (Keeps.ite2 (okIf_keeps (Keeps.mk' h fun hw => hw) h) (Keeps.ite2 (okIf_keeps (Keeps.mk' h
      fun hw => hw) h) (no_keeps h))))))

theorem writeCmp_keeps {r s : State} {id} {v} (h : Keeps r s) :
    Keeps r (writeCmp id v s).2 := by
  delta writeCmp
  exact (Keeps.ite2 (okIf_keeps (setCmp_keeps h) h) (Keeps.ite2 (clears_keeps (setCmp_keeps h) h) (Keeps.ite2
      (yes_keeps (writeFence_keeps h)) (no_keeps h))))

theorem writeAnv_keeps {r s : State} {id} {v} (h : Keeps r s) :
    Keeps r (writeAnv id v s).2 := by
  delta writeAnv
  exact (Keeps.ite2 (no_keeps h) (Keeps.ite2 (no_keeps h) (Keeps.ite2 (okIf_keeps (setAnv_keeps h) h) (Keeps.ite2
      (okIf_keeps (setAnv_keeps h) h) (Keeps.ite2 (okIf_keeps (setAnv_keeps h) h) (okIf_keeps (setAnv_keeps h) h))))))

theorem writeClw_keeps {r s : State} {id} {v} (h : Keeps r s) :
    Keeps r (writeClw id v s).2 := by
  delta writeClw
  exact (Keeps.ite2 (okIf_keeps (setClw_keeps h) h) (Keeps.ite2 (okIf_keeps (setClw_keeps h) h) (Keeps.ite2
      (okIf_keeps (setClw_keeps h) h) (no_keeps h))))

theorem writeThr_keeps {r s : State} {id} {v} (h : Keeps r s) :
    Keeps r (writeThr id v s).2 := by
  delta writeThr
  exact (Keeps.ite2 (Keeps.ite2 (no_keeps h) (Keeps.ite2 (no_keeps h) (yes_keeps (setThr_keeps h)))) (Keeps.ite2
      (okIf_keeps (setThrE_keeps h) h) (Keeps.ite2 (okIf_keeps (setThrE_keeps h) h) (Keeps.ite2 (okIf_keeps
      (setThr_keeps h) h) (Keeps.ite2 (clears_keeps (setThrE_keeps h) h) (Keeps.ite2 (clears_keeps (setThrE_keeps h)
      h) (no_keeps h)))))))

theorem writeSwtConfig_keeps {r s : State} {e} {v} (h : Keeps r s) :
    Keeps r (writeSwtConfig e v s).2 := by
  delta writeSwtConfig
  exact (Keeps.ite2 (no_keeps h) (Keeps.ite2 (no_keeps h) (Keeps.ite2 (no_keeps h) (Keeps.ite2 (swtRetryWrite_keeps
      (setSwt_keeps h)) (yes_keeps (setSwt_keeps h))))))

theorem writeSwt_keeps {r s : State} {id} {v} (h : Keeps r s) :
    Keeps r (writeSwt id v s).2 := by
  delta writeSwt
  exact (Keeps.ite2 (writeSwtConfig_keeps h) (Keeps.ite2 (clears_keeps (setSwt_keeps h) h) (Keeps.ite2 (clears_keeps
      (setSwt_keeps h) h) (no_keeps h))))

theorem writeScnConfig_keeps {r s : State} {e} {v} (h : Keeps r s) :
    Keeps r (writeScnConfig e v s).2 := by
  delta writeScnConfig
  exact (Keeps.ite2 (no_keeps h) (yes_keeps (Keeps.ite (scanRestart_keeps (setScn_keeps h)) (setScn_keeps h))))

theorem writeScnGeometry_keeps {r s : State} {e} {hrange} {vert} (h : Keeps r s) :
    Keeps r (writeScnGeometry e hrange vert s).2 := by
  delta writeScnGeometry
  exact (by
    (try dsimp only)
    split
    · exact (no_keeps h)
    · exact (yes_keeps (Keeps.ite (scanStart_keeps (setScn_keeps h)) (setScn_keeps h)))
  )

theorem writeScn_keeps {r s : State} {id} {v} (h : Keeps r s) :
    Keeps r (writeScn id v s).2 := by
  delta writeScn
  exact (Keeps.ite2 (writeScnConfig_keeps h) (Keeps.ite2 (writeScnGeometry_keeps h) (Keeps.ite2
      (writeScnGeometry_keeps h) (Keeps.ite2 (okIf_keeps (setScn_keeps h) h) (Keeps.ite2 (okIf_keeps (setScn_keeps h)
      h) (Keeps.ite2 (okIf_keeps (setScn_keeps h) h) (Keeps.ite2 (clears_keeps (setScn_keeps h) h) (Keeps.ite2
      (clears_keeps (setScn_keeps h) h) (no_keeps h)))))))))

theorem writeChCfg_keeps {r s : State} {c} {v} (h : Keeps r s) :
    Keeps r (writeChCfg c v s).2 := by
  delta writeChCfg
  exact (Keeps.ite2 (no_keeps h) (okIf_keeps (setCh_keeps h) h))

theorem writeFrg_keeps {r s : State} {id} {v} (h : Keeps r s) :
    Keeps r (writeFrg id v s).2 := by
  delta writeFrg
  exact (Keeps.ite2 (Keeps.ite2 (yes_keeps h) (Keeps.ite2 (emitResetWrite_keeps h) (no_keeps h))) (Keeps.ite2
      (okIf_keeps (setLightLevel_keeps h) h) (Keeps.ite2 (Keeps.ite2 (no_keeps h) (okIf_keeps (setFrg_keeps h) h))
      (Keeps.ite2 (okIf_keeps (setFrgE_keeps h) h) (Keeps.ite2 (writeChCfg_keeps h) (Keeps.ite2 (okIf_keeps
      (setFrg_keeps h) h) (Keeps.ite2 (derateWrite_keeps h) (no_keeps h))))))))

theorem writeTrip_keeps {r s : State} {v} (h : Keeps r s) :
    Keeps r (writeTrip v s).2 := by
  delta writeTrip
  exact (Keeps.ite2 (no_keeps h) (Keeps.ite2 (yes_keeps (Keeps.fold h (fun _ _ h1 => (tripRelease_keeps h1))))
      (no_keeps h)))

theorem writeSrv_keeps {r s : State} {id} {v} (h : Keeps r s) :
    Keeps r (writeSrv id v s).2 := by
  delta writeSrv
  exact (Keeps.ite2 (writeTrip_keeps h) (Keeps.ite2 (Keeps.ite2 (yes_keeps (setLoop_keeps h)) (no_keeps h))
      (Keeps.ite2 (loopFlagWrite_keeps h) (Keeps.ite2 (clears_keeps (setLoop_keeps h) h) (no_keeps h)))))

theorem newReference_keeps {r s : State} {sel} (h : Keeps r s) :
    Keeps r (newReference sel s) := by
  delta newReference
  exact (setAligner_keeps h)

theorem writeTngConfig_keeps {r s : State} {v} (h : Keeps r s) :
    Keeps r (writeTngConfig v s).2 := by
  delta writeTngConfig
  exact (Keeps.ite2 (no_keeps h) (Keeps.ite2 (no_keeps h) (Keeps.ite2 (no_keeps h) (Keeps.ite2 (no_keeps h)
      (Keeps.ite2 (no_keeps h) (Keeps.ite2 (no_keeps h) (yes_keeps (Keeps.ite (setTng_keeps h) (newReference_keeps
      (setTng_keeps h))))))))))

theorem writeGrn_keeps {r s : State} {id} {v} (h : Keeps r s) :
    Keeps r (writeGrn id v s).2 := by
  delta writeGrn
  exact (by
    split
    · exact (okIf_keeps (setGrn_keeps h fun _ => rfl) h)
    · exact (clears_keeps (setGrn_keeps h fun _ => rfl) h)
    · exact (clears_keeps (setGrn_keeps h fun _ => rfl) h)
    · exact (clears_keeps (setGrn_keeps h fun _ => rfl) h)
    · exact (clears_keeps (setGrn_keeps h fun _ => rfl) h)
    · exact (no_keeps h)
  )

theorem writeTmp_keeps {r s : State} {id} {v} (h : Keeps r s) :
    Keeps r (writeTmp id v s).2 := by
  delta writeTmp
  exact (Keeps.ite2 (okIf_keeps (setTmp_keeps h) h) (Keeps.ite2 (okIf_keeps (setTmp_keeps h) h) (Keeps.ite2
      (clears_keeps (setTmp_keeps h) h) (no_keeps h))))

theorem writeBrgConfig_keeps {r s : State} {v} (h : Keeps r s) :
    Keeps r (writeBrgConfig v s).2 := by
  delta writeBrgConfig
  exact (Keeps.ite2 (no_keeps h) (Keeps.ite2 (no_keeps h) (yes_keeps (setBrg_keeps h))))

theorem writeBrg_keeps {r s : State} {id} {v} (h : Keeps r s) :
    Keeps r (writeBrg id v s).2 := by
  delta writeBrg
  exact (by
    split
    · exact (okIf_keeps (setBst_keeps h) h)
    · exact (writeBrgConfig_keeps h)
    · exact (Keeps.ite2 (no_keeps h) (okIf_keeps (setBrg_keeps h) h))
    · exact (no_keeps h)
  )

theorem writeEvt_keeps {r s : State} {id} {v} (h : Keeps r s) :
    Keeps r (writeEvt id v s).2 := by
  delta writeEvt
  exact (Keeps.ite2 (okIf_keeps (Keeps.mk' h fun hw => hw) h) (Keeps.ite2 (okIf_keeps (Keeps.mk' h fun hw => hw) h)
      (Keeps.ite2 (okIf_keeps (Keeps.mk' h fun hw => hw) h) (Keeps.ite2 (okIf_keeps (Keeps.mk' h fun hw => hw) h)
      (no_keeps h)))))

theorem paramWrite_keeps {r s : State} {id} {v} (h : Keeps r s) :
    Keeps r (paramWrite id v s).2 := by
  delta paramWrite
  exact (by
    split
    · exact (writeHth_keeps h)
    · exact (writeIng_keeps h)
    · exact (writeCmp_keeps h)
    · exact (writeAnv_keeps h)
    · exact (writeClw_keeps h)
    · exact (writeThr_keeps h)
    · exact (writeSwt_keeps h)
    · exact (writeScn_keeps h)
    · exact (writeFrg_keeps h)
    · exact (writeSrv_keeps h)
    · exact (Keeps.ite2 (writeTngConfig_keeps h) (no_keeps h))
    · exact (writeGrn_keeps h)
    · exact (Keeps.ite2 (okIf_keeps (setThm_keeps h) h) (no_keeps h))
    · exact (writeTmp_keeps h)
    · exact (writeBrg_keeps h)
    · exact (writeBrg_keeps h)
    · exact (writeEvt_keeps h)
    · exact (no_keeps h)
  )

theorem paramWrites_keeps {r s : State} {l : List (Nat × Word)} {i : Nat} {s1 : State} (h : Keeps r s)
    (e : paramWrites l i s = .inl s1) : Keeps r s1 := by
  induction l generalizing s i s1 with
  | nil => injection e with e; exact e ▸ h
  | cons x l ih =>
    unfold paramWrites at e
    split at e
    · rename_i w
      exact ih (by have k := paramWrite_keeps (id := x.1) (v := x.2) h; rw [w] at k; exact k) e
    · cases e

theorem canFollow_keeps {r s : State} {onCan} {l} (h : Keeps r s) :
    Keeps r (canFollow onCan l s) := by
  delta canFollow
  exact (Keeps.ite (setHst_keeps h) (canApply_keeps h))

theorem paramWriteBody_keeps {r s : State} {rq : Req} (h : Keeps r s) : Keeps r (paramWriteBody rq s).1 := by
  unfold paramWriteBody
  dsimp only
  split
  · exact h
  · exact canFollow_keeps (paramWrites_keeps h ‹_›)

theorem execParamWrite_keeps {r s : State} {t} {rq} (h : Keeps r s) :
    KeepsO r (execParamWrite t rq s) := by
  delta execParamWrite
  exact (KeepsO.next (serve_keeps (at_keeps h) (fun _ _ h1 => (paramWriteBody_keeps h1))))

theorem regWrite_keeps {r s : State} {id} {v} (h : Keeps r s) :
    KeepsO r (regWrite id v s) := by
  delta regWrite
  exact (KeepsO.ite (KeepsO.next (Keeps.mk' h fun hw => hw)) (KeepsO.ite (KeepsO.next (Keeps.mk' (canFollow_keeps
      (paramWrite_keeps h)) fun hw => hw)) (regAnswer_keeps h (fun _ h1 => (paramWrite_keeps h1)))))

theorem execRegisterWrite_keeps {r s : State} {t} {pid} {value} (h : Keeps r s) :
    KeepsO r (execRegisterWrite t pid value s) := by
  delta execRegisterWrite
  exact (regWrite_keeps (at_keeps h))

theorem execCounterClear_keeps {r s : State} {t} {pid} {value} (h : Keeps r s) :
    KeepsO r (execCounterClear t pid value s) := by
  delta execCounterClear
  exact (regAnswer_keeps (at_keeps h) (fun _ h1 => (Keeps.ite2 (paramWrite_keeps h1) (no_keeps h1))))

theorem execEvtLatchedClear_keeps {r s : State} {t} {group} {value} (h : Keeps r s) :
    KeepsO r (execEvtLatchedClear t group value s) := by
  delta execEvtLatchedClear
  exact (regAnswer_keeps (at_keeps h) (fun _ h1 => (Keeps.ite2 (paramWrite_keeps h1) (no_keeps h1))))

/-! ## Machine/Events.lean -/

theorem nopBody_keeps {r s : State} {x1} (h : Keeps r s) :
    Keeps r (nopBody x1 s).1 := by
  delta nopBody
  exact (Keeps.fst h)

theorem execNop_keeps {r s : State} {t} {rq} (h : Keeps r s) :
    KeepsO r (execNop t rq s) := by
  delta execNop
  exact (KeepsO.next (serve_keeps (at_keeps h) (fun _ _ h1 => (nopBody_keeps h1))))

theorem statusBody_keeps {r s : State} {x1} (h : Keeps r s) :
    Keeps r (statusBody x1 s).1 := by
  delta statusBody
  exact (Keeps.fst h)

theorem execStatus_keeps {r s : State} {t} {rq} (h : Keeps r s) :
    KeepsO r (execStatus t rq s) := by
  delta execStatus
  exact (KeepsO.next (serve_keeps (at_keeps h) (fun _ _ h1 => (statusBody_keeps h1))))

theorem eventReadBody_keeps {r s : State} {rq} (h : Keeps r s) :
    Keeps r (eventReadBody rq s).1 := by
  delta eventReadBody
  exact (Keeps.ite1 (deny_keeps h) (Keeps.ite1 (deny_keeps h) (Keeps.fst h)))

theorem execEventRead_keeps {r s : State} {t} {rq} (h : Keeps r s) :
    KeepsO r (execEventRead t rq s) := by
  delta execEventRead
  exact (KeepsO.next (serve_keeps (at_keeps h) (fun _ _ h1 => (eventReadBody_keeps h1))))

theorem eventClearBody_keeps {r s : State} {rq} (h : Keeps r s) :
    Keeps r (eventClearBody rq s).1 := by
  delta eventClearBody
  exact (by
    (try dsimp only)
    split
    · exact (denyItem_keeps h)
    · exact (Keeps.fst (Keeps.mk' h fun hw => hw))
  )

theorem execEventClear_keeps {r s : State} {t} {rq} (h : Keeps r s) :
    KeepsO r (execEventClear t rq s) := by
  delta execEventClear
  exact (KeepsO.next (serve_keeps (at_keeps h) (fun _ _ h1 => (eventClearBody_keeps h1))))

theorem eventRouteBody_keeps {r s : State} {rq} (h : Keeps r s) :
    Keeps r (eventRouteBody rq s).1 := by
  delta eventRouteBody
  exact (by
    (try dsimp only)
    split
    · exact (denyItem_keeps h)
    · exact (Keeps.fst (Keeps.mk' h fun hw => hw))
  )

theorem execEventRoute_keeps {r s : State} {t} {rq} (h : Keeps r s) :
    KeepsO r (execEventRoute t rq s) := by
  delta execEventRoute
  exact (KeepsO.next (serve_keeps (at_keeps h) (fun _ _ h1 => (eventRouteBody_keeps h1))))

theorem execEventGatherExpiry_keeps {r s : State} {t} (h : Keeps r s) :
    KeepsO r (execEventGatherExpiry t s) := by
  delta execEventGatherExpiry
  exact (by
    (try dsimp only)
    split
    · exact (KeepsO.ite (KeepsO.next (raiseIf_keeps (Keeps.mk' (at_keeps h) fun hw => hw))) (KeepsO.next (at_keeps
        h)))
    · exact (KeepsO.next (at_keeps h))
  )

/-! ## Machine/Retain.lean -/

theorem eventsLost_keeps {r s : State} (h : Keeps r s) :
    Keeps r (eventsLost s) := by
  delta eventsLost
  exact (Keeps.mk' (raiseIf_keeps h) fun hw => hw)

theorem fastLost_keeps {r s : State} (h : Keeps r s) : Keeps r (fastLost s) := Keeps.mk' h fun _ => rfl

theorem startupEvents_keeps {r s : State} {r0} (h : Keeps r s) :
    Keeps r (startupEvents r0 s) := by
  delta startupEvents
  exact (Keeps.mk' h fun hw => hw)

theorem eventReset_keeps {r s : State} (h : Keeps r s) :
    Keeps r (eventReset s) := by
  delta eventReset
  exact (by
    (try dsimp only)
    split
    · exact h
    · exact (Keeps.mk' (startupEvents_keeps h) fun hw => hw)
  )

theorem sleepEntered_keeps {r s : State} (h : Keeps r s) :
    Keeps r (sleepEntered s) := by
  delta sleepEntered
  exact (judgeHolder_keeps (setHth_keeps (fastLost_keeps (eventReset_keeps (eventsLost_keeps (pcieDown_keeps
      (journalAbandon_keeps (doneAll_keeps (dropDeferred_keeps (abortCommit_keeps h))))))))))

theorem anvReload_keeps {r s : State} (h : Keeps r s) :
    Keeps r (anvReload s) := by
  delta anvReload
  exact (by
    (try dsimp only)
    split
    · exact (raiseIf_keeps h)
    · exact (Keeps.ite (setAnv_keeps h) (judgeHolder_keeps (raise_keeps (setAnv_keeps h))))
  )

theorem loadParam_keeps {r s : State} {id} {v} (h : Keeps r s) :
    Keeps r (loadParam id v s) := by
  delta loadParam
  exact (Keeps.ite (setSwt_keeps h) (Keeps.ite (setScn_keeps h) (Keeps.ite (setScn_keeps h) (Keeps.ite (setScn_keeps
      h) (Keeps.ite (setScn_keeps h) (Keeps.ite (setScn_keeps h) (Keeps.ite (setFrg_keeps h) (Keeps.ite (setCh_keeps
      h) (Keeps.ite (setLoop_keeps h) (Keeps.ite (setTng_keeps h) (Keeps.ite (setGrn_keeps h fun _ => rfl) (Keeps.ite
      (setThm_keeps h) (Keeps.ite (setTmp_keeps h) (Keeps.ite (setTmp_keeps h) (Keeps.ite (setBst_keeps h) (Keeps.ite
      (setBrg_keeps h) (Keeps.ite (setBrg_keeps h) (Keeps.ite (Keeps.mk' h fun hw => hw) h))))))))))))))))))

theorem refRole_keeps {r s : State} (h : Keeps r s) :
    Keeps r (refRole s) := by
  delta refRole
  exact (setTng_keeps h)

theorem startupBase_keeps {r s : State} {r0} (h : Keeps r s) :
    Keeps r (startupBase r0 s) := by
  delta startupBase
  exact (Keeps.fold (startupEvents_keeps (Keeps.mk' h fun hw => hw)) (fun _ _ h1 => (loadParam_keeps h1)))

theorem startupLive_keeps {r s : State} {r0} (h : Keeps r s) :
    Keeps r (startupLive r0 s) := by
  delta startupLive
  exact (Keeps.mk' h fun hw => hw)

theorem startupSheaf_keeps {r s : State} {r0} {e} (h : Keeps r s) :
    Keeps r (startupSheaf r0 e s) := by
  delta startupSheaf
  exact (by
    (try dsimp only)
    split
    · exact h
    · exact (Keeps.ite (judgeReduced_keeps (setThrE_keeps h)) h)
  )

theorem startupApply_keeps {r s : State} (h : Keeps r s) : Keeps r (startupApply s) := by
  unfold startupApply
  cases startupOk s with
  | none => exact forEng_keeps (initBudget_keeps (raiseIf_keeps h)) fun _ _ k => warpFallback_keeps k
  | some q =>
    refine forEng_keeps (forEng_keeps (forEng_keeps (initBudget_keeps (startupLive_keeps h))
      fun _ _ k => startupSheaf_keeps k) fun e _ k => ?_) fun _ _ k => warpFallback_keeps k
    cases q.gamut[e] with
    | none => exact k
    | some b => exact trialApply_keeps (gamutValidated_keeps k)

theorem recordLoad_keeps {r s : State} (h : Keeps r s) :
    Keeps r (recordLoad s) := by
  delta recordLoad
  exact (refRole_keeps (by
    split
    · exact (startupBase_keeps h)
    · exact h
  ))

theorem flashReload_keeps {r s : State} (h : Keeps r s) :
    Keeps r (flashReload s) := by
  delta flashReload
  exact (anvReload_keeps (repairLoad_keeps (journalLoad_keeps (recordLoad_keeps h))))

/-! ## Machine/Transitions.lean -/

theorem railsUp_keeps {r s : State} (h : Keeps r s) :
    Keeps r (railsUp s) := by
  delta railsUp
  exact (setHth_keeps h)

theorem powerUp_keeps {r s : State} (h : Keeps r s) :
    Keeps r (powerUp s) := by
  delta powerUp
  exact (Keeps.ite (railsUp_keeps h) (Keeps.ite (setHth_keeps h) h))

theorem enginesStart_keeps {r s : State} {again} (h : Keeps r s) :
    Keeps r (enginesStart again s) := by
  delta enginesStart
  exact (forEng_keeps h (fun _ _ h1 => (scanStart_keeps (Keeps.ite (linkStart_keeps h1) h1))))

theorem stepBegins_keeps {r s : State} {leaving} {stepTo} (h : Keeps r s) :
    Keeps r (stepBegins leaving stepTo s) := by
  delta stepBegins
  exact (Keeps.ite (powerUp_keeps h) (Keeps.ite (servoStart_keeps (enginesStart_keeps (setGrn_keeps (allPlls_keeps h
      (fun _ _ h1 => (pllOn_keeps h1))) fun _ => rfl))) (Keeps.ite (enginesStart_keeps h) h)))

theorem linkTimer_keeps {r s : State} {leaving} {target} (h : Keeps r s) :
    Keeps r (linkTimer leaving target s) := by
  delta linkTimer
  exact (Keeps.ite (setHst_keeps h) (Keeps.ite (setHst_keeps h) h))

theorem goOn_keeps {r s : State} {t} {leaving} (h : Keeps r s) :
    Keeps r (goOn t leaving s) := by
  delta goOn
  exact (stepBegins_keeps (linkTimer_keeps (setHth_keeps h)))

theorem startTrans_keeps {r s : State} {target} {cause} {cmd} (h : Keeps r s) :
    Keeps r (startTrans target cause cmd s) := by
  delta startTrans
  exact (goOn_keeps h)

theorem lampCheckOn_keeps {r s : State} (h : Keeps r s) :
    Keeps r (lampCheckOn s) := by
  delta lampCheckOn
  exact (setHth_keeps h)

theorem riseActs_keeps {r s : State} {ev} (h : Keeps r s) :
    Keeps r (riseActs ev s) := by
  delta riseActs
  exact (Keeps.ite (Keeps.ite (lampCheckOn_keeps h) h) (Keeps.ite (setHth_keeps (Keeps.ite (lampCheckOn_keeps h) h))
      (Keeps.ite (Keeps.ite (lampCheckOn_keeps h) h) (startTrans_keeps (Keeps.ite (setHth_keeps (Keeps.ite
      (lampCheckOn_keeps h) h)) (Keeps.ite (lampCheckOn_keeps h) h))))))

theorem ignOffActs_keeps {r s : State} (h : Keeps r s) :
    Keeps r (ignOffActs s) := by
  delta ignOffActs
  exact (by
    split
    · exact h
    · exact (Keeps.ite h (Keeps.ite (setHth_keeps h) (Keeps.ite h (startTrans_keeps h))))
  )

theorem recover_keeps {r s : State} (h : Keeps r s) :
    Keeps r (recover s) := by
  delta recover
  exact (Keeps.ite (allPlls_keeps (setGrn_keeps (setThm_keeps (forEng_keeps (setThm_keeps h) (fun _ _ h2 =>
      (releaseCause_keeps h2)))) fun _ => rfl) (fun _ _ h1 => (Keeps.ite (pllOn_keeps h1) h1))) (Keeps.ite (Keeps.ite
      (setHth_keeps h) (startTrans_keeps (forEng_keeps (setThm_keeps h) (fun _ _ h3 => (releaseCause_keeps h3)))))
      (Keeps.ite (setHth_keeps h) h)))

theorem heldActs_keeps {r s : State} {ev} (h : Keeps r s) :
    Keeps r (heldActs ev s) := by
  delta heldActs
  exact (by
    split
    · exact (riseActs_keeps h)
    · exact (riseActs_keeps h)
    · exact (ignOffActs_keeps h)
    · exact (recover_keeps h)
  )

theorem transEnds_keeps {r s : State} {t} {p} {st} (h : Keeps r s) :
    Keeps r (transEnds t p st s) := by
  delta transEnds
  exact (by
    (try dsimp only)
    split
    · exact (heldActs_keeps (by
      split
      · exact (cmdDone_keeps (enterState_keeps (setHth_keeps h)))
      · exact (enterState_keeps (setHth_keeps h))
    ))
    · exact (by
      split
      · exact (cmdDone_keeps (enterState_keeps (setHth_keeps h)))
      · exact (enterState_keeps (setHth_keeps h))
    )
  )

theorem passState_keeps {r s : State} {p} (h : Keeps r s) :
    Keeps r (passState p s) := by
  delta passState
  exact (setHth_keeps h)

theorem runDeferred_keeps {r s : State} {lit} (h : Keeps r s) :
    Keeps r (runDeferred lit s) := by
  delta runDeferred
  exact (trainSettle_keeps (Keeps.fold (setHst_keeps h) (fun _ _ h1 => (Keeps.ite (cmdDone_keeps h1) (Keeps.ite (by
    split
    · exact (commitRun_keeps h1)
    · exact (sheafLoadRun_keeps h1)
    · exact (loopSwapRun_keeps h1)
    · exact (memTrainRun_keeps h1)
  ) (cmdDone_keeps (by
    split
    · exact (commitRun_keeps h1)
    · exact (sheafLoadRun_keeps h1)
    · exact (loopSwapRun_keeps h1)
    · exact (memTrainRun_keeps h1)
  )))))))

theorem readyReached_keeps {r s : State} {leaving} (h : Keeps r s) :
    Keeps r (readyReached leaving s) := by
  delta readyReached
  exact (Keeps.ite (judgeHolder_keeps (forEng_keeps h (fun _ _ h1 => (engineDark_keeps h1)))) (portsFollow_keeps
      (mirrorEnable_keeps (Keeps.ite (servoStart_keeps (enginesStart_keeps (setHth_keeps h))) (setHth_keeps h)))))

theorem standbyReached_keeps {r s : State} (h : Keeps r s) :
    Keeps r (standbyReached s) := by
  delta standbyReached
  exact (judgeHolder_keeps (portsFollow_keeps (setHth_keeps (Keeps.mk' (sliceAbandon_keeps (journalAbandon_keeps
      (pcieDown_keeps (allPlls_keeps (setGrn_keeps (servoStop_keeps (forEng_keeps (allDark_keeps (abortCommit_keeps
      h)) (fun _ _ h2 => (linkOff_keeps (scanOff_keeps h2))))) fun _ => rfl) (fun _ _ h1 => (pllOff_keeps h1))))))
      fun hw => hw))))

theorem sleepReached_keeps {r s : State} (h : Keeps r s) :
    Keeps r (sleepReached s) := by
  delta sleepReached
  exact (setHth_keeps (sleepEntered_keeps h))

theorem stateReached_keeps {r s : State} {leaving} {p} (h : Keeps r s) :
    Keeps r (stateReached leaving p s) := by
  delta stateReached
  exact (by
    split
    · exact (readyReached_keeps h)
    · exact (standbyReached_keeps h)
    · exact (sleepReached_keeps h)
    · exact h
  )

theorem stepDone_keeps {r s : State} {t} (h : Keeps r s) :
    Keeps r (stepDone t s) := by
  delta stepDone
  exact (by
    (try dsimp only)
    split
    · exact (Keeps.ite (runDeferred_keeps (stateReached_keeps (passState_keeps (Keeps.ite (setHth_keeps h) h))))
        (stateReached_keeps (passState_keeps (Keeps.ite (setHth_keeps h) h))))
    · exact (Keeps.ite (transEnds_keeps (Keeps.ite (runDeferred_keeps (stateReached_keeps (passState_keeps (Keeps.ite
        (setHth_keeps h) h)))) (stateReached_keeps (passState_keeps (Keeps.ite (setHth_keeps h) h))))) (by
      split
      · exact (transEnds_keeps (Keeps.ite (runDeferred_keeps (stateReached_keeps (passState_keeps (Keeps.ite
          (setHth_keeps h) h)))) (stateReached_keeps (passState_keeps (Keeps.ite (setHth_keeps h) h)))))
      · exact (goOn_keeps (Keeps.ite (runDeferred_keeps (stateReached_keeps (passState_keeps (Keeps.ite (setHth_keeps
          h) h)))) (stateReached_keeps (passState_keeps (Keeps.ite (setHth_keeps h) h)))))
    ))
  )

theorem retrainMany_keeps {r s : State} {l} (h : Keeps r s) :
    Keeps r (retrainMany l s) := by
  delta retrainMany
  exact (Keeps.fold h (fun _ _ h1 => (Keeps.ite (retrain_keeps h1) h1)))

theorem quenchDone_keeps {r s : State} {t} (h : Keeps r s) :
    Keeps r (quenchDone t s) := by
  delta quenchDone
  exact (Keeps.ite h (Keeps.ite (recover_keeps (setHth_keeps (portsFollow_keeps (sliceAbandon_keeps
      (journalAbandon_keeps (quenchReached_keeps h)))))) (portsFollow_keeps (sliceAbandon_keeps (journalAbandon_keeps
      (quenchReached_keeps h))))))

theorem execTransitionComplete_keeps {r s : State} {t} {retrain} (h : Keeps r s) :
    KeepsO r (execTransitionComplete t retrain s) := by
  delta execTransitionComplete
  exact (by
    (try dsimp only)
    split
    · exact (KeepsO.next (at_keeps h))
    · exact (by
      split
      · exact (KeepsO.next (at_keeps h))
      · exact (KeepsO.next (quenchDone_keeps (at_keeps h)))
      · exact (KeepsO.ite (KeepsO.next (at_keeps h)) (KeepsO.ite (KeepsO.next (Keeps.ite (retrainMany_keeps (at_keeps
          h)) (stepDone_keeps (retrainMany_keeps (at_keeps h))))) (KeepsO.next (stepDone_keeps (at_keeps h)))))
      · exact (KeepsO.ite (KeepsO.next (at_keeps h)) (KeepsO.next (stepDone_keeps (at_keeps h))))
      · exact (KeepsO.next (stepDone_keeps (at_keeps h)))
      · exact (KeepsO.next (at_keeps h))
    )
  )

theorem execIgnRise_keeps {r s : State} {t} (h : Keeps r s) :
    KeepsO r (execIgnRise t s) := by
  delta execIgnRise
  exact (KeepsO.ite (KeepsO.next (setHth_keeps (at_keeps h))) (KeepsO.next (riseActs_keeps (setHth_keeps
      (setHth_keeps (at_keeps h))))))

theorem execIgnFall_keeps {r s : State} {t} (h : Keeps r s) :
    KeepsO r (execIgnFall t s) := by
  delta execIgnFall
  exact (KeepsO.ite (KeepsO.next (setHth_keeps (at_keeps h))) (KeepsO.next (setHth_keeps (setHth_keeps (at_keeps
      h)))))

theorem execIgnOffDelayExpiry_keeps {r s : State} {t} (h : Keeps r s) :
    KeepsO r (execIgnOffDelayExpiry t s) := by
  delta execIgnOffDelayExpiry
  exact (by
    (try dsimp only)
    split
    · exact (KeepsO.ite (KeepsO.next (ignOffActs_keeps (setHth_keeps (at_keeps h)))) (KeepsO.next (at_keeps h)))
    · exact (KeepsO.next (at_keeps h))
  )

theorem execWakeRise_keeps {r s : State} {t} (h : Keeps r s) :
    KeepsO r (execWakeRise t s) := by
  delta execWakeRise
  exact (KeepsO.ite (KeepsO.next (setHth_keeps (at_keeps h))) (KeepsO.next (riseActs_keeps (setHth_keeps (at_keeps
      h)))))

theorem execQuenchRecovery_keeps {r s : State} {t} (h : Keeps r s) :
    KeepsO r (execQuenchRecovery t s) := by
  delta execQuenchRecovery
  exact (KeepsO.ite (KeepsO.next (recover_keeps (at_keeps h))) (KeepsO.next (at_keeps h)))

theorem firmwareRestart_keeps {r s : State} (h : Keeps r s) :
    Keeps r (firmwareRestart s) := by
  delta firmwareRestart
  exact (Keeps.ite h (by
    split
    · exact (setHth_keeps h)
    · exact (setHth_keeps h)
  ))

theorem litRestarts_keeps {r s : State} (h : Keeps r s) :
    Keeps r (litRestarts s) := by
  delta litRestarts
  exact (forEng_keeps h (fun _ _ h1 => (scanRestart_keeps (Keeps.ite (linkStart_keeps h1) h1))))

theorem stateRequestBody_keeps {r s : State} {rq} (h : Keeps r s) :
    Keeps r (stateRequestBody rq s).1 := by
  delta stateRequestBody
  exact (by
    (try dsimp only)
    split
    · exact (deny_keeps h)
    · exact (Keeps.ite1 (deny_keeps h) (Keeps.ite1 (deny_keeps h) (Keeps.ite1 (Keeps.fst h) (by
      split
      · exact (deny_keeps h)
      · exact (Keeps.ite1 (deny_keeps h) (Keeps.fst (startTrans_keeps (Keeps.ite (litRestarts_keeps (Keeps.ite
          (firmwareRestart_keeps (forEng_keeps (Keeps.ite (setHth_keeps h) h) (fun _ _ h1 => (releaseCause_keeps
          h1)))) (Keeps.ite (setHth_keeps h) h))) (Keeps.ite (firmwareRestart_keeps (forEng_keeps (Keeps.ite
          (setHth_keeps h) h) (fun _ _ h2 => (releaseCause_keeps h2)))) (Keeps.ite (setHth_keeps h) h))))))
    ))))
  )

theorem estopSample_keeps {r s : State} {high} (h : Keeps r s) :
    Keeps r (estopSample high s) := by
  delta estopSample
  exact (Keeps.ite (forEng_keeps (setHth_keeps h) (fun _ _ h1 => (releaseCause_keeps h1))) (setHth_keeps h))

theorem execStateRequest_keeps {r s : State} {t} {rq} {estopN} (h : Keeps r s) :
    KeepsO r (execStateRequest t rq estopN s) := by
  delta execStateRequest
  exact (KeepsO.next (serve_keeps (estopSample_keeps (at_keeps h)) (fun _ _ h1 => (stateRequestBody_keeps h1))))

/-! ## Machine/Startup.lean -/

theorem writesTorn_keeps {r s : State} (h : Keeps r s) :
    Keeps r (writesTorn s) := by
  delta writesTorn
  exact (by
    (try dsimp only)
    split
    · exact (Keeps.mk' (by
      split
      · exact (Keeps.mkOtp (fresh_keeps h) (OtpKept.word rfl rfl rfl rfl partWord_kept) fun hw => hw)
      · exact h
    ) fun hw => hw)
    · exact (by
      split
      · exact (Keeps.mkOtp (fresh_keeps h) (OtpKept.word rfl rfl rfl rfl partWord_kept) fun hw => hw)
      · exact h
    )
  )

theorem volatileLost_keeps {r s : State} (h : Keeps r s) :
    Keeps r (volatileLost s) := by
  delta volatileLost
  exact (Keeps.mk' (writesTorn_keeps h) fun _ => rfl)

theorem hearthBoot_keeps {r s : State} {pins} (h : Keeps r s) :
    Keeps r (hearthBoot pins s) := by
  delta hearthBoot
  exact (Keeps.mk' h fun hw => hw)

theorem pendingDropped_keeps {r s : State} {main} (h : Keeps r s) :
    Keeps r (pendingDropped main s) := by
  delta pendingDropped
  exact (raise_keeps (Keeps.mk' h fun hw => hw))

theorem patchBoot_keeps {r s : State} {v} (h : Keeps r s) :
    Keeps r (patchBoot v s) := by
  delta patchBoot
  exact (Keeps.ite (setSec_keeps (setHth_keeps h)) (by
    (try dsimp only)
    split
    · exact (setHth_keeps (Keeps.ite (pendingDropped_keeps h) h))
    · exact (raise_keeps (setHth_keeps (Keeps.ite (pendingDropped_keeps h) h)))
  ))

theorem anvilBoot_keeps {r s : State} (h : Keeps r s) :
    Keeps r (anvilBoot s) := by
  delta anvilBoot
  exact (by
    (try dsimp only)
    split
    · exact (setAnv_keeps (by
      split
      · exact (Keeps.mk' h fun hw => hw)
      · exact h
    ))
    · exact (raise_keeps (by
      split
      · exact (Keeps.mk' h fun hw => hw)
      · exact h
    ))
  )

theorem coldBoot_keeps {r s : State} {pins} {patch} (h : Keeps r s) :
    Keeps r (coldBoot pins patch s) := by
  delta coldBoot
  exact (judgeHolder_keeps (ownerTimer_keeps (setGrn_keeps (repairLoad_keeps (journalLoad_keeps (anvilBoot_keeps
      (patchBoot_keeps (Keeps.fold (recordLoad_keeps (forEng_keeps (hearthBoot_keeps (volatileLost_keeps h)) (fun _ _
      h1 => (setFrgE_keeps h1)))) (fun _ _ h2 => (raise_keeps h2))))))) fun _ => rfl)))

theorem coldStart_keeps {r s : State} {pins} {patch} (h : Keeps r s) :
    Keeps r (coldStart pins patch s) := by
  delta coldStart
  exact (Keeps.ite (goOn_keeps (setHth_keeps (Keeps.ite (lampCheckOn_keeps (coldBoot_keeps h)) (coldBoot_keeps h))))
      (enterState_keeps (sleepEntered_keeps (coldBoot_keeps h))))

theorem execPowerOn_keeps {r s : State} {t} {pins} {patch} (h : Keeps r s) :
    KeepsO r (execPowerOn t pins patch s) := by
  delta execPowerOn
  exact (KeepsO.next (coldStart_keeps (setHth_keeps (at_keeps h))))

theorem execReset_keeps {r s : State} {t} {kind} {pins} {patch} (h : Keeps r s) :
    KeepsO r (execReset t kind pins patch s) := by
  delta execReset
  exact (KeepsO.ite (KeepsO.next (at_keeps h)) (KeepsO.next (coldStart_keeps (at_keeps h))))

theorem execDelayedReset_keeps {r s : State} {t} {pins} {patch} (h : Keeps r s) :
    KeepsO r (execDelayedReset t pins patch s) := by
  delta execDelayedReset
  exact (by
    (try dsimp only)
    split
    · exact (KeepsO.ite (KeepsO.next (coldStart_keeps (at_keeps h))) (KeepsO.next (at_keeps h)))
    · exact (KeepsO.next (at_keeps h))
  )

theorem execPowerLoss_keeps {r s : State} {t} (h : Keeps r s) :
    KeepsO r (execPowerLoss t s) := by
  delta execPowerLoss
  exact (KeepsO.next (setHth_keeps (volatileLost_keeps (at_keeps h))))

theorem domainsUp_keeps {r s : State} {fail} (h : Keeps r s) :
    Keeps r (domainsUp fail s) := by
  delta domainsUp
  exact (Keeps.ite (mirrorEnable_keeps (Keeps.ite (raise_keeps (setTng_keeps (setTng_keeps (allPlls_keeps
      (setBst_keeps (Keeps.ite (Keeps.ite (forEng_keeps (Keeps.mk' (setHth_keeps h) fun hw => hw) (fun _ _ h2 =>
      (darkCause_keeps h2))) (Keeps.mk' (setHth_keeps h) fun hw => hw)) (flashReload_keeps (Keeps.ite (forEng_keeps
      (Keeps.mk' (setHth_keeps h) fun hw => hw) (fun _ _ h3 => (darkCause_keeps h3))) (Keeps.mk' (setHth_keeps h) fun
      hw => hw))))) (fun _ _ h1 => (pllOn_keeps (setPll_keeps h1))))))) (setTng_keeps (allPlls_keeps (setBst_keeps
      (Keeps.ite (Keeps.ite (forEng_keeps (Keeps.mk' (setHth_keeps h) fun hw => hw) (fun _ _ h5 => (darkCause_keeps
      h5))) (Keeps.mk' (setHth_keeps h) fun hw => hw)) (flashReload_keeps (Keeps.ite (forEng_keeps (Keeps.mk'
      (setHth_keeps h) fun hw => hw) (fun _ _ h6 => (darkCause_keeps h6))) (Keeps.mk' (setHth_keeps h) fun hw =>
      hw))))) (fun _ _ h4 => (pllOn_keeps (setPll_keeps h4))))))) (mirrorEnable_keeps (enterSafe_keeps (raise_keeps
      (Keeps.ite (raise_keeps (setTng_keeps (setTng_keeps (allPlls_keeps (setBst_keeps (Keeps.ite (Keeps.ite
      (forEng_keeps (Keeps.mk' (setHth_keeps h) fun hw => hw) (fun _ _ h8 => (darkCause_keeps h8))) (Keeps.mk'
      (setHth_keeps h) fun hw => hw)) (flashReload_keeps (Keeps.ite (forEng_keeps (Keeps.mk' (setHth_keeps h) fun hw
      => hw) (fun _ _ h9 => (darkCause_keeps h9))) (Keeps.mk' (setHth_keeps h) fun hw => hw))))) (fun _ _ h7 =>
      (pllOn_keeps (setPll_keeps h7))))))) (setTng_keeps (allPlls_keeps (setBst_keeps (Keeps.ite (Keeps.ite
      (forEng_keeps (Keeps.mk' (setHth_keeps h) fun hw => hw) (fun _ _ h11 => (darkCause_keeps h11))) (Keeps.mk'
      (setHth_keeps h) fun hw => hw)) (flashReload_keeps (Keeps.ite (forEng_keeps (Keeps.mk' (setHth_keeps h) fun hw
      => hw) (fun _ _ h12 => (darkCause_keeps h12))) (Keeps.mk' (setHth_keeps h) fun hw => hw))))) (fun _ _ h10 =>
      (pllOn_keeps (setPll_keeps h10))))))))))

theorem railsFailed_keeps {r s : State} {rail} (h : Keeps r s) :
    Keeps r (railsFailed rail s) := by
  delta railsFailed
  exact (by
    (try dsimp only)
    split
    · exact (transEnds_keeps (raise_keeps (setHth_keeps (sleepEntered_keeps (setHth_keeps h)))))
    · exact (raise_keeps (setHth_keeps h))
  )

theorem execPwrGoodCheck_keeps {r s : State} {t} {good} {badRail} {lbistFail} (h : Keeps r s) :
    KeepsO r (execPwrGoodCheck t good badRail lbistFail s) := by
  delta execPwrGoodCheck
  exact (KeepsO.ite (KeepsO.next (at_keeps h)) (KeepsO.ite (KeepsO.next (domainsUp_keeps (at_keeps h))) (KeepsO.ite
      (KeepsO.next (railsFailed_keeps (at_keeps h))) (KeepsO.next (setHth_keeps (at_keeps h))))))

theorem execPwrSequenceRetry_keeps {r s : State} {t} (h : Keeps r s) :
    KeepsO r (execPwrSequenceRetry t s) := by
  delta execPwrSequenceRetry
  exact (by
    (try dsimp only)
    split
    · exact (KeepsO.ite (KeepsO.next (setHth_keeps (at_keeps h))) (KeepsO.next (at_keeps h)))
    · exact (KeepsO.next (at_keeps h))
  )

theorem execRailDischargeDone_keeps {r s : State} {t} (h : Keeps r s) :
    KeepsO r (execRailDischargeDone t s) := by
  delta execRailDischargeDone
  exact (KeepsO.ite (KeepsO.next (at_keeps h)) (KeepsO.next (Keeps.ite (railsUp_keeps (setHth_keeps (at_keeps h)))
      (setHth_keeps (at_keeps h)))))

theorem firmwareRuns_keeps {r s : State} {trial} {version} {svn} (h : Keeps r s) :
    Keeps r (firmwareRuns trial version svn s) := by
  delta firmwareRuns
  exact (setSec_keeps (setHth_keeps h))

theorem measure_keeps {r s : State} {main} (h : Keeps r s) :
    Keeps r (measure main s) := by
  delta measure
  exact (Keeps.ite h (setSec_keeps h))

theorem stepSix_keeps {r s : State} (h : Keeps r s) :
    Keeps r (stepSix s) := by
  delta stepSix
  exact (Keeps.ite h (servoStart_keeps (enginesStart_keeps h)))

theorem firmwareMissing_keeps {r s : State} (h : Keeps r s) :
    Keeps r (firmwareMissing s) := by
  delta firmwareMissing
  exact (enterSafe_keeps (forEng_keeps (allPlls_keeps (measure_keeps (setHth_keeps h)) (fun _ _ h2 => (pllOff_keeps
      h2))) (fun _ _ h1 => (linkOff_keeps (scanOff_keeps h1)))))

theorem execFirmwareVerifyComplete_keeps {r s : State} {t} {v} (h : Keeps r s) :
    KeepsO r (execFirmwareVerifyComplete t v s) := by
  delta execFirmwareVerifyComplete
  exact (KeepsO.ite (KeepsO.next (at_keeps h)) (KeepsO.ite (KeepsO.next (stepSix_keeps (measure_keeps
      (firmwareRuns_keeps (at_keeps h))))) (by
    (try dsimp only)
    split
    · exact (KeepsO.next (stepSix_keeps (measure_keeps (firmwareRuns_keeps (Keeps.ite (pendingDropped_keeps (at_keeps
        h)) (at_keeps h))))))
    · exact (KeepsO.next (firmwareMissing_keeps (Keeps.ite (pendingDropped_keeps (at_keeps h)) (at_keeps h))))
  )))

theorem execMainFirmwareWatchdog_keeps {r s : State} {t} (h : Keeps r s) :
    KeepsO r (execMainFirmwareWatchdog t s) := by
  delta execMainFirmwareWatchdog
  exact (KeepsO.ite (KeepsO.next (at_keeps h)) (KeepsO.next (enterSafe_keeps (Keeps.ite (setSec_keeps
      (pendingDropped_keeps (setHth_keeps (at_keeps h)))) (setHth_keeps (at_keeps h))))))

theorem execHbmTrainingComplete_keeps {r s : State} {t} {failed} {taps} (h : Keeps r s) :
    KeepsO r (execHbmTrainingComplete t failed taps s) := by
  delta execHbmTrainingComplete
  exact (KeepsO.ite (KeepsO.next (at_keeps h)) (KeepsO.next (Keeps.fold (forceTaps_keeps (setHth_keeps (setGrn_keeps
      (at_keeps h) fun _ => rfl))) (fun _ _ h1 => (Keeps.ite (failPc_keeps h1) h1)))))

theorem execChaffWipeComplete_keeps {r s : State} {t} (h : Keeps r s) :
    KeepsO r (execChaffWipeComplete t s) := by
  delta execChaffWipeComplete
  exact (KeepsO.ite (KeepsO.next (at_keeps h)) (by
    (try dsimp only)
    split
    · exact (KeepsO.ite (KeepsO.next (stepDone_keeps (startupApply_keeps (setGrn_wf (setHth_keeps (at_keeps h)) fun _
        => rfl)))) (KeepsO.next (startupApply_keeps (setGrn_wf (setHth_keeps (at_keeps h)) fun _ => rfl))))
    · exact (KeepsO.next (startupApply_keeps (setGrn_wf (setHth_keeps (at_keeps h)) fun _ => rfl)))
  ))

theorem execPcieLinkUp_keeps {r s : State} {t} {gen} {width} (h : Keeps r s) :
    KeepsO r (execPcieLinkUp t gen width s) := by
  delta execPcieLinkUp
  exact (KeepsO.ite (KeepsO.next (Keeps.mk' (at_keeps h) fun hw => hw)) (KeepsO.next (at_keeps h)))

theorem railFault_keeps {r s : State} {r0} (h : Keeps r s) :
    Keeps r (railFault r0 s) := by
  delta railFault
  exact (Keeps.fold (raise_keeps (setThm_keeps h)) (fun _ _ h1 => (pllLoss_keeps h1)))

theorem railWarn_keeps {r s : State} {r0} (h : Keeps r s) :
    Keeps r (railWarn r0 s) := by
  delta railWarn
  exact (Keeps.ite h (journalAbandon_keeps (raise_keeps (setThm_keeps h))))

theorem execSupplyMonitorExcursion_keeps {r s : State} {t} {rail} {beyond6} {pins} {patch} (h : Keeps r s) :
    KeepsO r (execSupplyMonitorExcursion t rail beyond6 pins patch s) := by
  delta execSupplyMonitorExcursion
  exact (KeepsO.ite (KeepsO.next (at_keeps h)) (KeepsO.ite (KeepsO.next (railWarn_keeps (at_keeps h))) (KeepsO.ite
      (KeepsO.next (coldStart_keeps (at_keeps h))) (KeepsO.ite (KeepsO.next (railWarn_keeps (at_keeps h)))
      (KeepsO.next (railFault_keeps (railWarn_keeps (at_keeps h))))))))

theorem execSupplyMonitorRecovery_keeps {r s : State} {t} {rail} {within3} (h : Keeps r s) :
    KeepsO r (execSupplyMonitorRecovery t rail within3 s) := by
  delta execSupplyMonitorRecovery
  exact (KeepsO.next (setThm_keeps (at_keeps h)))

theorem execPwrGoodLoss_keeps {r s : State} {t} (h : Keeps r s) :
    KeepsO r (execPwrGoodLoss t s) := by
  delta execPwrGoodLoss
  exact (KeepsO.ite (KeepsO.next (at_keeps h)) (KeepsO.next (Keeps.fold (at_keeps h) (fun _ _ h1 => (Keeps.ite h1
      (railFault_keeps (railWarn_keeps h1)))))))

theorem execXtalStartTimeout_keeps {r s : State} {t} (h : Keeps r s) :
    KeepsO r (execXtalStartTimeout t s) := by
  delta execXtalStartTimeout
  exact (KeepsO.ite (KeepsO.next (at_keeps h)) (KeepsO.next (raise_keeps (setHth_keeps (at_keeps h)))))

theorem execXtalReturn_keeps {r s : State} {t} (h : Keeps r s) :
    KeepsO r (execXtalReturn t s) := by
  delta execXtalReturn
  exact (KeepsO.next (setHth_keeps (at_keeps h)))

theorem execRcTrim_keeps {r s : State} {t} {temp} (h : Keeps r s) :
    KeepsO r (execRcTrim t temp s) := by
  delta execRcTrim
  exact (KeepsO.ite (KeepsO.next (at_keeps h)) (KeepsO.next (setHth_keeps (at_keeps h))))

theorem execRcIdleStop_keeps {r s : State} {t} (h : Keeps r s) :
    KeepsO r (execRcIdleStop t s) := by
  delta execRcIdleStop
  exact (KeepsO.ite (KeepsO.next (setHth_keeps (at_keeps h))) (KeepsO.next (at_keeps h)))

/-! ## Machine/Pixels.lean -/

theorem turnPlane_keeps {r s : State} {e} {half} {p} (h : Keeps r s) : Keeps r (turnPlane e half p s) := by
  refine setThrE_keeps (setGrn_wf h fun hw => ?_)
  generalize List.map _ _ = l
  revert hw
  generalize s.grn = m
  intro hw
  induction l generalizing m with
  | nil => exact hw
  | cons x l ih => exact ih _ (Grn.store_wf hw)

theorem execCornerTurnHalfComplete_keeps {r s : State} {t} {e} {half} (h : Keeps r s) :
    KeepsO r (execCornerTurnHalfComplete t e half s) := by
  delta execCornerTurnHalfComplete
  exact (KeepsO.ite (KeepsO.next (at_keeps h)) (KeepsO.next (setThrE_keeps (Keeps.fold (at_keeps h) (fun _ _ h1 =>
      (turnPlane_keeps h1))))))

theorem scanWrite_keeps {r s : State} {e} (h : Keeps r s) :
    Keeps r (scanWrite e s) := by
  delta scanWrite
  exact (Keeps.ite h (forN_keeps h (fun _ _ h1 => (forN_keeps h1 (fun _ _ h2 => (setGrn_wf h2 fun hw => Mem.writes_wf
      _ _ hw))))))

/-! ## Machine/Frames.lean -/

theorem engineLights_keeps {r s : State} {stored} {e} (h : Keeps r s) :
    Keeps r (engineLights stored e s) := by
  delta engineLights
  exact (Keeps.ite h (Keeps.ite (setSwt_keeps (setFrgE_keeps h)) (scanRelit_keeps (setFrgE_keeps h))))

theorem lseLit_keeps {r s : State} {e} (h : Keeps r s) :
    Keeps r (lseLit e s) := by
  delta lseLit
  exact (Keeps.ite (Keeps.fold h (fun _ _ h1 => (setCh_keeps h1))) h)

theorem litReached_keeps {r s : State} (h : Keeps r s) :
    Keeps r (litReached s) := by
  delta litReached
  exact (by
    split
    · exact (Keeps.ite (transEnds_keeps (setAnv_keeps h)) h)
    · exact h
  )

theorem lightFrameStart_keeps {r s : State} {stored} (h : Keeps r s) :
    Keeps r (lightFrameStart stored s) := by
  delta lightFrameStart
  exact (judgeHolder_keeps (forEng_keeps (litReached_keeps (forEng_keeps h (fun _ _ h2 => (engineLights_keeps h2))))
      (fun _ _ h1 => (lseLit_keeps h1))))

theorem expectFrame_keeps {r s : State} (h : Keeps r s) :
    Keeps r (expectFrame s) := by
  delta expectFrame
  exact (forEng_keeps (setAnv_keeps h) (fun _ _ h1 => (setThrE_keeps h1)))

theorem frameCounts_keeps {r s : State} (h : Keeps r s) :
    Keeps r (frameCounts s) := by
  delta frameCounts
  exact (commitFrame_keeps (portsFollow_keeps (brugoFrame_keeps (setCmp_keeps h))))

theorem frameClocks_keeps {r s : State} (h : Keeps r s) :
    Keeps r (frameClocks s) := by
  delta frameClocks
  exact (syncFrame_keeps (periodFrame_keeps (clockFrame_keeps (pllFrame_keeps h))))

theorem frameBudgets_keeps {r s : State} (h : Keeps r s) :
    Keeps r (frameBudgets s) := by
  delta frameBudgets
  exact (reassess_keeps (setGrn_keeps (refreshFrame_keeps (forEng_keeps h (fun _ _ h1 => (stepEngine_keeps h1)))) fun
      _ => rfl))

theorem frameEngines_keeps {r s : State} {stored} (h : Keeps r s) :
    Keeps r (frameEngines stored s) := by
  delta frameEngines
  exact (forEng_keeps h (fun _ _ h1 => (swtFrame_keeps (slotFrame_keeps (scnFrame_keeps (setFrgE_keeps h1))))))

theorem frameLight_keeps {r s : State} (h : Keeps r s) :
    Keeps r (frameLight s) := by
  delta frameLight
  exact (forEng_keeps (forEng_keeps (forEng_keeps (rampFrame_keeps h) (fun _ _ h3 => (lightFrame_keeps h3))) (fun _ _
      h2 => (dropFrame_keeps h2))) (fun _ _ h1 => (bitsFrame_keeps h1)))

theorem frameComposition_keeps {r s : State} {fi} (h : Keeps r s) :
    Keeps r (frameComposition fi s) := by
  delta frameComposition
  exact (Keeps.ite (anvFrame_keeps (forEng_keeps (setHth_keeps (layersFrame_keeps h)) (fun _ _ h1 =>
      (matrixEngine_keeps h1)))) (setAnv_keeps (setHth_keeps (anvEcc_keeps h))))

theorem frameMarks_keeps {r s : State} (h : Keeps r s) :
    Keeps r (frameMarks s) := by
  delta frameMarks
  exact (setTmp_keeps (setGrn_keeps h fun _ => rfl))

theorem mirrorFrame_keeps {r s : State} {lines} (h : Keeps r s) :
    Keeps r (mirrorFrame lines s) := by
  delta mirrorFrame
  exact (Keeps.ite (Keeps.mk' h fun hw => hw) h)

theorem frameStarts_keeps {r s : State} {fi} (h : Keeps r s) :
    Keeps r (frameStarts fi s) := by
  delta frameStarts
  exact (brugoSends_keeps (mirrorFrame_keeps (expectFrame_keeps (lightFrameStart_keeps (snapFrame_keeps
      (availFrame_keeps (frameComposition_keeps (frameMarks_keeps (frameLight_keeps (frameEngines_keeps
      (frameBudgets_keeps (frameClocks_keeps (frameCounts_keeps (Keeps.ite (forEng_keeps h (fun _ _ h1 =>
      (scanWrite_keeps h1))) h))))))))))))))

theorem execFrameStart_keeps {r s : State} {t} {fi} (h : Keeps r s) :
    KeepsO r (execFrameStart t fi s) := by
  delta execFrameStart
  exact (KeepsO.ite (KeepsO.next (frameStarts_keeps (at_keeps h))) (KeepsO.next (at_keeps h)))

end Sys2Proof.Machine
end

