-- ==== Sys2Proof/Laws/Serve.lean ====
section
/-! SUPPORT. What a served request and a served register row answer, in one lemma each, so that no proof unfolds the
interpreter. -/

namespace Sys2Proof.Machine

/-- Taking a request off the queue does not change whether it is admitted. -/
theorem admission_takeReq (rq r : Req) (s : State) : admission (takeReq rq s) r = admission s r := rfl

/-- While no forwarded request waits for a worker, the interpreter's choice looks at the queue alone. -/
theorem grantedNow_of_idle {s : State} (h : s.brg.fwds = []) : grantedNow s = granted s.hst := by
  have : (s.hst.requests.filter fun r => !transportWaits s r) = s.hst.requests :=
    List.filter_eq_self.2 fun r _ => by simp [transportWaits, h]
  rw [grantedNow, this]

/-- What `serves` says, part by part. -/
theorem serves_iff (op : Nat) (rq : Req) (s : State) : serves op rq s = true ↔
    rq.opcode = op ∧ s.hth.boot ≠ .hold ∧ s.hst.requests.contains rq = true ∧ grantedNow s = some rq
      ∧ admission s rq = none ∧ rqForward rq = false := by
  simp [serves, and_assoc]

/-- A served request runs its body, whose answer is the reply. -/
theorem serve_of_serves {op : Nat} {rq : Req} {s : State} (body : Req → State → Ans) (h : serves op rq s = true) :
    serve op body rq s = finishReply rq (body rq (takeReq rq s)).2.1 (body rq (takeReq rq s)).2.2
      (body rq (takeReq rq s)).1 := by
  obtain ⟨ho, hb, hq, hg, ha, hf⟩ := (serves_iff op rq s).1 h
  have h1 : ¬(rq.opcode ≠ op ∨ s.hth.boot = .hold) := by simp [ho, hb]
  rw [serve, if_neg h1]
  simp only [hq, if_true, hg, execute, admission_takeReq, ha, hf, Bool.false_and, Bool.false_eq_true, if_false]

/-- A served register row stores its status in `last`. -/
theorem regAnswer_of_rowOpen {s : State} (f : State → Status × State) (h : rowOpen s = true) :
    regAnswer f s = .next { (f s).2 with last := (f s).1 } := by
  rw [regAnswer, if_pos]; exact h

end Sys2Proof.Machine
end

