-- ==== Sys2Proof/Laws/State.lean ====
section
/-! SUPPORT. One lemma per part of State and update: what the update makes of that part, so that no proof unfolds a
record update. -/

set_option Elab.async false

namespace Sys2Proof.Machine

/-! ## setHth -/

section
variable (f : Hth → Hth) (s : State)

@[simp] theorem setHth_now : (setHth f s).now = s.now := rfl
@[simp] theorem setHth_pending : (setHth f s).pending = s.pending := rfl
@[simp] theorem setHth_free : (setHth f s).free = s.free := rfl
@[simp] theorem setHth_last : (setHth f s).last = s.last := rfl
@[simp] theorem setHth_readData : (setHth f s).readData = s.readData := rfl
@[simp] theorem setHth_eng : (setHth f s).eng = s.eng := rfl
@[simp] theorem setHth_otp : (setHth f s).otp = s.otp := rfl
@[simp] theorem setHth_flash : (setHth f s).flash = s.flash := rfl
@[simp] theorem setHth_hth : (setHth f s).hth = f s.hth := rfl
@[simp] theorem setHth_hst : (setHth f s).hst = s.hst := rfl
@[simp] theorem setHth_evt : (setHth f s).evt = s.evt := rfl
@[simp] theorem setHth_ing : (setHth f s).ing = s.ing := rfl
@[simp] theorem setHth_cmp : (setHth f s).cmp = s.cmp := rfl
@[simp] theorem setHth_anv : (setHth f s).anv = s.anv := rfl
@[simp] theorem setHth_clw : (setHth f s).clw = s.clw := rfl
@[simp] theorem setHth_thr : (setHth f s).thr = s.thr := rfl
@[simp] theorem setHth_swt : (setHth f s).swt = s.swt := rfl
@[simp] theorem setHth_scn : (setHth f s).scn = s.scn := rfl
@[simp] theorem setHth_frg : (setHth f s).frg = s.frg := rfl
@[simp] theorem setHth_mtx : (setHth f s).mtx = s.mtx := rfl
@[simp] theorem setHth_srv : (setHth f s).srv = s.srv := rfl
@[simp] theorem setHth_tng : (setHth f s).tng = s.tng := rfl
@[simp] theorem setHth_grn : (setHth f s).grn = s.grn := rfl
@[simp] theorem setHth_thm : (setHth f s).thm = s.thm := rfl
@[simp] theorem setHth_tmp : (setHth f s).tmp = s.tmp := rfl
@[simp] theorem setHth_bst : (setHth f s).bst = s.bst := rfl
@[simp] theorem setHth_brg : (setHth f s).brg = s.brg := rfl
@[simp] theorem setHth_sec : (setHth f s).sec = s.sec := rfl

end

/-! ## setTng -/

section
variable (f : Tng → Tng) (s : State)

@[simp] theorem setTng_now : (setTng f s).now = s.now := rfl
@[simp] theorem setTng_pending : (setTng f s).pending = s.pending := rfl
@[simp] theorem setTng_free : (setTng f s).free = s.free := rfl
@[simp] theorem setTng_last : (setTng f s).last = s.last := rfl
@[simp] theorem setTng_readData : (setTng f s).readData = s.readData := rfl
@[simp] theorem setTng_eng : (setTng f s).eng = s.eng := rfl
@[simp] theorem setTng_otp : (setTng f s).otp = s.otp := rfl
@[simp] theorem setTng_flash : (setTng f s).flash = s.flash := rfl
@[simp] theorem setTng_hth : (setTng f s).hth = s.hth := rfl
@[simp] theorem setTng_hst : (setTng f s).hst = s.hst := rfl
@[simp] theorem setTng_evt : (setTng f s).evt = s.evt := rfl
@[simp] theorem setTng_ing : (setTng f s).ing = s.ing := rfl
@[simp] theorem setTng_cmp : (setTng f s).cmp = s.cmp := rfl
@[simp] theorem setTng_anv : (setTng f s).anv = s.anv := rfl
@[simp] theorem setTng_clw : (setTng f s).clw = s.clw := rfl
@[simp] theorem setTng_thr : (setTng f s).thr = s.thr := rfl
@[simp] theorem setTng_swt : (setTng f s).swt = s.swt := rfl
@[simp] theorem setTng_scn : (setTng f s).scn = s.scn := rfl
@[simp] theorem setTng_frg : (setTng f s).frg = s.frg := rfl
@[simp] theorem setTng_mtx : (setTng f s).mtx = s.mtx := rfl
@[simp] theorem setTng_srv : (setTng f s).srv = s.srv := rfl
@[simp] theorem setTng_tng : (setTng f s).tng = f s.tng := rfl
@[simp] theorem setTng_grn : (setTng f s).grn = s.grn := rfl
@[simp] theorem setTng_thm : (setTng f s).thm = s.thm := rfl
@[simp] theorem setTng_tmp : (setTng f s).tmp = s.tmp := rfl
@[simp] theorem setTng_bst : (setTng f s).bst = s.bst := rfl
@[simp] theorem setTng_brg : (setTng f s).brg = s.brg := rfl
@[simp] theorem setTng_sec : (setTng f s).sec = s.sec := rfl

end

/-! ## setCmp -/

section
variable (f : Cmp → Cmp) (s : State)

@[simp] theorem setCmp_now : (setCmp f s).now = s.now := rfl
@[simp] theorem setCmp_pending : (setCmp f s).pending = s.pending := rfl
@[simp] theorem setCmp_free : (setCmp f s).free = s.free := rfl
@[simp] theorem setCmp_last : (setCmp f s).last = s.last := rfl
@[simp] theorem setCmp_readData : (setCmp f s).readData = s.readData := rfl
@[simp] theorem setCmp_eng : (setCmp f s).eng = s.eng := rfl
@[simp] theorem setCmp_otp : (setCmp f s).otp = s.otp := rfl
@[simp] theorem setCmp_flash : (setCmp f s).flash = s.flash := rfl
@[simp] theorem setCmp_hth : (setCmp f s).hth = s.hth := rfl
@[simp] theorem setCmp_hst : (setCmp f s).hst = s.hst := rfl
@[simp] theorem setCmp_evt : (setCmp f s).evt = s.evt := rfl
@[simp] theorem setCmp_ing : (setCmp f s).ing = s.ing := rfl
@[simp] theorem setCmp_cmp : (setCmp f s).cmp = f s.cmp := rfl
@[simp] theorem setCmp_anv : (setCmp f s).anv = s.anv := rfl
@[simp] theorem setCmp_clw : (setCmp f s).clw = s.clw := rfl
@[simp] theorem setCmp_thr : (setCmp f s).thr = s.thr := rfl
@[simp] theorem setCmp_swt : (setCmp f s).swt = s.swt := rfl
@[simp] theorem setCmp_scn : (setCmp f s).scn = s.scn := rfl
@[simp] theorem setCmp_frg : (setCmp f s).frg = s.frg := rfl
@[simp] theorem setCmp_mtx : (setCmp f s).mtx = s.mtx := rfl
@[simp] theorem setCmp_srv : (setCmp f s).srv = s.srv := rfl
@[simp] theorem setCmp_tng : (setCmp f s).tng = s.tng := rfl
@[simp] theorem setCmp_grn : (setCmp f s).grn = s.grn := rfl
@[simp] theorem setCmp_thm : (setCmp f s).thm = s.thm := rfl
@[simp] theorem setCmp_tmp : (setCmp f s).tmp = s.tmp := rfl
@[simp] theorem setCmp_bst : (setCmp f s).bst = s.bst := rfl
@[simp] theorem setCmp_brg : (setCmp f s).brg = s.brg := rfl
@[simp] theorem setCmp_sec : (setCmp f s).sec = s.sec := rfl

end

/-! ## setGrn -/

section
variable (f : Grn → Grn) (s : State)

@[simp] theorem setGrn_now : (setGrn f s).now = s.now := rfl
@[simp] theorem setGrn_pending : (setGrn f s).pending = s.pending := rfl
@[simp] theorem setGrn_free : (setGrn f s).free = s.free := rfl
@[simp] theorem setGrn_last : (setGrn f s).last = s.last := rfl
@[simp] theorem setGrn_readData : (setGrn f s).readData = s.readData := rfl
@[simp] theorem setGrn_eng : (setGrn f s).eng = s.eng := rfl
@[simp] theorem setGrn_otp : (setGrn f s).otp = s.otp := rfl
@[simp] theorem setGrn_flash : (setGrn f s).flash = s.flash := rfl
@[simp] theorem setGrn_hth : (setGrn f s).hth = s.hth := rfl
@[simp] theorem setGrn_hst : (setGrn f s).hst = s.hst := rfl
@[simp] theorem setGrn_evt : (setGrn f s).evt = s.evt := rfl
@[simp] theorem setGrn_ing : (setGrn f s).ing = s.ing := rfl
@[simp] theorem setGrn_cmp : (setGrn f s).cmp = s.cmp := rfl
@[simp] theorem setGrn_anv : (setGrn f s).anv = s.anv := rfl
@[simp] theorem setGrn_clw : (setGrn f s).clw = s.clw := rfl
@[simp] theorem setGrn_thr : (setGrn f s).thr = s.thr := rfl
@[simp] theorem setGrn_swt : (setGrn f s).swt = s.swt := rfl
@[simp] theorem setGrn_scn : (setGrn f s).scn = s.scn := rfl
@[simp] theorem setGrn_frg : (setGrn f s).frg = s.frg := rfl
@[simp] theorem setGrn_mtx : (setGrn f s).mtx = s.mtx := rfl
@[simp] theorem setGrn_srv : (setGrn f s).srv = s.srv := rfl
@[simp] theorem setGrn_tng : (setGrn f s).tng = s.tng := rfl
@[simp] theorem setGrn_grn : (setGrn f s).grn = f s.grn := rfl
@[simp] theorem setGrn_thm : (setGrn f s).thm = s.thm := rfl
@[simp] theorem setGrn_tmp : (setGrn f s).tmp = s.tmp := rfl
@[simp] theorem setGrn_bst : (setGrn f s).bst = s.bst := rfl
@[simp] theorem setGrn_brg : (setGrn f s).brg = s.brg := rfl
@[simp] theorem setGrn_sec : (setGrn f s).sec = s.sec := rfl

end

/-! ## setThm -/

section
variable (f : Thm → Thm) (s : State)

@[simp] theorem setThm_now : (setThm f s).now = s.now := rfl
@[simp] theorem setThm_pending : (setThm f s).pending = s.pending := rfl
@[simp] theorem setThm_free : (setThm f s).free = s.free := rfl
@[simp] theorem setThm_last : (setThm f s).last = s.last := rfl
@[simp] theorem setThm_readData : (setThm f s).readData = s.readData := rfl
@[simp] theorem setThm_eng : (setThm f s).eng = s.eng := rfl
@[simp] theorem setThm_otp : (setThm f s).otp = s.otp := rfl
@[simp] theorem setThm_flash : (setThm f s).flash = s.flash := rfl
@[simp] theorem setThm_hth : (setThm f s).hth = s.hth := rfl
@[simp] theorem setThm_hst : (setThm f s).hst = s.hst := rfl
@[simp] theorem setThm_evt : (setThm f s).evt = s.evt := rfl
@[simp] theorem setThm_ing : (setThm f s).ing = s.ing := rfl
@[simp] theorem setThm_cmp : (setThm f s).cmp = s.cmp := rfl
@[simp] theorem setThm_anv : (setThm f s).anv = s.anv := rfl
@[simp] theorem setThm_clw : (setThm f s).clw = s.clw := rfl
@[simp] theorem setThm_thr : (setThm f s).thr = s.thr := rfl
@[simp] theorem setThm_swt : (setThm f s).swt = s.swt := rfl
@[simp] theorem setThm_scn : (setThm f s).scn = s.scn := rfl
@[simp] theorem setThm_frg : (setThm f s).frg = s.frg := rfl
@[simp] theorem setThm_mtx : (setThm f s).mtx = s.mtx := rfl
@[simp] theorem setThm_srv : (setThm f s).srv = s.srv := rfl
@[simp] theorem setThm_tng : (setThm f s).tng = s.tng := rfl
@[simp] theorem setThm_grn : (setThm f s).grn = s.grn := rfl
@[simp] theorem setThm_thm : (setThm f s).thm = f s.thm := rfl
@[simp] theorem setThm_tmp : (setThm f s).tmp = s.tmp := rfl
@[simp] theorem setThm_bst : (setThm f s).bst = s.bst := rfl
@[simp] theorem setThm_brg : (setThm f s).brg = s.brg := rfl
@[simp] theorem setThm_sec : (setThm f s).sec = s.sec := rfl

end

/-! ## setBrg -/

section
variable (f : Brg → Brg) (s : State)

@[simp] theorem setBrg_now : (setBrg f s).now = s.now := rfl
@[simp] theorem setBrg_pending : (setBrg f s).pending = s.pending := rfl
@[simp] theorem setBrg_free : (setBrg f s).free = s.free := rfl
@[simp] theorem setBrg_last : (setBrg f s).last = s.last := rfl
@[simp] theorem setBrg_readData : (setBrg f s).readData = s.readData := rfl
@[simp] theorem setBrg_eng : (setBrg f s).eng = s.eng := rfl
@[simp] theorem setBrg_otp : (setBrg f s).otp = s.otp := rfl
@[simp] theorem setBrg_flash : (setBrg f s).flash = s.flash := rfl
@[simp] theorem setBrg_hth : (setBrg f s).hth = s.hth := rfl
@[simp] theorem setBrg_hst : (setBrg f s).hst = s.hst := rfl
@[simp] theorem setBrg_evt : (setBrg f s).evt = s.evt := rfl
@[simp] theorem setBrg_ing : (setBrg f s).ing = s.ing := rfl
@[simp] theorem setBrg_cmp : (setBrg f s).cmp = s.cmp := rfl
@[simp] theorem setBrg_anv : (setBrg f s).anv = s.anv := rfl
@[simp] theorem setBrg_clw : (setBrg f s).clw = s.clw := rfl
@[simp] theorem setBrg_thr : (setBrg f s).thr = s.thr := rfl
@[simp] theorem setBrg_swt : (setBrg f s).swt = s.swt := rfl
@[simp] theorem setBrg_scn : (setBrg f s).scn = s.scn := rfl
@[simp] theorem setBrg_frg : (setBrg f s).frg = s.frg := rfl
@[simp] theorem setBrg_mtx : (setBrg f s).mtx = s.mtx := rfl
@[simp] theorem setBrg_srv : (setBrg f s).srv = s.srv := rfl
@[simp] theorem setBrg_tng : (setBrg f s).tng = s.tng := rfl
@[simp] theorem setBrg_grn : (setBrg f s).grn = s.grn := rfl
@[simp] theorem setBrg_thm : (setBrg f s).thm = s.thm := rfl
@[simp] theorem setBrg_tmp : (setBrg f s).tmp = s.tmp := rfl
@[simp] theorem setBrg_bst : (setBrg f s).bst = s.bst := rfl
@[simp] theorem setBrg_brg : (setBrg f s).brg = f s.brg := rfl
@[simp] theorem setBrg_sec : (setBrg f s).sec = s.sec := rfl

end

/-! ## setHst -/

section
variable (f : Hst → Hst) (s : State)

@[simp] theorem setHst_now : (setHst f s).now = s.now := rfl
@[simp] theorem setHst_pending : (setHst f s).pending = s.pending := rfl
@[simp] theorem setHst_free : (setHst f s).free = s.free := rfl
@[simp] theorem setHst_last : (setHst f s).last = s.last := rfl
@[simp] theorem setHst_readData : (setHst f s).readData = s.readData := rfl
@[simp] theorem setHst_eng : (setHst f s).eng = s.eng := rfl
@[simp] theorem setHst_otp : (setHst f s).otp = s.otp := rfl
@[simp] theorem setHst_flash : (setHst f s).flash = s.flash := rfl
@[simp] theorem setHst_hth : (setHst f s).hth = s.hth := rfl
@[simp] theorem setHst_hst : (setHst f s).hst = f s.hst := rfl
@[simp] theorem setHst_evt : (setHst f s).evt = s.evt := rfl
@[simp] theorem setHst_ing : (setHst f s).ing = s.ing := rfl
@[simp] theorem setHst_cmp : (setHst f s).cmp = s.cmp := rfl
@[simp] theorem setHst_anv : (setHst f s).anv = s.anv := rfl
@[simp] theorem setHst_clw : (setHst f s).clw = s.clw := rfl
@[simp] theorem setHst_thr : (setHst f s).thr = s.thr := rfl
@[simp] theorem setHst_swt : (setHst f s).swt = s.swt := rfl
@[simp] theorem setHst_scn : (setHst f s).scn = s.scn := rfl
@[simp] theorem setHst_frg : (setHst f s).frg = s.frg := rfl
@[simp] theorem setHst_mtx : (setHst f s).mtx = s.mtx := rfl
@[simp] theorem setHst_srv : (setHst f s).srv = s.srv := rfl
@[simp] theorem setHst_tng : (setHst f s).tng = s.tng := rfl
@[simp] theorem setHst_grn : (setHst f s).grn = s.grn := rfl
@[simp] theorem setHst_thm : (setHst f s).thm = s.thm := rfl
@[simp] theorem setHst_tmp : (setHst f s).tmp = s.tmp := rfl
@[simp] theorem setHst_bst : (setHst f s).bst = s.bst := rfl
@[simp] theorem setHst_brg : (setHst f s).brg = s.brg := rfl
@[simp] theorem setHst_sec : (setHst f s).sec = s.sec := rfl

end

/-! ## setBst -/

section
variable (f : Bst → Bst) (s : State)

@[simp] theorem setBst_now : (setBst f s).now = s.now := rfl
@[simp] theorem setBst_pending : (setBst f s).pending = s.pending := rfl
@[simp] theorem setBst_free : (setBst f s).free = s.free := rfl
@[simp] theorem setBst_last : (setBst f s).last = s.last := rfl
@[simp] theorem setBst_readData : (setBst f s).readData = s.readData := rfl
@[simp] theorem setBst_eng : (setBst f s).eng = s.eng := rfl
@[simp] theorem setBst_otp : (setBst f s).otp = s.otp := rfl
@[simp] theorem setBst_flash : (setBst f s).flash = s.flash := rfl
@[simp] theorem setBst_hth : (setBst f s).hth = s.hth := rfl
@[simp] theorem setBst_hst : (setBst f s).hst = s.hst := rfl
@[simp] theorem setBst_evt : (setBst f s).evt = s.evt := rfl
@[simp] theorem setBst_ing : (setBst f s).ing = s.ing := rfl
@[simp] theorem setBst_cmp : (setBst f s).cmp = s.cmp := rfl
@[simp] theorem setBst_anv : (setBst f s).anv = s.anv := rfl
@[simp] theorem setBst_clw : (setBst f s).clw = s.clw := rfl
@[simp] theorem setBst_thr : (setBst f s).thr = s.thr := rfl
@[simp] theorem setBst_swt : (setBst f s).swt = s.swt := rfl
@[simp] theorem setBst_scn : (setBst f s).scn = s.scn := rfl
@[simp] theorem setBst_frg : (setBst f s).frg = s.frg := rfl
@[simp] theorem setBst_mtx : (setBst f s).mtx = s.mtx := rfl
@[simp] theorem setBst_srv : (setBst f s).srv = s.srv := rfl
@[simp] theorem setBst_tng : (setBst f s).tng = s.tng := rfl
@[simp] theorem setBst_grn : (setBst f s).grn = s.grn := rfl
@[simp] theorem setBst_thm : (setBst f s).thm = s.thm := rfl
@[simp] theorem setBst_tmp : (setBst f s).tmp = s.tmp := rfl
@[simp] theorem setBst_bst : (setBst f s).bst = f s.bst := rfl
@[simp] theorem setBst_brg : (setBst f s).brg = s.brg := rfl
@[simp] theorem setBst_sec : (setBst f s).sec = s.sec := rfl

end

/-! ## setSec -/

section
variable (f : Sec → Sec) (s : State)

@[simp] theorem setSec_now : (setSec f s).now = s.now := rfl
@[simp] theorem setSec_pending : (setSec f s).pending = s.pending := rfl
@[simp] theorem setSec_free : (setSec f s).free = s.free := rfl
@[simp] theorem setSec_last : (setSec f s).last = s.last := rfl
@[simp] theorem setSec_readData : (setSec f s).readData = s.readData := rfl
@[simp] theorem setSec_eng : (setSec f s).eng = s.eng := rfl
@[simp] theorem setSec_otp : (setSec f s).otp = s.otp := rfl
@[simp] theorem setSec_flash : (setSec f s).flash = s.flash := rfl
@[simp] theorem setSec_hth : (setSec f s).hth = s.hth := rfl
@[simp] theorem setSec_hst : (setSec f s).hst = s.hst := rfl
@[simp] theorem setSec_evt : (setSec f s).evt = s.evt := rfl
@[simp] theorem setSec_ing : (setSec f s).ing = s.ing := rfl
@[simp] theorem setSec_cmp : (setSec f s).cmp = s.cmp := rfl
@[simp] theorem setSec_anv : (setSec f s).anv = s.anv := rfl
@[simp] theorem setSec_clw : (setSec f s).clw = s.clw := rfl
@[simp] theorem setSec_thr : (setSec f s).thr = s.thr := rfl
@[simp] theorem setSec_swt : (setSec f s).swt = s.swt := rfl
@[simp] theorem setSec_scn : (setSec f s).scn = s.scn := rfl
@[simp] theorem setSec_frg : (setSec f s).frg = s.frg := rfl
@[simp] theorem setSec_mtx : (setSec f s).mtx = s.mtx := rfl
@[simp] theorem setSec_srv : (setSec f s).srv = s.srv := rfl
@[simp] theorem setSec_tng : (setSec f s).tng = s.tng := rfl
@[simp] theorem setSec_grn : (setSec f s).grn = s.grn := rfl
@[simp] theorem setSec_thm : (setSec f s).thm = s.thm := rfl
@[simp] theorem setSec_tmp : (setSec f s).tmp = s.tmp := rfl
@[simp] theorem setSec_bst : (setSec f s).bst = s.bst := rfl
@[simp] theorem setSec_brg : (setSec f s).brg = s.brg := rfl
@[simp] theorem setSec_sec : (setSec f s).sec = f s.sec := rfl

end

/-! ## setAnv -/

section
variable (f : Anv → Anv) (s : State)

@[simp] theorem setAnv_now : (setAnv f s).now = s.now := rfl
@[simp] theorem setAnv_pending : (setAnv f s).pending = s.pending := rfl
@[simp] theorem setAnv_free : (setAnv f s).free = s.free := rfl
@[simp] theorem setAnv_last : (setAnv f s).last = s.last := rfl
@[simp] theorem setAnv_readData : (setAnv f s).readData = s.readData := rfl
@[simp] theorem setAnv_eng : (setAnv f s).eng = s.eng := rfl
@[simp] theorem setAnv_otp : (setAnv f s).otp = s.otp := rfl
@[simp] theorem setAnv_flash : (setAnv f s).flash = s.flash := rfl
@[simp] theorem setAnv_hth : (setAnv f s).hth = s.hth := rfl
@[simp] theorem setAnv_hst : (setAnv f s).hst = s.hst := rfl
@[simp] theorem setAnv_evt : (setAnv f s).evt = s.evt := rfl
@[simp] theorem setAnv_ing : (setAnv f s).ing = s.ing := rfl
@[simp] theorem setAnv_cmp : (setAnv f s).cmp = s.cmp := rfl
@[simp] theorem setAnv_anv : (setAnv f s).anv = f s.anv := rfl
@[simp] theorem setAnv_clw : (setAnv f s).clw = s.clw := rfl
@[simp] theorem setAnv_thr : (setAnv f s).thr = s.thr := rfl
@[simp] theorem setAnv_swt : (setAnv f s).swt = s.swt := rfl
@[simp] theorem setAnv_scn : (setAnv f s).scn = s.scn := rfl
@[simp] theorem setAnv_frg : (setAnv f s).frg = s.frg := rfl
@[simp] theorem setAnv_mtx : (setAnv f s).mtx = s.mtx := rfl
@[simp] theorem setAnv_srv : (setAnv f s).srv = s.srv := rfl
@[simp] theorem setAnv_tng : (setAnv f s).tng = s.tng := rfl
@[simp] theorem setAnv_grn : (setAnv f s).grn = s.grn := rfl
@[simp] theorem setAnv_thm : (setAnv f s).thm = s.thm := rfl
@[simp] theorem setAnv_tmp : (setAnv f s).tmp = s.tmp := rfl
@[simp] theorem setAnv_bst : (setAnv f s).bst = s.bst := rfl
@[simp] theorem setAnv_brg : (setAnv f s).brg = s.brg := rfl
@[simp] theorem setAnv_sec : (setAnv f s).sec = s.sec := rfl

end

/-! ## setClw -/

section
variable (f : Clw → Clw) (s : State)

@[simp] theorem setClw_now : (setClw f s).now = s.now := rfl
@[simp] theorem setClw_pending : (setClw f s).pending = s.pending := rfl
@[simp] theorem setClw_free : (setClw f s).free = s.free := rfl
@[simp] theorem setClw_last : (setClw f s).last = s.last := rfl
@[simp] theorem setClw_readData : (setClw f s).readData = s.readData := rfl
@[simp] theorem setClw_eng : (setClw f s).eng = s.eng := rfl
@[simp] theorem setClw_otp : (setClw f s).otp = s.otp := rfl
@[simp] theorem setClw_flash : (setClw f s).flash = s.flash := rfl
@[simp] theorem setClw_hth : (setClw f s).hth = s.hth := rfl
@[simp] theorem setClw_hst : (setClw f s).hst = s.hst := rfl
@[simp] theorem setClw_evt : (setClw f s).evt = s.evt := rfl
@[simp] theorem setClw_ing : (setClw f s).ing = s.ing := rfl
@[simp] theorem setClw_cmp : (setClw f s).cmp = s.cmp := rfl
@[simp] theorem setClw_anv : (setClw f s).anv = s.anv := rfl
@[simp] theorem setClw_clw : (setClw f s).clw = f s.clw := rfl
@[simp] theorem setClw_thr : (setClw f s).thr = s.thr := rfl
@[simp] theorem setClw_swt : (setClw f s).swt = s.swt := rfl
@[simp] theorem setClw_scn : (setClw f s).scn = s.scn := rfl
@[simp] theorem setClw_frg : (setClw f s).frg = s.frg := rfl
@[simp] theorem setClw_mtx : (setClw f s).mtx = s.mtx := rfl
@[simp] theorem setClw_srv : (setClw f s).srv = s.srv := rfl
@[simp] theorem setClw_tng : (setClw f s).tng = s.tng := rfl
@[simp] theorem setClw_grn : (setClw f s).grn = s.grn := rfl
@[simp] theorem setClw_thm : (setClw f s).thm = s.thm := rfl
@[simp] theorem setClw_tmp : (setClw f s).tmp = s.tmp := rfl
@[simp] theorem setClw_bst : (setClw f s).bst = s.bst := rfl
@[simp] theorem setClw_brg : (setClw f s).brg = s.brg := rfl
@[simp] theorem setClw_sec : (setClw f s).sec = s.sec := rfl

end

/-! ## setThr -/

section
variable (f : Thr → Thr) (s : State)

@[simp] theorem setThr_now : (setThr f s).now = s.now := rfl
@[simp] theorem setThr_pending : (setThr f s).pending = s.pending := rfl
@[simp] theorem setThr_free : (setThr f s).free = s.free := rfl
@[simp] theorem setThr_last : (setThr f s).last = s.last := rfl
@[simp] theorem setThr_readData : (setThr f s).readData = s.readData := rfl
@[simp] theorem setThr_eng : (setThr f s).eng = s.eng := rfl
@[simp] theorem setThr_otp : (setThr f s).otp = s.otp := rfl
@[simp] theorem setThr_flash : (setThr f s).flash = s.flash := rfl
@[simp] theorem setThr_hth : (setThr f s).hth = s.hth := rfl
@[simp] theorem setThr_hst : (setThr f s).hst = s.hst := rfl
@[simp] theorem setThr_evt : (setThr f s).evt = s.evt := rfl
@[simp] theorem setThr_ing : (setThr f s).ing = s.ing := rfl
@[simp] theorem setThr_cmp : (setThr f s).cmp = s.cmp := rfl
@[simp] theorem setThr_anv : (setThr f s).anv = s.anv := rfl
@[simp] theorem setThr_clw : (setThr f s).clw = s.clw := rfl
@[simp] theorem setThr_thr : (setThr f s).thr = f s.thr := rfl
@[simp] theorem setThr_swt : (setThr f s).swt = s.swt := rfl
@[simp] theorem setThr_scn : (setThr f s).scn = s.scn := rfl
@[simp] theorem setThr_frg : (setThr f s).frg = s.frg := rfl
@[simp] theorem setThr_mtx : (setThr f s).mtx = s.mtx := rfl
@[simp] theorem setThr_srv : (setThr f s).srv = s.srv := rfl
@[simp] theorem setThr_tng : (setThr f s).tng = s.tng := rfl
@[simp] theorem setThr_grn : (setThr f s).grn = s.grn := rfl
@[simp] theorem setThr_thm : (setThr f s).thm = s.thm := rfl
@[simp] theorem setThr_tmp : (setThr f s).tmp = s.tmp := rfl
@[simp] theorem setThr_bst : (setThr f s).bst = s.bst := rfl
@[simp] theorem setThr_brg : (setThr f s).brg = s.brg := rfl
@[simp] theorem setThr_sec : (setThr f s).sec = s.sec := rfl

end

/-! ## setFrg -/

section
variable (f : Frg → Frg) (s : State)

@[simp] theorem setFrg_now : (setFrg f s).now = s.now := rfl
@[simp] theorem setFrg_pending : (setFrg f s).pending = s.pending := rfl
@[simp] theorem setFrg_free : (setFrg f s).free = s.free := rfl
@[simp] theorem setFrg_last : (setFrg f s).last = s.last := rfl
@[simp] theorem setFrg_readData : (setFrg f s).readData = s.readData := rfl
@[simp] theorem setFrg_eng : (setFrg f s).eng = s.eng := rfl
@[simp] theorem setFrg_otp : (setFrg f s).otp = s.otp := rfl
@[simp] theorem setFrg_flash : (setFrg f s).flash = s.flash := rfl
@[simp] theorem setFrg_hth : (setFrg f s).hth = s.hth := rfl
@[simp] theorem setFrg_hst : (setFrg f s).hst = s.hst := rfl
@[simp] theorem setFrg_evt : (setFrg f s).evt = s.evt := rfl
@[simp] theorem setFrg_ing : (setFrg f s).ing = s.ing := rfl
@[simp] theorem setFrg_cmp : (setFrg f s).cmp = s.cmp := rfl
@[simp] theorem setFrg_anv : (setFrg f s).anv = s.anv := rfl
@[simp] theorem setFrg_clw : (setFrg f s).clw = s.clw := rfl
@[simp] theorem setFrg_thr : (setFrg f s).thr = s.thr := rfl
@[simp] theorem setFrg_swt : (setFrg f s).swt = s.swt := rfl
@[simp] theorem setFrg_scn : (setFrg f s).scn = s.scn := rfl
@[simp] theorem setFrg_frg : (setFrg f s).frg = f s.frg := rfl
@[simp] theorem setFrg_mtx : (setFrg f s).mtx = s.mtx := rfl
@[simp] theorem setFrg_srv : (setFrg f s).srv = s.srv := rfl
@[simp] theorem setFrg_tng : (setFrg f s).tng = s.tng := rfl
@[simp] theorem setFrg_grn : (setFrg f s).grn = s.grn := rfl
@[simp] theorem setFrg_thm : (setFrg f s).thm = s.thm := rfl
@[simp] theorem setFrg_tmp : (setFrg f s).tmp = s.tmp := rfl
@[simp] theorem setFrg_bst : (setFrg f s).bst = s.bst := rfl
@[simp] theorem setFrg_brg : (setFrg f s).brg = s.brg := rfl
@[simp] theorem setFrg_sec : (setFrg f s).sec = s.sec := rfl

end

/-! ## setTmp -/

section
variable (f : Tmp → Tmp) (s : State)

@[simp] theorem setTmp_now : (setTmp f s).now = s.now := rfl
@[simp] theorem setTmp_pending : (setTmp f s).pending = s.pending := rfl
@[simp] theorem setTmp_free : (setTmp f s).free = s.free := rfl
@[simp] theorem setTmp_last : (setTmp f s).last = s.last := rfl
@[simp] theorem setTmp_readData : (setTmp f s).readData = s.readData := rfl
@[simp] theorem setTmp_eng : (setTmp f s).eng = s.eng := rfl
@[simp] theorem setTmp_otp : (setTmp f s).otp = s.otp := rfl
@[simp] theorem setTmp_flash : (setTmp f s).flash = s.flash := rfl
@[simp] theorem setTmp_hth : (setTmp f s).hth = s.hth := rfl
@[simp] theorem setTmp_hst : (setTmp f s).hst = s.hst := rfl
@[simp] theorem setTmp_evt : (setTmp f s).evt = s.evt := rfl
@[simp] theorem setTmp_ing : (setTmp f s).ing = s.ing := rfl
@[simp] theorem setTmp_cmp : (setTmp f s).cmp = s.cmp := rfl
@[simp] theorem setTmp_anv : (setTmp f s).anv = s.anv := rfl
@[simp] theorem setTmp_clw : (setTmp f s).clw = s.clw := rfl
@[simp] theorem setTmp_thr : (setTmp f s).thr = s.thr := rfl
@[simp] theorem setTmp_swt : (setTmp f s).swt = s.swt := rfl
@[simp] theorem setTmp_scn : (setTmp f s).scn = s.scn := rfl
@[simp] theorem setTmp_frg : (setTmp f s).frg = s.frg := rfl
@[simp] theorem setTmp_mtx : (setTmp f s).mtx = s.mtx := rfl
@[simp] theorem setTmp_srv : (setTmp f s).srv = s.srv := rfl
@[simp] theorem setTmp_tng : (setTmp f s).tng = s.tng := rfl
@[simp] theorem setTmp_grn : (setTmp f s).grn = s.grn := rfl
@[simp] theorem setTmp_thm : (setTmp f s).thm = s.thm := rfl
@[simp] theorem setTmp_tmp : (setTmp f s).tmp = f s.tmp := rfl
@[simp] theorem setTmp_bst : (setTmp f s).bst = s.bst := rfl
@[simp] theorem setTmp_brg : (setTmp f s).brg = s.brg := rfl
@[simp] theorem setTmp_sec : (setTmp f s).sec = s.sec := rfl

end

/-! ## setMtx -/

section
variable (f : Mtx → Mtx) (s : State)

@[simp] theorem setMtx_now : (setMtx f s).now = s.now := rfl
@[simp] theorem setMtx_pending : (setMtx f s).pending = s.pending := rfl
@[simp] theorem setMtx_free : (setMtx f s).free = s.free := rfl
@[simp] theorem setMtx_last : (setMtx f s).last = s.last := rfl
@[simp] theorem setMtx_readData : (setMtx f s).readData = s.readData := rfl
@[simp] theorem setMtx_eng : (setMtx f s).eng = s.eng := rfl
@[simp] theorem setMtx_otp : (setMtx f s).otp = s.otp := rfl
@[simp] theorem setMtx_flash : (setMtx f s).flash = s.flash := rfl
@[simp] theorem setMtx_hth : (setMtx f s).hth = s.hth := rfl
@[simp] theorem setMtx_hst : (setMtx f s).hst = s.hst := rfl
@[simp] theorem setMtx_evt : (setMtx f s).evt = s.evt := rfl
@[simp] theorem setMtx_ing : (setMtx f s).ing = s.ing := rfl
@[simp] theorem setMtx_cmp : (setMtx f s).cmp = s.cmp := rfl
@[simp] theorem setMtx_anv : (setMtx f s).anv = s.anv := rfl
@[simp] theorem setMtx_clw : (setMtx f s).clw = s.clw := rfl
@[simp] theorem setMtx_thr : (setMtx f s).thr = s.thr := rfl
@[simp] theorem setMtx_swt : (setMtx f s).swt = s.swt := rfl
@[simp] theorem setMtx_scn : (setMtx f s).scn = s.scn := rfl
@[simp] theorem setMtx_frg : (setMtx f s).frg = s.frg := rfl
@[simp] theorem setMtx_mtx : (setMtx f s).mtx = f s.mtx := rfl
@[simp] theorem setMtx_srv : (setMtx f s).srv = s.srv := rfl
@[simp] theorem setMtx_tng : (setMtx f s).tng = s.tng := rfl
@[simp] theorem setMtx_grn : (setMtx f s).grn = s.grn := rfl
@[simp] theorem setMtx_thm : (setMtx f s).thm = s.thm := rfl
@[simp] theorem setMtx_tmp : (setMtx f s).tmp = s.tmp := rfl
@[simp] theorem setMtx_bst : (setMtx f s).bst = s.bst := rfl
@[simp] theorem setMtx_brg : (setMtx f s).brg = s.brg := rfl
@[simp] theorem setMtx_sec : (setMtx f s).sec = s.sec := rfl

end

/-! ## setSrv -/

section
variable (f : Srv → Srv) (s : State)

@[simp] theorem setSrv_now : (setSrv f s).now = s.now := rfl
@[simp] theorem setSrv_pending : (setSrv f s).pending = s.pending := rfl
@[simp] theorem setSrv_free : (setSrv f s).free = s.free := rfl
@[simp] theorem setSrv_last : (setSrv f s).last = s.last := rfl
@[simp] theorem setSrv_readData : (setSrv f s).readData = s.readData := rfl
@[simp] theorem setSrv_eng : (setSrv f s).eng = s.eng := rfl
@[simp] theorem setSrv_otp : (setSrv f s).otp = s.otp := rfl
@[simp] theorem setSrv_flash : (setSrv f s).flash = s.flash := rfl
@[simp] theorem setSrv_hth : (setSrv f s).hth = s.hth := rfl
@[simp] theorem setSrv_hst : (setSrv f s).hst = s.hst := rfl
@[simp] theorem setSrv_evt : (setSrv f s).evt = s.evt := rfl
@[simp] theorem setSrv_ing : (setSrv f s).ing = s.ing := rfl
@[simp] theorem setSrv_cmp : (setSrv f s).cmp = s.cmp := rfl
@[simp] theorem setSrv_anv : (setSrv f s).anv = s.anv := rfl
@[simp] theorem setSrv_clw : (setSrv f s).clw = s.clw := rfl
@[simp] theorem setSrv_thr : (setSrv f s).thr = s.thr := rfl
@[simp] theorem setSrv_swt : (setSrv f s).swt = s.swt := rfl
@[simp] theorem setSrv_scn : (setSrv f s).scn = s.scn := rfl
@[simp] theorem setSrv_frg : (setSrv f s).frg = s.frg := rfl
@[simp] theorem setSrv_mtx : (setSrv f s).mtx = s.mtx := rfl
@[simp] theorem setSrv_srv : (setSrv f s).srv = f s.srv := rfl
@[simp] theorem setSrv_tng : (setSrv f s).tng = s.tng := rfl
@[simp] theorem setSrv_grn : (setSrv f s).grn = s.grn := rfl
@[simp] theorem setSrv_thm : (setSrv f s).thm = s.thm := rfl
@[simp] theorem setSrv_tmp : (setSrv f s).tmp = s.tmp := rfl
@[simp] theorem setSrv_bst : (setSrv f s).bst = s.bst := rfl
@[simp] theorem setSrv_brg : (setSrv f s).brg = s.brg := rfl
@[simp] theorem setSrv_sec : (setSrv f s).sec = s.sec := rfl

end

/-! ## at -/

section
variable (t : Time) (s : State)

@[simp] theorem State_at_now : (s.at t).now = max s.now t := rfl
@[simp] theorem State_at_pending : (s.at t).pending = s.pending := rfl
@[simp] theorem State_at_free : (s.at t).free = s.free := rfl
@[simp] theorem State_at_last : (s.at t).last = s.last := rfl
@[simp] theorem State_at_readData : (s.at t).readData = s.readData := rfl
@[simp] theorem State_at_eng : (s.at t).eng = s.eng := rfl
@[simp] theorem State_at_otp : (s.at t).otp = s.otp := rfl
@[simp] theorem State_at_flash : (s.at t).flash = s.flash := rfl
@[simp] theorem State_at_hth : (s.at t).hth = s.hth := rfl
@[simp] theorem State_at_hst : (s.at t).hst = s.hst := rfl
@[simp] theorem State_at_evt : (s.at t).evt = s.evt := rfl
@[simp] theorem State_at_ing : (s.at t).ing = s.ing := rfl
@[simp] theorem State_at_cmp : (s.at t).cmp = s.cmp := rfl
@[simp] theorem State_at_anv : (s.at t).anv = s.anv := rfl
@[simp] theorem State_at_clw : (s.at t).clw = s.clw := rfl
@[simp] theorem State_at_thr : (s.at t).thr = s.thr := rfl
@[simp] theorem State_at_swt : (s.at t).swt = s.swt := rfl
@[simp] theorem State_at_scn : (s.at t).scn = s.scn := rfl
@[simp] theorem State_at_frg : (s.at t).frg = s.frg := rfl
@[simp] theorem State_at_mtx : (s.at t).mtx = s.mtx := rfl
@[simp] theorem State_at_srv : (s.at t).srv = s.srv := rfl
@[simp] theorem State_at_tng : (s.at t).tng = s.tng := rfl
@[simp] theorem State_at_grn : (s.at t).grn = s.grn := rfl
@[simp] theorem State_at_thm : (s.at t).thm = s.thm := rfl
@[simp] theorem State_at_tmp : (s.at t).tmp = s.tmp := rfl
@[simp] theorem State_at_bst : (s.at t).bst = s.bst := rfl
@[simp] theorem State_at_brg : (s.at t).brg = s.brg := rfl
@[simp] theorem State_at_sec : (s.at t).sec = s.sec := rfl

end

/-! ## fresh -/

section
variable (s : State)

@[simp] theorem State_fresh_now : (s.fresh.2).now = s.now := rfl
@[simp] theorem State_fresh_pending : (s.fresh.2).pending = s.pending := rfl
@[simp] theorem State_fresh_free : (s.fresh.2).free = s.free + 1 := rfl
@[simp] theorem State_fresh_last : (s.fresh.2).last = s.last := rfl
@[simp] theorem State_fresh_readData : (s.fresh.2).readData = s.readData := rfl
@[simp] theorem State_fresh_eng : (s.fresh.2).eng = s.eng := rfl
@[simp] theorem State_fresh_otp : (s.fresh.2).otp = s.otp := rfl
@[simp] theorem State_fresh_flash : (s.fresh.2).flash = s.flash := rfl
@[simp] theorem State_fresh_hth : (s.fresh.2).hth = s.hth := rfl
@[simp] theorem State_fresh_hst : (s.fresh.2).hst = s.hst := rfl
@[simp] theorem State_fresh_evt : (s.fresh.2).evt = s.evt := rfl
@[simp] theorem State_fresh_ing : (s.fresh.2).ing = s.ing := rfl
@[simp] theorem State_fresh_cmp : (s.fresh.2).cmp = s.cmp := rfl
@[simp] theorem State_fresh_anv : (s.fresh.2).anv = s.anv := rfl
@[simp] theorem State_fresh_clw : (s.fresh.2).clw = s.clw := rfl
@[simp] theorem State_fresh_thr : (s.fresh.2).thr = s.thr := rfl
@[simp] theorem State_fresh_swt : (s.fresh.2).swt = s.swt := rfl
@[simp] theorem State_fresh_scn : (s.fresh.2).scn = s.scn := rfl
@[simp] theorem State_fresh_frg : (s.fresh.2).frg = s.frg := rfl
@[simp] theorem State_fresh_mtx : (s.fresh.2).mtx = s.mtx := rfl
@[simp] theorem State_fresh_srv : (s.fresh.2).srv = s.srv := rfl
@[simp] theorem State_fresh_tng : (s.fresh.2).tng = s.tng := rfl
@[simp] theorem State_fresh_grn : (s.fresh.2).grn = s.grn := rfl
@[simp] theorem State_fresh_thm : (s.fresh.2).thm = s.thm := rfl
@[simp] theorem State_fresh_tmp : (s.fresh.2).tmp = s.tmp := rfl
@[simp] theorem State_fresh_bst : (s.fresh.2).bst = s.bst := rfl
@[simp] theorem State_fresh_brg : (s.fresh.2).brg = s.brg := rfl
@[simp] theorem State_fresh_sec : (s.fresh.2).sec = s.sec := rfl

end

/-! ## raise -/

section
variable (id d : Nat) (s : State)

@[simp] theorem raise_now : (raise id d s).now = s.now := rfl
@[simp] theorem raise_pending : (raise id d s).pending = s.pending := rfl
@[simp] theorem raise_free : (raise id d s).free = s.free := rfl
@[simp] theorem raise_last : (raise id d s).last = s.last := rfl
@[simp] theorem raise_readData : (raise id d s).readData = s.readData := rfl
@[simp] theorem raise_eng : (raise id d s).eng = s.eng := rfl
@[simp] theorem raise_otp : (raise id d s).otp = s.otp := rfl
@[simp] theorem raise_flash : (raise id d s).flash = s.flash := rfl
@[simp] theorem raise_hth : (raise id d s).hth = s.hth := rfl
@[simp] theorem raise_hst : (raise id d s).hst = s.hst := rfl
@[simp] theorem raise_ing : (raise id d s).ing = s.ing := rfl
@[simp] theorem raise_cmp : (raise id d s).cmp = s.cmp := rfl
@[simp] theorem raise_anv : (raise id d s).anv = s.anv := rfl
@[simp] theorem raise_clw : (raise id d s).clw = s.clw := rfl
@[simp] theorem raise_thr : (raise id d s).thr = s.thr := rfl
@[simp] theorem raise_swt : (raise id d s).swt = s.swt := rfl
@[simp] theorem raise_scn : (raise id d s).scn = s.scn := rfl
@[simp] theorem raise_frg : (raise id d s).frg = s.frg := rfl
@[simp] theorem raise_mtx : (raise id d s).mtx = s.mtx := rfl
@[simp] theorem raise_srv : (raise id d s).srv = s.srv := rfl
@[simp] theorem raise_tng : (raise id d s).tng = s.tng := rfl
@[simp] theorem raise_grn : (raise id d s).grn = s.grn := rfl
@[simp] theorem raise_thm : (raise id d s).thm = s.thm := rfl
@[simp] theorem raise_tmp : (raise id d s).tmp = s.tmp := rfl
@[simp] theorem raise_bst : (raise id d s).bst = s.bst := rfl
@[simp] theorem raise_brg : (raise id d s).brg = s.brg := rfl
@[simp] theorem raise_sec : (raise id d s).sec = s.sec := rfl

end

/-! ## takeReq -/

section
variable (q : Req) (s : State)

@[simp] theorem takeReq_now : (takeReq q s).now = s.now := rfl
@[simp] theorem takeReq_pending : (takeReq q s).pending = s.pending := rfl
@[simp] theorem takeReq_free : (takeReq q s).free = s.free := rfl
@[simp] theorem takeReq_last : (takeReq q s).last = s.last := rfl
@[simp] theorem takeReq_readData : (takeReq q s).readData = s.readData := rfl
@[simp] theorem takeReq_eng : (takeReq q s).eng = s.eng := rfl
@[simp] theorem takeReq_otp : (takeReq q s).otp = s.otp := rfl
@[simp] theorem takeReq_flash : (takeReq q s).flash = s.flash := rfl
@[simp] theorem takeReq_hth : (takeReq q s).hth = s.hth := rfl
@[simp] theorem takeReq_evt : (takeReq q s).evt = s.evt := rfl
@[simp] theorem takeReq_ing : (takeReq q s).ing = s.ing := rfl
@[simp] theorem takeReq_cmp : (takeReq q s).cmp = s.cmp := rfl
@[simp] theorem takeReq_anv : (takeReq q s).anv = s.anv := rfl
@[simp] theorem takeReq_clw : (takeReq q s).clw = s.clw := rfl
@[simp] theorem takeReq_thr : (takeReq q s).thr = s.thr := rfl
@[simp] theorem takeReq_swt : (takeReq q s).swt = s.swt := rfl
@[simp] theorem takeReq_scn : (takeReq q s).scn = s.scn := rfl
@[simp] theorem takeReq_frg : (takeReq q s).frg = s.frg := rfl
@[simp] theorem takeReq_mtx : (takeReq q s).mtx = s.mtx := rfl
@[simp] theorem takeReq_srv : (takeReq q s).srv = s.srv := rfl
@[simp] theorem takeReq_tng : (takeReq q s).tng = s.tng := rfl
@[simp] theorem takeReq_grn : (takeReq q s).grn = s.grn := rfl
@[simp] theorem takeReq_thm : (takeReq q s).thm = s.thm := rfl
@[simp] theorem takeReq_tmp : (takeReq q s).tmp = s.tmp := rfl
@[simp] theorem takeReq_bst : (takeReq q s).bst = s.bst := rfl
@[simp] theorem takeReq_brg : (takeReq q s).brg = s.brg := rfl
@[simp] theorem takeReq_sec : (takeReq q s).sec = s.sec := rfl

end

/-! ## enqueue -/

section
variable (q : Req) (s : State)

@[simp] theorem enqueue_now : (enqueue q s).now = s.now := rfl
@[simp] theorem enqueue_pending : (enqueue q s).pending = s.pending := rfl
@[simp] theorem enqueue_free : (enqueue q s).free = s.free := rfl
@[simp] theorem enqueue_last : (enqueue q s).last = s.last := rfl
@[simp] theorem enqueue_readData : (enqueue q s).readData = s.readData := rfl
@[simp] theorem enqueue_eng : (enqueue q s).eng = s.eng := rfl
@[simp] theorem enqueue_otp : (enqueue q s).otp = s.otp := rfl
@[simp] theorem enqueue_flash : (enqueue q s).flash = s.flash := rfl
@[simp] theorem enqueue_hth : (enqueue q s).hth = s.hth := rfl
@[simp] theorem enqueue_evt : (enqueue q s).evt = s.evt := rfl
@[simp] theorem enqueue_ing : (enqueue q s).ing = s.ing := rfl
@[simp] theorem enqueue_cmp : (enqueue q s).cmp = s.cmp := rfl
@[simp] theorem enqueue_anv : (enqueue q s).anv = s.anv := rfl
@[simp] theorem enqueue_clw : (enqueue q s).clw = s.clw := rfl
@[simp] theorem enqueue_thr : (enqueue q s).thr = s.thr := rfl
@[simp] theorem enqueue_swt : (enqueue q s).swt = s.swt := rfl
@[simp] theorem enqueue_scn : (enqueue q s).scn = s.scn := rfl
@[simp] theorem enqueue_frg : (enqueue q s).frg = s.frg := rfl
@[simp] theorem enqueue_mtx : (enqueue q s).mtx = s.mtx := rfl
@[simp] theorem enqueue_srv : (enqueue q s).srv = s.srv := rfl
@[simp] theorem enqueue_tng : (enqueue q s).tng = s.tng := rfl
@[simp] theorem enqueue_grn : (enqueue q s).grn = s.grn := rfl
@[simp] theorem enqueue_thm : (enqueue q s).thm = s.thm := rfl
@[simp] theorem enqueue_tmp : (enqueue q s).tmp = s.tmp := rfl
@[simp] theorem enqueue_bst : (enqueue q s).bst = s.bst := rfl
@[simp] theorem enqueue_brg : (enqueue q s).brg = s.brg := rfl
@[simp] theorem enqueue_sec : (enqueue q s).sec = s.sec := rfl

end

/-! ## wakeHearth -/

section
variable (s : State)

@[simp] theorem wakeHearth_now : (wakeHearth s).now = s.now := rfl
@[simp] theorem wakeHearth_pending : (wakeHearth s).pending = s.pending := rfl
@[simp] theorem wakeHearth_free : (wakeHearth s).free = s.free := rfl
@[simp] theorem wakeHearth_last : (wakeHearth s).last = s.last := rfl
@[simp] theorem wakeHearth_readData : (wakeHearth s).readData = s.readData := rfl
@[simp] theorem wakeHearth_eng : (wakeHearth s).eng = s.eng := rfl
@[simp] theorem wakeHearth_otp : (wakeHearth s).otp = s.otp := rfl
@[simp] theorem wakeHearth_flash : (wakeHearth s).flash = s.flash := rfl
@[simp] theorem wakeHearth_hst : (wakeHearth s).hst = s.hst := rfl
@[simp] theorem wakeHearth_evt : (wakeHearth s).evt = s.evt := rfl
@[simp] theorem wakeHearth_ing : (wakeHearth s).ing = s.ing := rfl
@[simp] theorem wakeHearth_cmp : (wakeHearth s).cmp = s.cmp := rfl
@[simp] theorem wakeHearth_anv : (wakeHearth s).anv = s.anv := rfl
@[simp] theorem wakeHearth_clw : (wakeHearth s).clw = s.clw := rfl
@[simp] theorem wakeHearth_thr : (wakeHearth s).thr = s.thr := rfl
@[simp] theorem wakeHearth_swt : (wakeHearth s).swt = s.swt := rfl
@[simp] theorem wakeHearth_scn : (wakeHearth s).scn = s.scn := rfl
@[simp] theorem wakeHearth_frg : (wakeHearth s).frg = s.frg := rfl
@[simp] theorem wakeHearth_mtx : (wakeHearth s).mtx = s.mtx := rfl
@[simp] theorem wakeHearth_srv : (wakeHearth s).srv = s.srv := rfl
@[simp] theorem wakeHearth_tng : (wakeHearth s).tng = s.tng := rfl
@[simp] theorem wakeHearth_grn : (wakeHearth s).grn = s.grn := rfl
@[simp] theorem wakeHearth_thm : (wakeHearth s).thm = s.thm := rfl
@[simp] theorem wakeHearth_tmp : (wakeHearth s).tmp = s.tmp := rfl
@[simp] theorem wakeHearth_bst : (wakeHearth s).bst = s.bst := rfl
@[simp] theorem wakeHearth_brg : (wakeHearth s).brg = s.brg := rfl
@[simp] theorem wakeHearth_sec : (wakeHearth s).sec = s.sec := rfl

end

/-! ## writeFence -/

section
variable (n : Fin 16) (v : Word) (s : State)

@[simp] theorem writeFence_now : (writeFence n v s).now = s.now := rfl
@[simp] theorem writeFence_pending : (writeFence n v s).pending = s.pending := rfl
@[simp] theorem writeFence_free : (writeFence n v s).free = s.free := rfl
@[simp] theorem writeFence_last : (writeFence n v s).last = s.last := rfl
@[simp] theorem writeFence_readData : (writeFence n v s).readData = s.readData := rfl
@[simp] theorem writeFence_eng : (writeFence n v s).eng = s.eng := rfl
@[simp] theorem writeFence_otp : (writeFence n v s).otp = s.otp := rfl
@[simp] theorem writeFence_flash : (writeFence n v s).flash = s.flash := rfl
@[simp] theorem writeFence_hth : (writeFence n v s).hth = s.hth := rfl
@[simp] theorem writeFence_hst : (writeFence n v s).hst = s.hst := rfl
@[simp] theorem writeFence_evt : (writeFence n v s).evt = s.evt := rfl
@[simp] theorem writeFence_ing : (writeFence n v s).ing = s.ing := rfl
@[simp] theorem writeFence_anv : (writeFence n v s).anv = s.anv := rfl
@[simp] theorem writeFence_clw : (writeFence n v s).clw = s.clw := rfl
@[simp] theorem writeFence_thr : (writeFence n v s).thr = s.thr := rfl
@[simp] theorem writeFence_swt : (writeFence n v s).swt = s.swt := rfl
@[simp] theorem writeFence_scn : (writeFence n v s).scn = s.scn := rfl
@[simp] theorem writeFence_frg : (writeFence n v s).frg = s.frg := rfl
@[simp] theorem writeFence_mtx : (writeFence n v s).mtx = s.mtx := rfl
@[simp] theorem writeFence_srv : (writeFence n v s).srv = s.srv := rfl
@[simp] theorem writeFence_tng : (writeFence n v s).tng = s.tng := rfl
@[simp] theorem writeFence_grn : (writeFence n v s).grn = s.grn := rfl
@[simp] theorem writeFence_thm : (writeFence n v s).thm = s.thm := rfl
@[simp] theorem writeFence_tmp : (writeFence n v s).tmp = s.tmp := rfl
@[simp] theorem writeFence_bst : (writeFence n v s).bst = s.bst := rfl
@[simp] theorem writeFence_brg : (writeFence n v s).brg = s.brg := rfl
@[simp] theorem writeFence_sec : (writeFence n v s).sec = s.sec := rfl

end

/-! ## setDp -/

section
variable (i : Fin 2) (f : Dp → Dp) (s : State)

@[simp] theorem setDp_now : (setDp i f s).now = s.now := rfl
@[simp] theorem setDp_pending : (setDp i f s).pending = s.pending := rfl
@[simp] theorem setDp_free : (setDp i f s).free = s.free := rfl
@[simp] theorem setDp_last : (setDp i f s).last = s.last := rfl
@[simp] theorem setDp_readData : (setDp i f s).readData = s.readData := rfl
@[simp] theorem setDp_eng : (setDp i f s).eng = s.eng := rfl
@[simp] theorem setDp_otp : (setDp i f s).otp = s.otp := rfl
@[simp] theorem setDp_flash : (setDp i f s).flash = s.flash := rfl
@[simp] theorem setDp_hth : (setDp i f s).hth = s.hth := rfl
@[simp] theorem setDp_hst : (setDp i f s).hst = s.hst := rfl
@[simp] theorem setDp_evt : (setDp i f s).evt = s.evt := rfl
@[simp] theorem setDp_cmp : (setDp i f s).cmp = s.cmp := rfl
@[simp] theorem setDp_anv : (setDp i f s).anv = s.anv := rfl
@[simp] theorem setDp_clw : (setDp i f s).clw = s.clw := rfl
@[simp] theorem setDp_thr : (setDp i f s).thr = s.thr := rfl
@[simp] theorem setDp_swt : (setDp i f s).swt = s.swt := rfl
@[simp] theorem setDp_scn : (setDp i f s).scn = s.scn := rfl
@[simp] theorem setDp_frg : (setDp i f s).frg = s.frg := rfl
@[simp] theorem setDp_mtx : (setDp i f s).mtx = s.mtx := rfl
@[simp] theorem setDp_srv : (setDp i f s).srv = s.srv := rfl
@[simp] theorem setDp_tng : (setDp i f s).tng = s.tng := rfl
@[simp] theorem setDp_grn : (setDp i f s).grn = s.grn := rfl
@[simp] theorem setDp_thm : (setDp i f s).thm = s.thm := rfl
@[simp] theorem setDp_tmp : (setDp i f s).tmp = s.tmp := rfl
@[simp] theorem setDp_bst : (setDp i f s).bst = s.bst := rfl
@[simp] theorem setDp_brg : (setDp i f s).brg = s.brg := rfl
@[simp] theorem setDp_sec : (setDp i f s).sec = s.sec := rfl

end

/-! ## setSwt -/

section
variable (e : Fin 4) (f : SwtEng → SwtEng) (s : State)

@[simp] theorem setSwt_now : (setSwt e f s).now = s.now := rfl
@[simp] theorem setSwt_pending : (setSwt e f s).pending = s.pending := rfl
@[simp] theorem setSwt_free : (setSwt e f s).free = s.free := rfl
@[simp] theorem setSwt_last : (setSwt e f s).last = s.last := rfl
@[simp] theorem setSwt_readData : (setSwt e f s).readData = s.readData := rfl
@[simp] theorem setSwt_eng : (setSwt e f s).eng = s.eng := rfl
@[simp] theorem setSwt_otp : (setSwt e f s).otp = s.otp := rfl
@[simp] theorem setSwt_flash : (setSwt e f s).flash = s.flash := rfl
@[simp] theorem setSwt_hth : (setSwt e f s).hth = s.hth := rfl
@[simp] theorem setSwt_hst : (setSwt e f s).hst = s.hst := rfl
@[simp] theorem setSwt_evt : (setSwt e f s).evt = s.evt := rfl
@[simp] theorem setSwt_ing : (setSwt e f s).ing = s.ing := rfl
@[simp] theorem setSwt_cmp : (setSwt e f s).cmp = s.cmp := rfl
@[simp] theorem setSwt_anv : (setSwt e f s).anv = s.anv := rfl
@[simp] theorem setSwt_clw : (setSwt e f s).clw = s.clw := rfl
@[simp] theorem setSwt_thr : (setSwt e f s).thr = s.thr := rfl
@[simp] theorem setSwt_swt : (setSwt e f s).swt = updWith s.swt e f := rfl
@[simp] theorem setSwt_scn : (setSwt e f s).scn = s.scn := rfl
@[simp] theorem setSwt_frg : (setSwt e f s).frg = s.frg := rfl
@[simp] theorem setSwt_mtx : (setSwt e f s).mtx = s.mtx := rfl
@[simp] theorem setSwt_srv : (setSwt e f s).srv = s.srv := rfl
@[simp] theorem setSwt_tng : (setSwt e f s).tng = s.tng := rfl
@[simp] theorem setSwt_grn : (setSwt e f s).grn = s.grn := rfl
@[simp] theorem setSwt_thm : (setSwt e f s).thm = s.thm := rfl
@[simp] theorem setSwt_tmp : (setSwt e f s).tmp = s.tmp := rfl
@[simp] theorem setSwt_bst : (setSwt e f s).bst = s.bst := rfl
@[simp] theorem setSwt_brg : (setSwt e f s).brg = s.brg := rfl
@[simp] theorem setSwt_sec : (setSwt e f s).sec = s.sec := rfl

end

/-! ## setScn -/

section
variable (e : Fin 4) (f : ScnEng → ScnEng) (s : State)

@[simp] theorem setScn_now : (setScn e f s).now = s.now := rfl
@[simp] theorem setScn_pending : (setScn e f s).pending = s.pending := rfl
@[simp] theorem setScn_free : (setScn e f s).free = s.free := rfl
@[simp] theorem setScn_last : (setScn e f s).last = s.last := rfl
@[simp] theorem setScn_readData : (setScn e f s).readData = s.readData := rfl
@[simp] theorem setScn_eng : (setScn e f s).eng = s.eng := rfl
@[simp] theorem setScn_otp : (setScn e f s).otp = s.otp := rfl
@[simp] theorem setScn_flash : (setScn e f s).flash = s.flash := rfl
@[simp] theorem setScn_hth : (setScn e f s).hth = s.hth := rfl
@[simp] theorem setScn_hst : (setScn e f s).hst = s.hst := rfl
@[simp] theorem setScn_evt : (setScn e f s).evt = s.evt := rfl
@[simp] theorem setScn_ing : (setScn e f s).ing = s.ing := rfl
@[simp] theorem setScn_cmp : (setScn e f s).cmp = s.cmp := rfl
@[simp] theorem setScn_anv : (setScn e f s).anv = s.anv := rfl
@[simp] theorem setScn_clw : (setScn e f s).clw = s.clw := rfl
@[simp] theorem setScn_thr : (setScn e f s).thr = s.thr := rfl
@[simp] theorem setScn_swt : (setScn e f s).swt = s.swt := rfl
@[simp] theorem setScn_scn : (setScn e f s).scn = updWith s.scn e f := rfl
@[simp] theorem setScn_frg : (setScn e f s).frg = s.frg := rfl
@[simp] theorem setScn_mtx : (setScn e f s).mtx = s.mtx := rfl
@[simp] theorem setScn_srv : (setScn e f s).srv = s.srv := rfl
@[simp] theorem setScn_tng : (setScn e f s).tng = s.tng := rfl
@[simp] theorem setScn_grn : (setScn e f s).grn = s.grn := rfl
@[simp] theorem setScn_thm : (setScn e f s).thm = s.thm := rfl
@[simp] theorem setScn_tmp : (setScn e f s).tmp = s.tmp := rfl
@[simp] theorem setScn_bst : (setScn e f s).bst = s.bst := rfl
@[simp] theorem setScn_brg : (setScn e f s).brg = s.brg := rfl
@[simp] theorem setScn_sec : (setScn e f s).sec = s.sec := rfl

end

/-! ## setThrE -/

section
variable (e : Fin 4) (f : ThrEng → ThrEng) (s : State)

@[simp] theorem setThrE_now : (setThrE e f s).now = s.now := rfl
@[simp] theorem setThrE_pending : (setThrE e f s).pending = s.pending := rfl
@[simp] theorem setThrE_free : (setThrE e f s).free = s.free := rfl
@[simp] theorem setThrE_last : (setThrE e f s).last = s.last := rfl
@[simp] theorem setThrE_readData : (setThrE e f s).readData = s.readData := rfl
@[simp] theorem setThrE_eng : (setThrE e f s).eng = s.eng := rfl
@[simp] theorem setThrE_otp : (setThrE e f s).otp = s.otp := rfl
@[simp] theorem setThrE_flash : (setThrE e f s).flash = s.flash := rfl
@[simp] theorem setThrE_hth : (setThrE e f s).hth = s.hth := rfl
@[simp] theorem setThrE_hst : (setThrE e f s).hst = s.hst := rfl
@[simp] theorem setThrE_evt : (setThrE e f s).evt = s.evt := rfl
@[simp] theorem setThrE_ing : (setThrE e f s).ing = s.ing := rfl
@[simp] theorem setThrE_cmp : (setThrE e f s).cmp = s.cmp := rfl
@[simp] theorem setThrE_anv : (setThrE e f s).anv = s.anv := rfl
@[simp] theorem setThrE_clw : (setThrE e f s).clw = s.clw := rfl
@[simp] theorem setThrE_swt : (setThrE e f s).swt = s.swt := rfl
@[simp] theorem setThrE_scn : (setThrE e f s).scn = s.scn := rfl
@[simp] theorem setThrE_frg : (setThrE e f s).frg = s.frg := rfl
@[simp] theorem setThrE_mtx : (setThrE e f s).mtx = s.mtx := rfl
@[simp] theorem setThrE_srv : (setThrE e f s).srv = s.srv := rfl
@[simp] theorem setThrE_tng : (setThrE e f s).tng = s.tng := rfl
@[simp] theorem setThrE_grn : (setThrE e f s).grn = s.grn := rfl
@[simp] theorem setThrE_thm : (setThrE e f s).thm = s.thm := rfl
@[simp] theorem setThrE_tmp : (setThrE e f s).tmp = s.tmp := rfl
@[simp] theorem setThrE_bst : (setThrE e f s).bst = s.bst := rfl
@[simp] theorem setThrE_brg : (setThrE e f s).brg = s.brg := rfl
@[simp] theorem setThrE_sec : (setThrE e f s).sec = s.sec := rfl

end

/-! ## setFrgE -/

section
variable (e : Fin 4) (f : FrgEng → FrgEng) (s : State)

@[simp] theorem setFrgE_now : (setFrgE e f s).now = s.now := rfl
@[simp] theorem setFrgE_pending : (setFrgE e f s).pending = s.pending := rfl
@[simp] theorem setFrgE_free : (setFrgE e f s).free = s.free := rfl
@[simp] theorem setFrgE_last : (setFrgE e f s).last = s.last := rfl
@[simp] theorem setFrgE_readData : (setFrgE e f s).readData = s.readData := rfl
@[simp] theorem setFrgE_eng : (setFrgE e f s).eng = s.eng := rfl
@[simp] theorem setFrgE_otp : (setFrgE e f s).otp = s.otp := rfl
@[simp] theorem setFrgE_flash : (setFrgE e f s).flash = s.flash := rfl
@[simp] theorem setFrgE_hth : (setFrgE e f s).hth = s.hth := rfl
@[simp] theorem setFrgE_hst : (setFrgE e f s).hst = s.hst := rfl
@[simp] theorem setFrgE_evt : (setFrgE e f s).evt = s.evt := rfl
@[simp] theorem setFrgE_ing : (setFrgE e f s).ing = s.ing := rfl
@[simp] theorem setFrgE_cmp : (setFrgE e f s).cmp = s.cmp := rfl
@[simp] theorem setFrgE_anv : (setFrgE e f s).anv = s.anv := rfl
@[simp] theorem setFrgE_clw : (setFrgE e f s).clw = s.clw := rfl
@[simp] theorem setFrgE_thr : (setFrgE e f s).thr = s.thr := rfl
@[simp] theorem setFrgE_swt : (setFrgE e f s).swt = s.swt := rfl
@[simp] theorem setFrgE_scn : (setFrgE e f s).scn = s.scn := rfl
@[simp] theorem setFrgE_mtx : (setFrgE e f s).mtx = s.mtx := rfl
@[simp] theorem setFrgE_srv : (setFrgE e f s).srv = s.srv := rfl
@[simp] theorem setFrgE_tng : (setFrgE e f s).tng = s.tng := rfl
@[simp] theorem setFrgE_grn : (setFrgE e f s).grn = s.grn := rfl
@[simp] theorem setFrgE_thm : (setFrgE e f s).thm = s.thm := rfl
@[simp] theorem setFrgE_tmp : (setFrgE e f s).tmp = s.tmp := rfl
@[simp] theorem setFrgE_bst : (setFrgE e f s).bst = s.bst := rfl
@[simp] theorem setFrgE_brg : (setFrgE e f s).brg = s.brg := rfl
@[simp] theorem setFrgE_sec : (setFrgE e f s).sec = s.sec := rfl

end

/-! ## setCh -/

section
variable (c : Fin 24) (f : Chan → Chan) (s : State)

@[simp] theorem setCh_now : (setCh c f s).now = s.now := rfl
@[simp] theorem setCh_pending : (setCh c f s).pending = s.pending := rfl
@[simp] theorem setCh_free : (setCh c f s).free = s.free := rfl
@[simp] theorem setCh_last : (setCh c f s).last = s.last := rfl
@[simp] theorem setCh_readData : (setCh c f s).readData = s.readData := rfl
@[simp] theorem setCh_eng : (setCh c f s).eng = s.eng := rfl
@[simp] theorem setCh_otp : (setCh c f s).otp = s.otp := rfl
@[simp] theorem setCh_flash : (setCh c f s).flash = s.flash := rfl
@[simp] theorem setCh_hth : (setCh c f s).hth = s.hth := rfl
@[simp] theorem setCh_hst : (setCh c f s).hst = s.hst := rfl
@[simp] theorem setCh_evt : (setCh c f s).evt = s.evt := rfl
@[simp] theorem setCh_ing : (setCh c f s).ing = s.ing := rfl
@[simp] theorem setCh_cmp : (setCh c f s).cmp = s.cmp := rfl
@[simp] theorem setCh_anv : (setCh c f s).anv = s.anv := rfl
@[simp] theorem setCh_clw : (setCh c f s).clw = s.clw := rfl
@[simp] theorem setCh_thr : (setCh c f s).thr = s.thr := rfl
@[simp] theorem setCh_swt : (setCh c f s).swt = s.swt := rfl
@[simp] theorem setCh_scn : (setCh c f s).scn = s.scn := rfl
@[simp] theorem setCh_mtx : (setCh c f s).mtx = s.mtx := rfl
@[simp] theorem setCh_srv : (setCh c f s).srv = s.srv := rfl
@[simp] theorem setCh_tng : (setCh c f s).tng = s.tng := rfl
@[simp] theorem setCh_grn : (setCh c f s).grn = s.grn := rfl
@[simp] theorem setCh_thm : (setCh c f s).thm = s.thm := rfl
@[simp] theorem setCh_tmp : (setCh c f s).tmp = s.tmp := rfl
@[simp] theorem setCh_bst : (setCh c f s).bst = s.bst := rfl
@[simp] theorem setCh_brg : (setCh c f s).brg = s.brg := rfl
@[simp] theorem setCh_sec : (setCh c f s).sec = s.sec := rfl

end

/-! ## setLoop -/

section
variable (n : Fin 64) (f : Loop → Loop) (s : State)

@[simp] theorem setLoop_now : (setLoop n f s).now = s.now := rfl
@[simp] theorem setLoop_pending : (setLoop n f s).pending = s.pending := rfl
@[simp] theorem setLoop_free : (setLoop n f s).free = s.free := rfl
@[simp] theorem setLoop_last : (setLoop n f s).last = s.last := rfl
@[simp] theorem setLoop_readData : (setLoop n f s).readData = s.readData := rfl
@[simp] theorem setLoop_eng : (setLoop n f s).eng = s.eng := rfl
@[simp] theorem setLoop_otp : (setLoop n f s).otp = s.otp := rfl
@[simp] theorem setLoop_flash : (setLoop n f s).flash = s.flash := rfl
@[simp] theorem setLoop_hth : (setLoop n f s).hth = s.hth := rfl
@[simp] theorem setLoop_hst : (setLoop n f s).hst = s.hst := rfl
@[simp] theorem setLoop_evt : (setLoop n f s).evt = s.evt := rfl
@[simp] theorem setLoop_ing : (setLoop n f s).ing = s.ing := rfl
@[simp] theorem setLoop_cmp : (setLoop n f s).cmp = s.cmp := rfl
@[simp] theorem setLoop_anv : (setLoop n f s).anv = s.anv := rfl
@[simp] theorem setLoop_clw : (setLoop n f s).clw = s.clw := rfl
@[simp] theorem setLoop_thr : (setLoop n f s).thr = s.thr := rfl
@[simp] theorem setLoop_swt : (setLoop n f s).swt = s.swt := rfl
@[simp] theorem setLoop_scn : (setLoop n f s).scn = s.scn := rfl
@[simp] theorem setLoop_frg : (setLoop n f s).frg = s.frg := rfl
@[simp] theorem setLoop_mtx : (setLoop n f s).mtx = s.mtx := rfl
@[simp] theorem setLoop_tng : (setLoop n f s).tng = s.tng := rfl
@[simp] theorem setLoop_grn : (setLoop n f s).grn = s.grn := rfl
@[simp] theorem setLoop_thm : (setLoop n f s).thm = s.thm := rfl
@[simp] theorem setLoop_tmp : (setLoop n f s).tmp = s.tmp := rfl
@[simp] theorem setLoop_bst : (setLoop n f s).bst = s.bst := rfl
@[simp] theorem setLoop_brg : (setLoop n f s).brg = s.brg := rfl
@[simp] theorem setLoop_sec : (setLoop n f s).sec = s.sec := rfl

end

/-! ## setPll -/

section
variable (p : Fin 4) (f : Pll → Pll) (s : State)

@[simp] theorem setPll_now : (setPll p f s).now = s.now := rfl
@[simp] theorem setPll_pending : (setPll p f s).pending = s.pending := rfl
@[simp] theorem setPll_free : (setPll p f s).free = s.free := rfl
@[simp] theorem setPll_last : (setPll p f s).last = s.last := rfl
@[simp] theorem setPll_readData : (setPll p f s).readData = s.readData := rfl
@[simp] theorem setPll_eng : (setPll p f s).eng = s.eng := rfl
@[simp] theorem setPll_otp : (setPll p f s).otp = s.otp := rfl
@[simp] theorem setPll_flash : (setPll p f s).flash = s.flash := rfl
@[simp] theorem setPll_hth : (setPll p f s).hth = s.hth := rfl
@[simp] theorem setPll_hst : (setPll p f s).hst = s.hst := rfl
@[simp] theorem setPll_evt : (setPll p f s).evt = s.evt := rfl
@[simp] theorem setPll_ing : (setPll p f s).ing = s.ing := rfl
@[simp] theorem setPll_cmp : (setPll p f s).cmp = s.cmp := rfl
@[simp] theorem setPll_anv : (setPll p f s).anv = s.anv := rfl
@[simp] theorem setPll_clw : (setPll p f s).clw = s.clw := rfl
@[simp] theorem setPll_thr : (setPll p f s).thr = s.thr := rfl
@[simp] theorem setPll_swt : (setPll p f s).swt = s.swt := rfl
@[simp] theorem setPll_scn : (setPll p f s).scn = s.scn := rfl
@[simp] theorem setPll_frg : (setPll p f s).frg = s.frg := rfl
@[simp] theorem setPll_mtx : (setPll p f s).mtx = s.mtx := rfl
@[simp] theorem setPll_srv : (setPll p f s).srv = s.srv := rfl
@[simp] theorem setPll_grn : (setPll p f s).grn = s.grn := rfl
@[simp] theorem setPll_thm : (setPll p f s).thm = s.thm := rfl
@[simp] theorem setPll_tmp : (setPll p f s).tmp = s.tmp := rfl
@[simp] theorem setPll_bst : (setPll p f s).bst = s.bst := rfl
@[simp] theorem setPll_brg : (setPll p f s).brg = s.brg := rfl
@[simp] theorem setPll_sec : (setPll p f s).sec = s.sec := rfl

end

/-! ## setPc -/

section
variable (c : Fin 64) (f : Pc → Pc) (s : State)

@[simp] theorem setPc_now : (setPc c f s).now = s.now := rfl
@[simp] theorem setPc_pending : (setPc c f s).pending = s.pending := rfl
@[simp] theorem setPc_free : (setPc c f s).free = s.free := rfl
@[simp] theorem setPc_last : (setPc c f s).last = s.last := rfl
@[simp] theorem setPc_readData : (setPc c f s).readData = s.readData := rfl
@[simp] theorem setPc_eng : (setPc c f s).eng = s.eng := rfl
@[simp] theorem setPc_otp : (setPc c f s).otp = s.otp := rfl
@[simp] theorem setPc_flash : (setPc c f s).flash = s.flash := rfl
@[simp] theorem setPc_hth : (setPc c f s).hth = s.hth := rfl
@[simp] theorem setPc_hst : (setPc c f s).hst = s.hst := rfl
@[simp] theorem setPc_evt : (setPc c f s).evt = s.evt := rfl
@[simp] theorem setPc_ing : (setPc c f s).ing = s.ing := rfl
@[simp] theorem setPc_cmp : (setPc c f s).cmp = s.cmp := rfl
@[simp] theorem setPc_anv : (setPc c f s).anv = s.anv := rfl
@[simp] theorem setPc_clw : (setPc c f s).clw = s.clw := rfl
@[simp] theorem setPc_thr : (setPc c f s).thr = s.thr := rfl
@[simp] theorem setPc_swt : (setPc c f s).swt = s.swt := rfl
@[simp] theorem setPc_scn : (setPc c f s).scn = s.scn := rfl
@[simp] theorem setPc_frg : (setPc c f s).frg = s.frg := rfl
@[simp] theorem setPc_mtx : (setPc c f s).mtx = s.mtx := rfl
@[simp] theorem setPc_srv : (setPc c f s).srv = s.srv := rfl
@[simp] theorem setPc_tng : (setPc c f s).tng = s.tng := rfl
@[simp] theorem setPc_thm : (setPc c f s).thm = s.thm := rfl
@[simp] theorem setPc_tmp : (setPc c f s).tmp = s.tmp := rfl
@[simp] theorem setPc_bst : (setPc c f s).bst = s.bst := rfl
@[simp] theorem setPc_brg : (setPc c f s).brg = s.brg := rfl
@[simp] theorem setPc_sec : (setPc c f s).sec = s.sec := rfl

end

/-! ## setPort -/

section
variable (p : Fin 2) (f : BrgPort → BrgPort) (s : State)

@[simp] theorem setPort_now : (setPort p f s).now = s.now := rfl
@[simp] theorem setPort_pending : (setPort p f s).pending = s.pending := rfl
@[simp] theorem setPort_free : (setPort p f s).free = s.free := rfl
@[simp] theorem setPort_last : (setPort p f s).last = s.last := rfl
@[simp] theorem setPort_readData : (setPort p f s).readData = s.readData := rfl
@[simp] theorem setPort_eng : (setPort p f s).eng = s.eng := rfl
@[simp] theorem setPort_otp : (setPort p f s).otp = s.otp := rfl
@[simp] theorem setPort_flash : (setPort p f s).flash = s.flash := rfl
@[simp] theorem setPort_hth : (setPort p f s).hth = s.hth := rfl
@[simp] theorem setPort_hst : (setPort p f s).hst = s.hst := rfl
@[simp] theorem setPort_evt : (setPort p f s).evt = s.evt := rfl
@[simp] theorem setPort_ing : (setPort p f s).ing = s.ing := rfl
@[simp] theorem setPort_cmp : (setPort p f s).cmp = s.cmp := rfl
@[simp] theorem setPort_anv : (setPort p f s).anv = s.anv := rfl
@[simp] theorem setPort_clw : (setPort p f s).clw = s.clw := rfl
@[simp] theorem setPort_thr : (setPort p f s).thr = s.thr := rfl
@[simp] theorem setPort_swt : (setPort p f s).swt = s.swt := rfl
@[simp] theorem setPort_scn : (setPort p f s).scn = s.scn := rfl
@[simp] theorem setPort_frg : (setPort p f s).frg = s.frg := rfl
@[simp] theorem setPort_mtx : (setPort p f s).mtx = s.mtx := rfl
@[simp] theorem setPort_srv : (setPort p f s).srv = s.srv := rfl
@[simp] theorem setPort_tng : (setPort p f s).tng = s.tng := rfl
@[simp] theorem setPort_grn : (setPort p f s).grn = s.grn := rfl
@[simp] theorem setPort_thm : (setPort p f s).thm = s.thm := rfl
@[simp] theorem setPort_tmp : (setPort p f s).tmp = s.tmp := rfl
@[simp] theorem setPort_bst : (setPort p f s).bst = s.bst := rfl
@[simp] theorem setPort_sec : (setPort p f s).sec = s.sec := rfl

end

/-! ## setCam -/

section
variable (c : Fin 2) (f : Cam → Cam) (s : State)

@[simp] theorem setCam_now : (setCam c f s).now = s.now := rfl
@[simp] theorem setCam_pending : (setCam c f s).pending = s.pending := rfl
@[simp] theorem setCam_free : (setCam c f s).free = s.free := rfl
@[simp] theorem setCam_last : (setCam c f s).last = s.last := rfl
@[simp] theorem setCam_readData : (setCam c f s).readData = s.readData := rfl
@[simp] theorem setCam_eng : (setCam c f s).eng = s.eng := rfl
@[simp] theorem setCam_otp : (setCam c f s).otp = s.otp := rfl
@[simp] theorem setCam_flash : (setCam c f s).flash = s.flash := rfl
@[simp] theorem setCam_hth : (setCam c f s).hth = s.hth := rfl
@[simp] theorem setCam_hst : (setCam c f s).hst = s.hst := rfl
@[simp] theorem setCam_evt : (setCam c f s).evt = s.evt := rfl
@[simp] theorem setCam_ing : (setCam c f s).ing = s.ing := rfl
@[simp] theorem setCam_cmp : (setCam c f s).cmp = s.cmp := rfl
@[simp] theorem setCam_clw : (setCam c f s).clw = s.clw := rfl
@[simp] theorem setCam_thr : (setCam c f s).thr = s.thr := rfl
@[simp] theorem setCam_swt : (setCam c f s).swt = s.swt := rfl
@[simp] theorem setCam_scn : (setCam c f s).scn = s.scn := rfl
@[simp] theorem setCam_frg : (setCam c f s).frg = s.frg := rfl
@[simp] theorem setCam_mtx : (setCam c f s).mtx = s.mtx := rfl
@[simp] theorem setCam_srv : (setCam c f s).srv = s.srv := rfl
@[simp] theorem setCam_tng : (setCam c f s).tng = s.tng := rfl
@[simp] theorem setCam_grn : (setCam c f s).grn = s.grn := rfl
@[simp] theorem setCam_thm : (setCam c f s).thm = s.thm := rfl
@[simp] theorem setCam_tmp : (setCam c f s).tmp = s.tmp := rfl
@[simp] theorem setCam_bst : (setCam c f s).bst = s.bst := rfl
@[simp] theorem setCam_brg : (setCam c f s).brg = s.brg := rfl
@[simp] theorem setCam_sec : (setCam c f s).sec = s.sec := rfl

end

/-! ## setWarp -/

section
variable (e : Fin 4) (f : Warp → Warp) (s : State)

@[simp] theorem setWarp_now : (setWarp e f s).now = s.now := rfl
@[simp] theorem setWarp_pending : (setWarp e f s).pending = s.pending := rfl
@[simp] theorem setWarp_free : (setWarp e f s).free = s.free := rfl
@[simp] theorem setWarp_last : (setWarp e f s).last = s.last := rfl
@[simp] theorem setWarp_readData : (setWarp e f s).readData = s.readData := rfl
@[simp] theorem setWarp_eng : (setWarp e f s).eng = s.eng := rfl
@[simp] theorem setWarp_otp : (setWarp e f s).otp = s.otp := rfl
@[simp] theorem setWarp_flash : (setWarp e f s).flash = s.flash := rfl
@[simp] theorem setWarp_hth : (setWarp e f s).hth = s.hth := rfl
@[simp] theorem setWarp_hst : (setWarp e f s).hst = s.hst := rfl
@[simp] theorem setWarp_evt : (setWarp e f s).evt = s.evt := rfl
@[simp] theorem setWarp_ing : (setWarp e f s).ing = s.ing := rfl
@[simp] theorem setWarp_cmp : (setWarp e f s).cmp = s.cmp := rfl
@[simp] theorem setWarp_anv : (setWarp e f s).anv = s.anv := rfl
@[simp] theorem setWarp_thr : (setWarp e f s).thr = s.thr := rfl
@[simp] theorem setWarp_swt : (setWarp e f s).swt = s.swt := rfl
@[simp] theorem setWarp_scn : (setWarp e f s).scn = s.scn := rfl
@[simp] theorem setWarp_frg : (setWarp e f s).frg = s.frg := rfl
@[simp] theorem setWarp_mtx : (setWarp e f s).mtx = s.mtx := rfl
@[simp] theorem setWarp_srv : (setWarp e f s).srv = s.srv := rfl
@[simp] theorem setWarp_tng : (setWarp e f s).tng = s.tng := rfl
@[simp] theorem setWarp_grn : (setWarp e f s).grn = s.grn := rfl
@[simp] theorem setWarp_thm : (setWarp e f s).thm = s.thm := rfl
@[simp] theorem setWarp_tmp : (setWarp e f s).tmp = s.tmp := rfl
@[simp] theorem setWarp_bst : (setWarp e f s).bst = s.bst := rfl
@[simp] theorem setWarp_brg : (setWarp e f s).brg = s.brg := rfl
@[simp] theorem setWarp_sec : (setWarp e f s).sec = s.sec := rfl

end

/-! ## raiseIf, forN and forEng -/

@[simp] theorem raiseIf_true (id d : Nat) (s : State) : raiseIf true id d s = raise id d s := rfl
@[simp] theorem raiseIf_false (id d : Nat) (s : State) : raiseIf false id d s = s := rfl
@[simp] theorem raise_evt (id d : Nat) (s : State) :
    (raise id d s).evt = Evt.raiseAux s.evCtx 4 s.evt id d ((evSev id).getD 0) := rfl
@[simp] theorem forN_zero (f : Nat → State → State) (s : State) : forN 0 f s = s := rfl
theorem forEng_eq (f : Fin 4 → State → State) (s : State) : forEng f s = f 3 (f 2 (f 1 (f 0 s))) := rfl

/-! ## Tables -/

@[simp] theorem upd_self {α : Type} {n : Nat} (v : Vector α n) (i : Fin n) (x : α) : (upd v i x)[i] = x := by
  simp [upd]

theorem upd_other {α : Type} {n : Nat} (v : Vector α n) (i j : Fin n) (x : α) (h : i ≠ j) : (upd v i x)[j] = v[j] := by
  have : i.val ≠ j.val := fun e => h (Fin.ext e)
  simp [upd, this]

@[simp] theorem updWith_self {α : Type} {n : Nat} (v : Vector α n) (i : Fin n) (f : α → α) :
    (updWith v i f)[i] = f v[i] := by simp [updWith]

theorem updWith_other {α : Type} {n : Nat} (v : Vector α n) (i j : Fin n) (f : α → α) (h : i ≠ j) :
    (updWith v i f)[j] = v[j] := by
  have : i.val ≠ j.val := fun e => h (Fin.ext e)
  simp [updWith, this]

end Sys2Proof.Machine
end

