-- ==== Sys2Proof/Tests/Slice0.lean ====
section
/-! SUPPORT. The tests: an ill-formed term for each check of well-formedness, a state that meets the hypotheses of each
statement, and single steps whose results the spec gives. -/

open Sys2Proof Sys2Proof.Machine

set_option linter.unusedVariables false
set_option Elab.async false

namespace Sys2Proof.Tests

/-- A request on quad SPI for this device that asks for a reply. -/
def req (op : Nat) (l : List Nat) : Req :=
  { port := .spi, opcode := op, tag := 7, flags := 1, payload := l.map (BitVec.ofNat 8), crc := 0, at' := 0 }

/-- A started device in a power state. -/
def up (p : PState) : State :=
  { State.reset with
    hth.boot := .on, hth.pwr := p, hth.fwDone := true, hth.trainDone := true, hth.fwRuns := true,
    hst.linkUp := true, grn.sound := true,
    tng.pll := Vector.replicate 4 { locked := true, bypass := false, off := false } }

/-- One waiting request. -/
def ask (r : Req) (s : State) : State := { s with hst.requests := [r] }

/-- Engine 0 is a mirror array. -/
def mae (p : PState) : State := { up p with eng := ⟨#[⟨.mae, 1920, 1080⟩, {}, {}, {}], rfl⟩ }

/-- A mirror array lit, with one Sheaf entry, in slot 0. -/
def inSlot (x : SheafEntry) : State :=
  { mae .lit with
    swt := Vector.replicate 4 { link := .active },
    frg.eng := Vector.replicate 4 { lit := true, x := ⟨1, 1⟩ },
    frg.ch := Vector.replicate 24 { cfg := 0xFFFF0001, full := 65535 },
    thr.eng := updWith State.reset.thr.eng 0 fun k => { k with read := { entries := [x] }, epochs := 1 } }

/-- Engine 0 is a scanner, in LIT. -/
def lse (w : ScnEng) : State :=
  { up .lit with eng := ⟨#[⟨.lse, 320, 240⟩, {}, {}, {}], rfl⟩, scn := Vector.replicate 4 w }

/-- A device whose life-cycle words are these. -/
def cycle (l : List Word) : State := { up .ready with otp.lcWords := tab 5 fun i => l.getD i.val 0 }

def key : List Byte := List.replicate 16 1
def nonce : List Byte := List.replicate 8 2

/-- A device whose owner key is programmed. -/
def owned (p : PState) : State := { up p with otp.ownerKey := [⟨key, true⟩] }

/-- ANVIL_CLAIM step 1 with its MAC. -/
def claim : Req :=
  { req 0x18 [] with payload := [1, 0, 0, 0] ++ mac8 key ((owned .ready).otp.uidBytes ++ nonce ++ leBytes 1 0) }

/-- ANVIL_REQUEST of SEQ 1 that sets function 5 to state 1, without its MAC. -/
def demandHead : List Byte := [1, 0, 0, 0, 1, 0, 5, 1]

def demandMac : List Byte :=
  mac8 key ((owned .lit).otp.uidBytes ++ nonce ++ ([0xA5, 0x19, 7, 1, 16, 0] ++ demandHead))

def demand : Req := { req 0x19 [] with payload := demandHead ++ demandMac }

/-- LIFECYCLE_ADVANCE to RETURN with the owner's MAC. -/
def toReturn : Req :=
  { req 0x69 [] with payload := [5, 1, 0, 0] ++ mac8 key ((owned .ready).otp.uidBytes ++ leBytes 1 2 ++ leBytes 1 5) }

/-- An Anvil set of function 5. -/
def oneFunction : AnvSet :=
  { functions := [⟨5, 0, 0, 0, 0, 0, 0, 0, 0, 0, 0⟩], zones := [], glyphs := [], camMaps := [], verifyConfig := none,
    reqTimeout := none, camTimeout := none, energyFloor := none, signedUnder := key, bytes := [] }

def pins : Pins := ⟨false, false, true, false⟩
def fits : Verify := ⟨true, 0, 1⟩
def aRec : Rec := { id := 0x20, sev := 0, detail := 0, time := 0, device := 0, taken := 0, piggy := false }
def snap : Snapshot :=
  { layers := Vector.replicate 16 0, canvas := Vector.replicate 4 0, depths := 0, dither := 0, slotRate := 24000,
    bandTiming := Vector.replicate 4 0, focus := Vector.replicate 4 0, fRef := Vector.replicate 4 0, winOrg := 0,
    winSize := 0, warp := 0, gamut := 0, sheaf := 0, loops := 0, accepted := 0, applyFrame := 0, inBarrier := false }
def sheafBytes : List Nat := [0, 0, 0, 0] ++ List.replicate 24 0 ++ [1, 1, 0, 0, 0, 0, 0, 0]
def goodFrame : List Byte :=
  let b : List Byte := [0xC3, 0x3C, 0, 0, 0, 0xFF, 0xFF] ++ List.replicate 53 0
  b ++ leBytes 4 (crc32c b)
def servoIn : ServoIn := ⟨List.replicate 16 0, List.replicate 24 (0, 0), List.replicate 4 0⟩
def sampling : State :=
  { up .ready with srv.running := true,
                   srv.loops := updWith State.reset.srv.loops 5 fun l => { l with
                     mode := .auto, samples := [⟨0, true, 0, false⟩] } }
def bankBytes : List Nat :=
  List.replicate 24 0 ++ [1, 0, 0, 0, 1, 0, 0, 0, 1, 0, 0, 0] ++ List.replicate 7 0 ++ [1, 1, 0, 0, 0, 1, 0, 0, 0, 0, 0, 1, 4]
    ++ List.replicate 56 0
def gamutBytes : List Nat := [3, 0, 0, 0] ++ [0, 0, 1, 0, 0, 0, 0, 0, 0, 10] ++ List.replicate 54 0

/-- A device in a chain, its ports in one state. -/
def brg (st : PortSt) (role : Nat) : State :=
  { up .ready with hth.role := role, brg.ports := Vector.replicate 2 { st := st } }

def aBarrier : Barrier :=
  { number := 1, key := ⟨.spi, 7, 0x12, true⟩, self := false, apply := 9, applyTime := 0, named := [1], votes := [],
    decided := none, acks := [], cause := none, ramp := none }
def myBarrier : MyBarrier := { number := 3, apply := 9 }


/-- A good NOP packet. -/
def nopPacket : List Byte :=
  let b : List Byte := [0xA5, 0, 7, 1, 0, 0]
  b ++ leBytes 4 (crc32c b)

/-- A scanner of 10 kHz that draws, before row n, with row n - 1 at a. -/
def drawn (n a : Nat) : State :=
  { lse { st := .active, excited := true, period := some ⟨400000, 1⟩, edge := some 500000, row := n, rowAt := a }
    with frg.eng := Vector.replicate 4 { lit := true } }

def firstLine : Line := { row := 0, edge := 500000, ahead := 0, per := ⟨400000, 1⟩ }
def rgb8 : DpColour := ⟨8, false, 0, true, 0, 0⟩
/-! ## Well-formedness: an ill-formed term for each check -/

/-- A flit with the fields given. -/
def flit (src dst msgno hops ack : Nat) : Flit := ⟨0, src, dst, msgno, hops, ack⟩
def aMirror (n : Nat) : Mirror := ⟨0, List.replicate n 0, 0, false⟩
def aMark : TimeMark := ⟨0, 0, 0, ⟨none, none, none⟩, []⟩
def aRecord : EvRec := ⟨0, 0, 0, false, 0, 0, 0⟩

/-- A request row: a well-formed one, another opcode, a CRC of 33 bits. -/
theorem test_wf_request :
    (Instr.nop 4 (req 0x00 [])).wf = true ∧ (Instr.nop 4 (req 0x01 [])).wf = false ∧
    (Instr.nop 4 { req 0x00 [] with crc := 2 ^ 32 }).wf = false ∧ (Instr.commit 4 (req 0x00 [])).wf = false ∧
    (Instr.firmwareLoad 4 (req 0x6F [])).wf = false := by decide +kernel

/-- A payload of 65,536 bytes or more has no LENGTH. -/
theorem test_wf_length (n : Nat) (h : 65536 ≤ n) :
    Req.wf 0x00 { req 0x00 [] with payload := List.replicate n 0 } = false := by
  have k : ¬ n < 65536 := by omega
  simp [Req.wf, k]

/-- Images: an SVN above 63, a version of 33 bits. -/
theorem test_wf_images :
    (Instr.powerOn 4 pins fits).wf = true ∧ (Instr.powerOn 4 pins ⟨true, 64, 0⟩).wf = false ∧
    (Instr.reset 4 .internal pins ⟨true, 0, 2 ^ 32⟩).wf = false ∧ (Instr.delayedReset 4 pins ⟨true, 64, 0⟩).wf = false ∧
    (Instr.firmwareVerifyComplete 4 ⟨true, 64, 0⟩).wf = false ∧
    (Instr.supplyMonitorExcursion 4 0 true pins ⟨true, 64, 0⟩).wf = false ∧
    (Instr.bootFlashWriteComplete 4 true ⟨true, 64, 0⟩ none).wf = false := by decide +kernel

/-- Link, taps, transports: values that their fields cannot hold. -/
theorem test_wf_transports :
    (Instr.pcieLinkUp 4 16 1).wf = false ∧ (Instr.pcieLinkUp 4 1 16).wf = false ∧
    (Instr.hbmTrainingComplete 4 [] [(640, 0)]).wf = false ∧ (Instr.retrainComplete 4 0 true true [(0, 16384)]).wf = false ∧
    (Instr.retrainComplete 4 0 true true [(0, -16385)]).wf = false ∧ (Instr.spiWritePacket 4 256 []).wf = false ∧
    (Instr.mbxDoorbell 4 1 (List.replicate 8193 0)).wf = false ∧ (Instr.canFrameReceive 4 0 true (List.replicate 65 0)).wf = false := by
  decide +kernel

/-- Registers and BAR2: an event group that is none, a parameter ID of 17 bits, a byte past the window. -/
theorem test_wf_registers :
    (Instr.evtLatchedClear 4 0 0).wf = false ∧ (Instr.evtLatchedClear 4 0x14 0).wf = false ∧
    (Instr.counterClear 4 65536 0).wf = false ∧ (Instr.registerWrite 4 65536 0).wf = false ∧
    (Instr.bar2Write 4 (2 ^ 34) [0]).wf = false ∧ (Instr.bar2Read 4 (2 ^ 34 - 1) 2).wf = false := by decide +kernel

/-- Samples: lists of the wrong length, codes too wide. -/
theorem test_wf_samples :
    (Instr.cornerTurnHalfComplete 4 0 2048).wf = false ∧ (Instr.servoTick 4 ⟨[], servoIn.energy, servoIn.amp⟩).wf = false ∧
    (Instr.servoTick 4 ⟨servoIn.adc, [], servoIn.amp⟩).wf = false ∧
    (Instr.servoTick 4 ⟨servoIn.adc, servoIn.energy, []⟩).wf = false ∧ (Instr.emissionSample 4 0 [1]).wf = false ∧
    (Instr.amplitudeSample 4 0 65536).wf = false ∧ (Instr.matrixRowSlot 4 0 [] 0).wf = false ∧
    (Instr.colourSensorReading 4 0 [1] [1, 2, 3]).wf = false ∧ (Instr.colourSensorReading 4 0 [1, 2, 3] [1]).wf = false ∧
    (Instr.dpLinkLock 4 0 3 false 1 1 60000 rgb8).wf = false ∧ (Instr.dpLinkLock 4 0 0 false 16384 1 60000 rgb8).wf = false ∧
    (Instr.dpLinkLock 4 0 0 false 1 16384 60000 rgb8).wf = false := by
  decide +kernel

/-- Memory errors and self-test: an address, a port, an instance out of range. -/
theorem test_wf_memory_and_march :
    (Instr.parityError 4 0 (2 ^ 38) 0 false false).wf = false ∧ (Instr.parityError 4 0 0 16 false false).wf = false ∧
    (Instr.parityError 4 0 0 255 false false).wf = true ∧ (Instr.eccError 4 0 (2 ^ 34) 0 false 0).wf = false ∧
    (Instr.eccError 4 0 0 16 false 0).wf = false ∧ (Instr.marchSliceStart 4 64 16 true).wf = false ∧
    (Instr.marchSliceComplete 4 64 0 0 none).wf = false ∧ (Instr.marchSliceAbort 4 64).wf = false ∧
    (Instr.passLimitExpiry 4 64).wf = false := by decide +kernel

/-- Brugo flits: each header field too wide, and bodies of the wrong size. -/
theorem test_wf_brugo :
    (Instr.barrierAck 4 (flit 1 0 0 0 0) 1).wf = true ∧ (Instr.barrierAck 4 (flit 16 0 0 0 0) 1).wf = false ∧
    (Instr.barrierApply 4 (flit 0 16 0 0 0) 1).wf = false ∧ (Instr.barrierCancel 4 (flit 0 0 65536 0 0) 1).wf = false ∧
    (Instr.barrierVote 4 (flit 0 0 0 8 0) 1 true 0 0).wf = false ∧ (Instr.barrierPrepare 4 (flit 0 0 0 0 256) 1 9 []).wf = false ∧
    (Instr.timeMarkReceive 4 (flit 16 0 0 0 0) aMark).wf = false ∧
    (Instr.brugoStatusReceive 4 (flit 16 0 0 0 0) ⟨0, 0, true⟩).wf = false ∧
    (Instr.enumReceive 4 (flit 0 0 0 0 0) ⟨[1], false, 0, 0⟩).wf = false ∧
    (Instr.brugoCmdReceive 4 (flit 0 0 0 0 0) (List.replicate 4107 0)).wf = false ∧
    (Instr.brugoReplyReceive 4 (flit 0 0 0 0 0) (List.replicate 4107 0)).wf = false ∧
    (Instr.brugoEventReceive 4 (flit 0 0 0 0 0) (List.replicate 11 aRecord)).wf = false ∧
    (Instr.anvilMirrorReceive 4 (flit 0 0 0 0 0) (aMirror 255)).wf = false ∧
    (Instr.anvilMirrorReceive 4 (flit 0 0 0 0 0) (aMirror 256)).wf = true := by decide +kernel

/-! ## The hypotheses of the statements can be met -/

/-- The hypotheses of StepRunsTheFrontCommand can be met. -/
theorem test_hyps_StepRunsTheFrontCommand :
    (∃ (s : State) (c : Instr) (r : List Instr), s.pending = c :: r) ∧
    (∃ s : State, s.pending = []) :=
  ⟨⟨{ State.reset with pending := [.xtalReturn 4] }, .xtalReturn 4, [], by decide +kernel⟩,
   ⟨State.reset, by decide +kernel⟩⟩

/-- The hypotheses of MemoryStaysCanonical can be met. -/
theorem test_hyps_MemoryStaysCanonical :
    ∃ s x : State, s.Inv ∧ step s = .next x :=
  ⟨{ up .ready with pending := [.bar2Write 4 surfaceStart [1]] }, _, rfl, rfl⟩

/-- The hypotheses of QueueRunsInOrder can be met. -/
theorem test_hyps_QueueRunsInOrder :
    ∃ (s x : State) (c : Instr) (r : List Instr), s.pending = c :: r ∧ step s = .next x :=
  ⟨{ State.reset with pending := [.xtalReturn 4] }, _, .xtalReturn 4, [], by decide +kernel, rfl⟩

/-- The hypotheses of OtpIsNeverUnprogrammed can be met. -/
theorem test_hyps_OtpIsNeverUnprogrammed :
    ∃ s x : State, step s = .next x :=
  ⟨{ State.reset with pending := [.otpWriteComplete 4 true] }, _, rfl⟩

/-- The hypotheses of CommandsCompleteAndSafeQueuesEnd can be met. -/
theorem test_hyps_CommandsCompleteAndSafeQueuesEnd :
    ∃ s : State, s.Inv ∧ runsSafely s.pending = true :=
  ⟨{ State.reset with pending := [.xtalReturn 4, .bar2Read 4 0 8] }, rfl, by decide +kernel⟩

/-- The hypotheses of Bar2ReadsAndWrites can be met. -/
theorem test_hyps_Bar2ReadsAndWrites :
    (∃ (t : Time) (a : Nat) (l : List Byte) (s : State), s.Inv ∧ a + l.length ≤ 2 ^ 34 ∧ s.hst.linkUp = true ∧
      inSurface s a l.length = true ∧ grnServes s = true) ∧
    (∃ (t : Time) (a n : Nat) (s : State), a + n ≤ 2 ^ 34 ∧ s.hst.linkUp = true ∧ inSurface s a n = true ∧ grnServes
      s = true) ∧
    (∃ (a n i : Nat) (s : State), s.grn.spoilt = none ∧ i < n) ∧
    (∃ (t : Time) (a : Nat) (l : List Byte) (s : State), a + l.length ≤ 2 ^ 34 ∧ s.hst.linkUp = true ∧ inSurface s a
      l.length = false) ∧
    (∃ (t : Time) (a n : Nat) (s : State), a + n ≤ 2 ^ 34 ∧ s.hst.linkUp = true ∧ inSurface s a n = false) ∧
    (∃ (t : Time) (a : Nat) (l : List Byte) (s : State), 2 ^ 34 < a + l.length) ∧
    (∃ (t : Time) (a n : Nat) (s : State), 2 ^ 34 < a + n) :=
  ⟨⟨4, surfaceStart, [1, 2], up .ready, rfl, by decide +kernel⟩,
   ⟨4, surfaceStart, 8, up .ready, by decide +kernel⟩,
   ⟨0, 8, 7, up .ready, by decide +kernel⟩,
   ⟨4, 0, [1], up .ready, by decide +kernel⟩,
   ⟨4, 0, 8, up .ready, by decide +kernel⟩,
   ⟨4, 2 ^ 34, [1], up .ready, by decide +kernel⟩,
   ⟨4, 2 ^ 34, 1, up .ready, by decide +kernel⟩⟩

/-- The hypotheses of ResetsAndPowerLoss can be met. -/
theorem test_hyps_ResetsAndPowerLoss :
    (∃ (t : Time) (k : ResetKind) (p : Pins) (v : Verify) (s : State), s.hth.pwr ≠ .off ∧ ((∀ w, k = .porst w → 10 *
      us ≤ w))) ∧
    (∃ (t w : Time) (p : Pins) (v : Verify) (s : State), w < 10 * us) ∧
    (∃ (t d : Time) (p : Pins) (v : Verify) (s : State), s.hth.resetDue = some d ∧ d ≤ t) :=
  ⟨⟨4, .internal, pins, fits, State.reset, by decide +kernel, by simp⟩,
   ⟨4, 10 * us - 1, pins, fits, State.reset, by decide +kernel⟩,
   ⟨4, 4, pins, fits, { up .ready with hth.resetDue := some 4 }, by decide +kernel⟩⟩

/-- The hypotheses of InputsMoveTheDevice can be met. -/
theorem test_hyps_InputsMoveTheDevice :
    (∃ (t : Time) (s : State), s.hth.boot ≠ .hold ∧ wb s.hth.wakeConfig 0 = true ∧ s.hth.ign = true) ∧
    (∃ (t : Time) (s : State), wb s.hth.wakeConfig 0 = false) ∧
    (∃ (t : Time) (s : State), s.hth.boot ≠ .hold ∧ wb s.hth.wakeConfig 0 = true) ∧
    (∃ (t d : Time) (s : State), s.hth.ignOffDue = some d ∧ d ≤ t) ∧
    (∃ s : State, ignOffTarget s = none) ∧
    (∃ (p : PState) (s : State), ignOffTarget s = some p ∧ s.hth.pwr = .safe) ∧
    (∃ (p : PState) (s : State), ignOffTarget s = some p ∧ s.hth.pwr ≠ .safe ∧ s.hth.pwr ≠ .off ∧ ((s.busy = true ∨
      s.hth.pwr = .quench))) ∧
    (∃ (p : PState) (s : State), ignOffTarget s = some p ∧ s.busy = false ∧ ((s.hth.pwr = .sleep ∨ s.hth.pwr =
      .standby ∨ s.hth.pwr = .ready ∨ s.hth.pwr = .lit))) ∧
    (∃ (t : Time) (s : State), s.hth.boot ≠ .hold ∧ wb s.hth.wakeConfig 1 = true ∧ s.hth.pwr = .sleep ∧ s.busy =
      false) ∧
    (∃ (t : Time) (s : State), s.hth.boot ≠ .hold ∧ wb s.hth.wakeConfig 0 = true ∧ s.hth.pwr = .sleep ∧ s.busy =
      false) ∧
    (∃ (t : Time) (s : State), s.hth.pwr = .safe) ∧
    (∃ (t : Time) (s : State), s.hth.boot ≠ .hold ∧ s.hth.pwr ≠ .lit) ∧
    (∃ (t : Time) (s : State), s.hth.boot ≠ .hold ∧ s.hth.pwr = .lit) ∧
    (∃ (c : Nat) (s : State), s.hth.pwr = .lit) :=
  ⟨⟨4, { up .ready with hth.ign := true }, by decide +kernel⟩,
   ⟨4, { up .ready with hth.ign := true, hth.wakeConfig := 0 }, by decide +kernel⟩,
   ⟨4, { up .ready with hth.ignOffDue := some 8 }, by decide +kernel⟩,
   ⟨8, 8, { up .ready with hth.ignOffDue := some 8 }, by decide +kernel⟩,
   ⟨{ up .ready with hth.wakeConfig := 0 }, by decide +kernel⟩,
   ⟨.sleep, up .safe, by decide +kernel⟩,
   ⟨.sleep, up .quench, by decide +kernel⟩,
   ⟨.sleep, up .lit, by decide +kernel⟩,
   ⟨4, up .sleep, by decide +kernel⟩,
   ⟨4, up .sleep, by decide +kernel⟩,
   ⟨4, up .safe, by decide +kernel⟩,
   ⟨4, up .ready, by decide +kernel⟩,
   ⟨4, up .lit, by decide +kernel⟩,
   ⟨0x20, up .lit, by decide +kernel⟩⟩

/-- The hypotheses of OscillatorsAndRails can be met. -/
theorem test_hyps_OscillatorsAndRails :
    (∃ (t : Time) (s : State), s.hth.boot ≠ .hold ∧ s.hth.onRc = false) ∧
    (∃ (t : Time) (k : Int) (s : State), s.hth.boot ≠ .hold ∧ s.hth.xtalOk = true ∧ s.hth.rcRun = true) ∧
    (∃ (t : Time) (s : State), s.hth.pwr = .sleep ∧ s.busy = false ∧ s.hth.onRc = false ∧ s.hth.lastActivity + 50 *
      ms ≤ t) ∧
    (∃ (t : Time) (s : State), max s.now t < s.hth.lastActivity + 50 * ms) ∧
    (∃ (t : Time) (r : Option (Fin 13)) (f : BitVec 4) (s : State), s.hth.boot = .rails) ∧
    (∃ (t : Time) (r : Option (Fin 13)) (f : BitVec 4) (s : State), s.hth.boot = .rails ∧ s.hth.railRetried = false) ∧
    (∃ (t d : Time) (s : State), s.hth.boot = .retryWait ∧ s.hth.railRetryDue = some d ∧ d ≤ t) ∧
    (∃ (t : Time) (s : State), s.hth.boot = .discharge ∧ s.hth.wakeWaiting = true) ∧
    (∃ (t : Time) (s : State), s.hth.boot = .discharge ∧ s.hth.wakeWaiting = false) ∧
    (∃ (t : Time) (r : Fin 13) (p : Pins) (v : Verify) (s : State), s.hth.boot ≠ .hold ∧ railWatched s r = true) ∧
    (∃ (t : Time) (r : Fin 13) (p : Pins) (v : Verify) (s : State), s.hth.boot ≠ .hold ∧ railWatched s r = true ∧
      r.val < 2) ∧
    (∃ (t : Time) (r : Fin 13) (p : Pins) (v : Verify) (s : State), 2 ≤ r.val ∧ s.hth.boot ≠ .hold ∧ railWatched s r
      = true ∧ s.thm.supplyFault &&& railBit r = 0) ∧
    (∃ (t : Time) (s : State), s.fastUp = true) :=
  ⟨⟨4, up .sleep, by decide +kernel⟩,
   ⟨4, 400, up .sleep, by decide +kernel⟩,
   ⟨50 * ms, up .sleep, by decide +kernel⟩,
   ⟨50 * ms - 1, up .sleep, by decide +kernel⟩,
   ⟨4, none, 0, { State.reset with hth.boot := .rails }, by decide +kernel⟩,
   ⟨4, some 3, 0, { State.reset with hth.boot := .rails }, by decide +kernel⟩,
   ⟨8, 8, { State.reset with hth.boot := .retryWait, hth.railRetryDue := some 8 }, by decide +kernel⟩,
   ⟨4, { State.reset with hth.boot := .discharge, hth.wakeWaiting := true }, by decide +kernel⟩,
   ⟨4, { State.reset with hth.boot := .discharge }, by decide +kernel⟩,
   ⟨4, 12, pins, fits, up .ready, by decide +kernel⟩,
   ⟨4, 1, pins, fits, up .ready, by decide +kernel⟩,
   ⟨4, 2, pins, fits, up .ready, by decide +kernel⟩,
   ⟨4, up .ready, by decide +kernel⟩⟩

/-- The hypotheses of FastDomainsStart can be met. -/
theorem test_hyps_FastDomainsStart :
    (∃ (t : Time) (v : Verify) (s : State), s.hth.boot = .loading ∧ s.hth.fwDone = false ∧ bootVerifies s true v =
      true) ∧
    (∃ (t : Time) (v : Verify) (s : State), s.hth.boot = .loading ∧ s.hth.fwDone = false ∧ bootVerifies s true v =
      false ∧ s.flash.mainPending = false ∧ s.hth.pwr ≠ .off ∧ s.hth.pwr ≠ .safe) ∧
    (∃ (t : Time) (s : State) (q : List (Nat × Int)), s.hth.boot = .loading ∧ s.hth.trainDone = false) ∧
    (∃ (t : Time) (s : State), s.hth.boot = .loading ∧ s.hth.fwDone = true ∧ s.hth.trainDone = true) ∧
    (∃ (t : Time) (s : State), s.hth.fwRuns = true ∧ s.sec.mainTrial = false) ∧
    (∃ (t a : Time) (s : State), s.hth.runSince = some a ∧ a + 10 * sec ≤ t ∧ s.sec.mainTrial = true ∧
      s.sec.patchTrial = false ∧ s.sec.svnPatch = false ∧ writeRefused (s.at t) = none) ∧
    (∃ (t a : Time) (s : State) (st : Status), s.hth.runSince = some a ∧ a + 10 * sec ≤ t ∧ s.sec.mainTrial = true ∧
      writeRefused (s.at t) = some st) ∧
    (∃ (t d : Time) (s : State), s.sec.svnRetry = some d ∧ d ≤ t ∧ writeRefused (s.at t) = none) ∧
    (∃ (t d : Time) (s : State), s.sec.svnRetry = some d ∧ d ≤ t) :=
  ⟨⟨4, fits, { State.reset with hth.boot := .loading }, by decide +kernel⟩,
   ⟨4, { fits with sigOk := false }, { State.reset with hth.boot := .loading }, by decide +kernel⟩,
   ⟨4, { State.reset with hth.boot := .loading }, [(0, 1)], by decide +kernel⟩,
   ⟨4, { State.reset with hth.boot := .loading, hth.fwDone := true, hth.trainDone := true }, by decide +kernel⟩,
   ⟨4, up .ready, by decide +kernel⟩,
   ⟨10 * sec, 0, { up .ready with hth.runSince := some 0, sec.mainTrial := true }, by decide +kernel⟩,
   ⟨10 * sec, 0, { up .ready with hth.runSince := some 0, sec.mainTrial := true, thm.supplyWarn := 1 }, .hwFault, by
     decide +kernel⟩,
   ⟨8, 8, { up .ready with sec.svnRetry := some 8 }, by decide +kernel⟩,
   ⟨8, 8, { up .ready with sec.svnRetry := some 8 }, by decide +kernel⟩⟩

/-- The hypotheses of TransitionsAndStateRequest can be met. -/
theorem test_hyps_TransitionsAndStateRequest :
    (∃ (t : Time) (l : List (Fin 64)) (tr : Trans) (s : State), s.hth.trans = some tr ∧ ((tr.stepTo = .sleep ∨
      (tr.stepTo = .standby ∧ tr.leaving ≠ .sleep) ∨ (tr.stepTo = .ready ∧ s.hth.boot = .on ∧ tr.leaving ≠
      .standby)))) ∧
    (∃ (t : Time) (l : List (Fin 64)) (tr : Trans) (s : State), s.hth.trans = some tr ∧ tr.stepTo = .quench) ∧
    (∃ (tr : Trans) (p : PState) (st : Status) (s : State), s.hth.held = none ∧ tr.cmd = none) ∧
    (∃ (t : Time) (l : List (Fin 64)) (tr : Trans) (s : State), s.hth.trans = some tr ∧ tr.stepTo = .sleep ∧
      tr.target = .sleep ∧ tr.leaving ≠ .quench ∧ tr.cmd = none ∧ s.hth.held = none) ∧
    (∃ (t : Time) (rq : Req) (h : Bool) (s x : State), x = estopSample h (s.at t) ∧ serves 0x03 rq x = true) ∧
    (∃ (rq : Req) (s : State), byteAt rq.payload 0 = 3 ∧ s.busy = false ∧ s.hth.pwr = .ready) ∧
    (∃ (rq : Req) (s : State), byteAt rq.payload 0 = 3 ∧ s.busy = false ∧ s.hth.pwr = .standby) ∧
    (∃ (rq : Req) (s : State), byteAt rq.payload 0 = 1 ∧ s.busy = false ∧ ((s.hth.pwr = .ready ∨ s.hth.pwr =
      .standby ∨ s.hth.pwr = .lit))) ∧
    (∃ (rq : Req) (s : State), 1 ≤ byteAt rq.payload 0 ∧ byteAt rq.payload 0 ≤ 4 ∧ s.busy = true) ∧
    (∃ (rq : Req) (s : State), 1 ≤ byteAt rq.payload 0 ∧ byteAt rq.payload 0 ≤ 4 ∧ s.busy = false ∧ s.hth.pwr =
      .quench) ∧
    (∃ (rq : Req) (s : State), (byteAt rq.payload 0 = 0 ∨ 4 < byteAt rq.payload 0)) :=
  ⟨⟨4, [], ⟨.lit, .sleep, .ready, .standby, 1, none⟩,
    { up .ready with hth.trans := some ⟨.lit, .sleep, .ready, .standby, 1, none⟩ }, by decide +kernel⟩,
   ⟨4, [], ⟨.lit, .quench, .lit, .quench, 0x10, none⟩,
     { up .lit with hth.trans := some ⟨.lit, .quench, .lit, .quench, 0x10, none⟩ }, by decide +kernel⟩,
   ⟨⟨.lit, .sleep, .standby, .sleep, 1, none⟩, .sleep, .ok, up .standby, by decide +kernel⟩,
   ⟨4, [], ⟨.lit, .sleep, .standby, .sleep, 0x10, none⟩,
     { up .standby with hth.trans := some ⟨.lit, .sleep, .standby, .sleep, 0x10, none⟩ }, by decide +kernel⟩,
   ⟨4, req 0x03 [3], true, ask (req 0x03 [3]) (up .standby), _, rfl, by decide +kernel⟩,
   ⟨req 0x03 [3], up .ready, by decide +kernel⟩,
   ⟨req 0x03 [3], up .standby, by decide +kernel⟩,
   ⟨req 0x03 [1], up .lit, by decide +kernel⟩,
   ⟨req 0x03 [4], { up .ready with hth.trans := some ⟨.ready, .lit, .ready, .lit, 1, none⟩ }, by decide +kernel⟩,
   ⟨req 0x03 [1], up .quench, by decide +kernel⟩,
   ⟨req 0x03 [5], up .ready, by decide +kernel⟩⟩

/-- The hypotheses of QuenchRampAndRecovery can be met. -/
theorem test_hyps_QuenchRampAndRecovery :
    (∃ (t : Time) (s : State), s.thm.quenching = true ∧ 2 ≤ s.thm.q) ∧
    (∃ (t : Time) (s : State), s.thm.quenching = true ∧ s.thm.q = 1) ∧
    (∃ (t d : Time) (s : State), s.thm.coolSince = some d ∧ d + dwell ≤ t ∧ s.hth.pwr = .quench ∧ s.busy = false ∧
      s.thm.repeated = false ∧ wb s.hth.wakeConfig 5 = true) ∧
    (∃ (t d : Time) (s : State), s.thm.coolSince = some d ∧ d + dwell ≤ t ∧ s.hth.pwr = .quench ∧ s.busy = false ∧
      wb s.hth.wakeConfig 5 = false) ∧
    (∃ (t d : Time) (s : State), s.thm.coolSince = some d ∧ max s.now t < d + dwell) :=
  ⟨⟨4, { up .quench with thm.quenching := true, thm.q := 2 }, by decide +kernel⟩,
   ⟨4, { up .quench with thm.quenching := true, thm.q := 1 }, by decide +kernel⟩,
   ⟨dwell, 0, { up .quench with thm.coolSince := some 0, hth.wakeConfig := 0x20 }, by decide +kernel⟩,
   ⟨dwell, 0, { up .quench with thm.coolSince := some 0, hth.wakeConfig := 0 }, by decide +kernel⟩,
   ⟨dwell - 1, 0, { up .quench with thm.coolSince := some 0 }, by decide +kernel⟩⟩

/-- The hypotheses of SpiPacketsAndReplies can be met. -/
theorem test_hyps_SpiPacketsAndReplies :
    (∃ (t : Time) (b : List Byte) (s : State), hearthHears 3 s = true ∧ rxBusy (s.at t) = false) ∧
    (∃ (t : Time) (b : List Byte) (s : State), hearthHears 3 s = true ∧ rxBusy (s.at t) = true) ∧
    (∃ (t : Time) (c : Nat) (b : List Byte) (s : State), hearthHears 3 s = true ∧ c ≠ 0x02 ∧ c ≠ 0x0B ∧ c ≠ 0x05) ∧
    (∃ (p : Port) (b : List Byte) (s : State), byteAt b 0 = 0xA5 ∧ b.length = 10 + le16 b 4 ∧ le16 b 4 ≤ portLimit p
      ∧ crc32c (b.take (6 + le16 b 4)) = leNat (slice b (6 + le16 b 4) 4)) ∧
    (∃ (rq : Req) (s : State), flagCheck s rq = none ∧ opcodes.contains rq.opcode = true ∧ lenOk rq = true ∧
      keptReply rq s = none ∧ s.hst.outst = [] ∧ longBlocked s rq = false ∧ admission s rq = none) ∧
    (∃ (t : Time) (n : Nat) (b : List Byte) (q : List (List Byte)) (s : State), hearthHears 3 s = true ∧
      s.hst.spiReplies = b :: q ∧ b.length ≤ n) ∧
    (∃ (t : Time) (n : Nat) (b : List Byte) (q : List (List Byte)) (s : State), hearthHears 3 s = true ∧
      s.hst.spiReplies = b :: q ∧ n < b.length) ∧
    (∃ (t : Time) (n : Nat) (s : State), hearthHears 3 s = true ∧ s.hst.spiReplies = []) ∧
    (∃ (t : Time) (s : State), hearthHears 3 s = true) :=
  ⟨⟨4, [1], up .ready, by decide +kernel⟩,
   ⟨4, [1], { up .ready with hst.spiBusyUntil := some 5 }, by decide +kernel⟩,
   ⟨4, 0, [1], up .ready, by decide +kernel⟩,
   ⟨.spi, nopPacket, up .ready, by decide +kernel⟩,
   ⟨req 0 [], up .ready, by decide +kernel⟩,
   ⟨4, 2, [1], [[3]], { up .ready with hst.spiReplies := [[1], [3]] }, by decide +kernel⟩,
   ⟨4, 1, [1, 2], [[3]], { up .ready with hst.spiReplies := [[1, 2], [3]] }, by decide +kernel⟩,
   ⟨4, 2, up .ready, by decide +kernel⟩,
   ⟨4, up .ready, by decide +kernel⟩⟩

/-- The hypotheses of MailboxAndLink can be met. -/
theorem test_hyps_MailboxAndLink :
    (∃ (t d : Time) (g w : Nat) (s : State), s.hst.linkDue = some d ∧ d ≤ t ∧ s.fastUp = true ∧ s.hth.pwr ≠ .standby
      ∧ ((∀ q, s.hth.trans = some q → q.target ≠ .standby ∧ q.target ≠ .sleep)) ∧ ((s.hth.trans = none → s.hth.pwr ≠
      .sleep)) ∧ s.tng.pll[(3 : Fin 4)].locked = true ∧ s.hst.linkUp = false) ∧
    (∃ (t : Time) (g w : Nat) (s : State), s.hth.pwr = .standby) ∧
    (∃ (t : Time) (k : Fin 4) (b : List Byte) (s : State), s.hst.linkUp = true ∧ b.length = 4106 ∧ (s.hst.mbxBusy
      ||| s.hst.mbxDone) &&& BitVec.ofNat 4 (2 ^ k.val) = 0) ∧
    (∃ (t : Time) (k : Fin 4) (b : List Byte) (s : State), s.hst.linkUp = true ∧ (s.hst.mbxBusy ||| s.hst.mbxDone)
      &&& BitVec.ofNat 4 (2 ^ k.val) ≠ 0) ∧
    (∃ (t : Time) (v : Word) (s : State), s.hst.linkUp = true) ∧
    (∃ (t : Time) (v : Word) (b : List Byte) (s : State), s.hst.linkUp = false) :=
  ⟨⟨8, 8, 5, 8, { up .ready with hst.linkUp := false, hst.linkDue := some 8 }, by decide +kernel⟩,
   ⟨8, 5, 8, up .standby, by decide +kernel⟩,
   ⟨4, 3, List.replicate 4106 0, up .ready, by decide +kernel⟩,
   ⟨4, 3, [], { up .ready with hst.mbxBusy := 8 }, by decide +kernel⟩,
   ⟨4, 0x10000, up .ready, by decide +kernel⟩,
   ⟨4, 0, [], State.reset, by decide +kernel⟩⟩

/-- The hypotheses of CanFdFrames can be met. -/
theorem test_hyps_CanFdFrames :
    (∃ (t : Time) (b : List Byte) (s : State), hearthHears 2 s = true ∧ s.hst.busOff = false ∧ s.hth.can[(1 : Fin
      4)] ≠ s.hth.can[(3 : Fin 4)] ∧ s.hst.reCmd = {} ∧ s.hst.canRx = [] ∧ 6 ≤ b.length ∧ byteAt b 0 = 0xA5 ∧ 10 +
      le16 b 4 ≤ b.length) ∧
    (∃ (t : Time) (x : Bool) (s : State), (reasm x s).opened = true ∧ (reasm x s).last + 10 * ms < t) ∧
    (∃ (t : Time) (s : State), s.hst.busOff = true) ∧
    (∃ (t : Time) (f : List Rec) (s : State), s.hst.busOff = false ∧ s.hst.canWire = .event ∧ s.evt.canFrames = [f]
      ∧ s.hst.canSafetyTx = [] ∧ s.hst.canCmdTx = []) ∧
    (∃ (t : Time) (s : State), s.hth.boot ≠ .hold) :=
  ⟨⟨4, [0xA5, 0, 1, 1, 0, 0, 0, 0, 0, 0], up .ready, by decide +kernel⟩,
   ⟨10 * ms + 1, false, { up .ready with hst.reCmd.opened := true }, by decide +kernel⟩,
   ⟨4, { up .ready with hst.busOff := true }, by decide +kernel⟩,
   ⟨4, [aRec], { up .ready with hst.canWire := .event, evt.canFrames := [[aRec]] }, by decide +kernel⟩,
   ⟨4, up .ready, by decide +kernel⟩⟩

/-- The hypotheses of RequestQueueDiscipline can be met. -/
theorem test_hyps_RequestQueueDiscipline :
    (∃ (h : Hst) (r : Req), r ∈ h.requests ∧ rqSafety r = true) ∧
    (∃ (s : State) (g : Req), grantedNow s = some g) ∧
    (∃ (op : Nat) (body : Req → State → Ans) (rq : Req) (s : State), ((rq.opcode ≠ op ∨ s.hth.boot = .hold ∨
      (s.hst.requests.contains rq = true ∧ grantedNow s ≠ some rq)))) ∧
    (∃ (op : Nat) (body : Req → State → Ans) (rq : Req) (st : Status) (s : State), rq.opcode = op ∧ s.hth.boot ≠
      .hold ∧ s.hst.requests.contains rq = true ∧ grantedNow s = some rq ∧ admission (takeReq rq s) rq = some st) ∧
    (∃ (t : Time) (s : State), (∀ f ∈ s.brg.fwds, max s.now t < f.due)) ∧
    (∃ (t : Time) (f : Fwd) (n : Nat) (s : State), s.brg.fwds = [f] ∧ f.due ≤ t ∧ f.waiting = [n] ∧ f.status = [] ∧
      n < 8 ∧ f.payload = [] ∧ f.riders = [] ∧ f.rq.opcode ≠ 0x38 ∧ rqTarget f.rq ≠ 15) :=
  ⟨⟨(ask { req 0x1A [] with flags := 3 } (up .lit)).hst, { req 0x1A [] with flags := 3 }, by decide +kernel⟩,
   ⟨ask (req 0x02 []) (up .lit), req 0x02 [], by decide +kernel⟩,
   ⟨0x00, fun _ s => (s, .ok, []), req 0x02 [], ask (req 0x02 []) (up .ready), by decide +kernel⟩,
   ⟨0x12, fun _ s => (s, .ok, []), req 0x12 (List.replicate 12 0), .wrongState, ask (req 0x12 (List.replicate 12 0))
     (up .sleep), by decide +kernel⟩,
   ⟨4, up .ready, by decide +kernel⟩,
   ⟨8, ⟨{ req 0x00 [] with flags := 0x14 }, [1], [], [], 8, [], []⟩, 1,
     { up .ready with brg.fwds := [⟨{ req 0x00 [] with flags := 0x14 }, [1], [], [], 8, [], []⟩] }, by
     decide +kernel⟩⟩

/-- The hypotheses of NopChangesNothing can be met. -/
theorem test_hyps_NopChangesNothing :
    (∃ (t : Time) (rq : Req) (s : State), serves 0x00 rq (s.at t) = true) ∧
    (∃ rq : Req, rq.opcode = 0x00) :=
  ⟨⟨4, req 0x00 [], ask (req 0x00 []) (up .sleep), by decide +kernel⟩,
   ⟨req 0 [], by decide +kernel⟩⟩

/-- The hypotheses of StatusAndAnswers can be met. -/
theorem test_hyps_StatusAndAnswers :
    (∃ (t : Time) (rq : Req) (s : State), serves 0x02 rq (s.at t) = true) ∧
    (∃ (rq : Req) (st : Status) (pl : List Byte) (s : State), rq.port = .spi ∧ st ≠ .pending ∧ wantsReply rq st =
      true ∧ reqOutst rq s.hst = none ∧ (s.evt.recs.filter fun r => r.piggy) = [] ∧ s.hst.spiReplies.length < 8) ∧
    (∃ (rq : Req) (pl : List Byte) (s : State), bit rq.flags.toNat 0 = false ∧ rq.port ≠ .brugo) :=
  ⟨⟨4, req 0x02 [], ask (req 0x02 []) (up .sleep), by decide +kernel⟩,
   ⟨req 0x00 [], .ok, [], up .ready, by decide +kernel⟩,
   ⟨{ req 0x00 [] with flags := 0 }, [], up .ready, by decide +kernel⟩⟩

/-- The hypotheses of EventCommands can be met. -/
theorem test_hyps_EventCommands :
    (∃ (t : Time) (rq : Req) (s : State), serves 0x04 rq (s.at t) = true ∧ 1 ≤ byteAt rq.payload 0 ∧ byteAt
      rq.payload 0 ≤ 127 ∧ byteAt rq.payload 1 = 0) ∧
    (∃ (t : Time) (rq : Req) (s : State), serves 0x05 rq (s.at t) = true ∧ rq.payload.length = 2 ∧ le16 rq.payload 0
      < 1024 ∧ evDefined (le16 rq.payload 0) = true) ∧
    (∃ (t : Time) (rq : Req) (s : State), serves 0x06 rq (s.at t) = true ∧ rq.payload.length = 4 ∧ routeRefused
      (routeEntry rq.payload 0) = none) ∧
    (∃ (t : Time) (rq : Req) (s : State) (st : Status), serves 0x06 rq (s.at t) = true ∧ rq.payload.length = 4 ∧
      routeRefused (routeEntry rq.payload 0) = some st) ∧
    (∃ (id e r : Nat), evSev id = some 3 ∧ ((e = 0 ∨ bit r 0 = false))) :=
  ⟨⟨4, req 0x04 [127, 0], ask (req 0x04 [127, 0]) (up .sleep), by decide +kernel⟩,
   ⟨4, req 0x05 [0x20, 0], ask (req 0x05 [0x20, 0]) (up .sleep), by decide +kernel⟩,
   ⟨4, req 0x06 [0x20, 0, 1, 1], ask (req 0x06 [0x20, 0, 1, 1]) (up .sleep), by decide +kernel⟩,
   ⟨4, req 0x06 [0x20, 0, 2, 1], ask (req 0x06 [0x20, 0, 2, 1]) (up .sleep), .badParam, by decide +kernel⟩,
   ⟨evAnvVerifyFail, 0, 1, by decide +kernel⟩⟩

/-- The hypotheses of EventsLatchAndClear can be met. -/
theorem test_hyps_EventsLatchAndClear :
    (∃ (id d : Nat) (s : State), s.evt.enabled id = false) ∧
    (∃ (id d : Nat) (s : State), s.evt.enabled id = true ∧ s.evt.latched id = false ∧ id ≠ evHstCmdDone ∧ id ≠
      evEvtCanDropped) ∧
    (∃ (t d : Time) (s : State), s.evt.gatherDue = some d ∧ d ≤ t ∧ s.evt.pushFrame.2 = false) ∧
    (∃ (t d : Time) (s : State), s.evt.gatherDue = some d ∧ max s.now t < d) ∧
    (∃ (t : Time) (g : Nat) (v : Word) (s : State), rowOpen s = true ∧ 1 ≤ g ∧ g ≤ 0x13 ∧ within v (groupMask g) =
      true) ∧
    (∃ (t : Time) (g : Nat) (v : Word) (s : State), rowOpen s = true ∧ 1 ≤ g ∧ g ≤ 0x13 ∧ within v (groupMask g) =
      false) ∧
    (∃ (t : Time) (g : Nat) (v : Word) (s : State), rowOpen s = true ∧ 0x13 < g) :=
  ⟨⟨0x20, 0, { up .ready with evt.disabled := [0x20] }, by decide +kernel⟩,
   ⟨0x20, 5, up .ready, by decide +kernel⟩,
   ⟨8, 8, { up .ready with evt.gatherDue := some 8, evt.canPend := [aRec] }, by decide +kernel⟩,
   ⟨7, 8, { up .ready with evt.gatherDue := some 8 }, by decide +kernel⟩,
   ⟨4, 0x13, 1, up .ready, by decide +kernel⟩,
   ⟨4, 1, 0xFFFFFFFF, up .ready, by decide +kernel⟩,
   ⟨4, 0x14, 1, up .ready, by decide +kernel⟩⟩

/-- The hypotheses of FaultSources can be met. -/
theorem test_hyps_FaultSources :
    ∃ (e x : Evt) (s : State), e.recs = x.recs :=
  ⟨{}, {}, State.reset, by decide +kernel⟩

/-- The hypotheses of LayerDefineAndShadow can be met. -/
theorem test_hyps_LayerDefineAndShadow :
    (∃ (t : Time) (rq : Req) (n : Fin 16) (d : Layer) (s : State), serves 0x10 rq (s.at t) = true ∧ byteAt
      rq.payload 0 = n.val ∧ zeroAt rq.payload 1 3 = true ∧ leNat (slice rq.payload 4 32) = d.toNat ∧ lyFieldsOk d =
      true) ∧
    (∃ (t : Time) (rq : Req) (s : State), serves 0x10 rq (s.at t) = true ∧ ((16 ≤ byteAt rq.payload 0 ∨ zeroAt
      rq.payload 1 3 = false ∨ lyFieldsOk (BitVec.ofNat 256 (leNat (slice rq.payload 4 32))) = false))) ∧
    (∃ (t : Time) (rq : Req) (n : Fin 16) (s : State), serves 0x11 rq (s.at t) = true ∧ byteAt rq.payload 0 = n.val
      ∧ byteAt rq.payload 1 = 4 ∧ zeroAt rq.payload 2 2 = true ∧ zeroAt rq.payload 17 3 = true ∧ lyFieldsOk
      s.cmp.shadow[n] = true) ∧
    (∃ (t : Time) (rq : Req) (n : Fin 16) (s : State), serves 0x11 rq (s.at t) = true ∧ byteAt rq.payload 0 = n.val
      ∧ byteAt rq.payload 1 = 2 ∧ zeroAt rq.payload 2 2 = true ∧ zeroAt rq.payload 17 3 = true ∧ le16 rq.payload 12
      < 16384 ∧ le16 rq.payload 14 < 16384 ∧ lyFieldsOk s.cmp.shadow[n] = true) :=
  ⟨⟨4, req 0x10 ([3, 0, 0, 0] ++ List.replicate 32 0), 3, 0, ask (req 0x10 ([3, 0, 0, 0] ++ List.replicate 32 0))
    (up .ready), by decide +kernel⟩,
   ⟨4, req 0x10 ([16, 0, 0, 0] ++ List.replicate 32 0), ask (req 0x10 ([16, 0, 0, 0] ++ List.replicate 32 0)) (up
     .ready), by decide +kernel⟩,
   ⟨4, req 0x11 ([3, 4] ++ List.replicate 14 0 ++ [200, 0, 0, 0]), 3, ask (req 0x11 ([3, 4] ++ List.replicate 14 0
     ++ [200, 0, 0, 0])) (up .ready), by decide +kernel⟩,
   ⟨4, req 0x11 ([3, 2] ++ List.replicate 10 0 ++ [1, 2, 3, 4, 0, 0, 0, 0]), 3, ask (req 0x11 ([3, 2] ++
     List.replicate 10 0 ++ [1, 2, 3, 4, 0, 0, 0, 0])) (up .ready), by decide +kernel⟩⟩

/-- The hypotheses of FencesMakeBuffersReady can be met. -/
theorem test_hyps_FencesMakeBuffersReady :
    (∃ (t : Time) (n : Fin 16) (v : Word) (s : State), s.hst.linkUp = true) ∧
    (∃ (n : Fin 16) (d : Layer) (s : State), lyIsDp d = false ∧ s.cmp.fenceAt[n] < s.now) ∧
    (∃ (t : Time) (n : Fin 16) (v : Word) (s : State), s.hst.linkUp = false) :=
  ⟨⟨4, 15, 0xFFFFFFFF, up .ready, by decide +kernel⟩,
   ⟨3, 0, { up .ready with now := 4 }, by decide +kernel⟩,
   ⟨4, 15, 1, State.reset, by decide +kernel⟩⟩

/-- The hypotheses of NotReadyRule can be met. -/
theorem test_hyps_NotReadyRule :
    (∃ (n : Fin 16) (s : State), lyEnable s.cmp.live[n] = true ∧ layerReady s n s.cmp.live[n] = true) ∧
    (∃ (n : Fin 16) (s : State), lyEnable s.cmp.live[n] = true ∧ layerReady s n s.cmp.live[n] = false) ∧
    (∃ (n : Fin 16) (s : State), lyEnable s.cmp.live[n] = false) :=
  ⟨⟨0, { up .ready with cmp.live := Vector.replicate 16 (BitVec.ofNat 256 (2 ^ 32)) }, by decide +kernel⟩,
   ⟨0, { up .ready with cmp.live := Vector.replicate 16 (BitVec.ofNat 256 (2 ^ 32 + 2 ^ 224)) }, by decide +kernel⟩,
   ⟨0, up .ready, by decide +kernel⟩⟩

/-- The hypotheses of DpInputs can be met. -/
theorem test_hyps_DpInputs :
    (∃ (t : Time) (i : Fin 2) (r w h f : Nat) (c : DpColour) (d : Bool) (s : State), s.fastUp = true ∧ w * h * f *
      dpBytes c ≤ 16000000000 * 1000) ∧
    (∃ (t : Time) (i : Fin 2) (r w h f : Nat) (c : DpColour) (d : Bool) (s : State), s.fastUp = true ∧ 16000000000 *
      1000 < w * h * f * dpBytes c) ∧
    (∃ (t : Time) (i : Fin 2) (p : List Nat) (s : State), s.fastUp = true ∧ s.ing.dp[i].locked = true ∧
      s.ing.dp[i].tooFast = false ∧ s.ing.dp[i].bad = false) ∧
    (∃ (t : Time) (i : Fin 2) (p : List Nat) (s : State), s.fastUp = true ∧ s.ing.dp[i].locked = true ∧
      s.ing.dp[i].tooFast = false ∧ s.ing.dp[i].bad = true) ∧
    (∃ (t : Time) (i : Fin 2) (s : State), s.fastUp = true) ∧
    (∃ (t : Time) (i : Fin 2) (a : Time) (s : State), s.fastUp = true ∧ s.ing.dp[i].frameAt = some a ∧ a +
      s.ing.dpStale.toNat * ms ≤ t) ∧
    (∃ (t : Time) (i : Fin 2) (p : List Nat) (s : State), s.fastUp = false) :=
  ⟨⟨4, 1, 2, 1920, 1080, 60000, rgb8, false, up .ready, by decide +kernel⟩,
   ⟨4, 1, 2, 8192, 8192, 240000, { rgb8 with bpc := 16 }, false, up .ready, by decide +kernel⟩,
   ⟨4, 1, [], { up .ready with ing.dp := Vector.replicate 2 { locked := true } }, by decide +kernel⟩,
   ⟨4, 1, [], { up .ready with ing.dp := Vector.replicate 2 { locked := true, bad := true } }, by decide +kernel⟩,
   ⟨4, 1, up .ready, by decide +kernel⟩,
   ⟨50 * ms, 1, 0, { up .ready with ing.dp := Vector.replicate 2 { locked := true, frameAt := some 0 } }, by
     decide +kernel⟩,
   ⟨4, 1, [], State.reset, by decide +kernel⟩⟩

/-- The hypotheses of CommitIsAcceptedAndReported can be met. -/
theorem test_hyps_CommitIsAcceptedAndReported :
    (∃ (t : Time) (rq : Req) (s : State), serves 0x12 rq (s.at t) = true ∧ commitPre rq s = none ∧ ((s.hth.pwr =
      .lit ∨ s.hth.pwr = .ready)) ∧ s.brg.barrier = none ∧ s.cmp.armed = none ∧ commitReject (commitFlags
      rq.payload) (takeReq rq (s.at t)) = none) ∧
    (∃ (t : Time) (rq : Req) (r : Reject) (s : State), serves 0x12 rq (s.at t) = true ∧ commitPre rq s = none ∧
      ((s.hth.pwr = .lit ∨ s.hth.pwr = .ready)) ∧ s.brg.barrier = none ∧ s.cmp.armed = none ∧ commitReject
      (commitFlags rq.payload) (takeReq rq (s.at t)) = some r) ∧
    (∃ (t : Time) (rq : Req) (z : Snapshot) (s : State), serves 0x12 rq (s.at t) = true ∧ commitPre rq s = none ∧
      ((s.hth.pwr = .lit ∨ s.hth.pwr = .ready)) ∧ s.brg.barrier = none ∧ s.cmp.armed = some z) ∧
    (∃ (t : Time) (rq : Req) (s : State), serves 0x12 rq (s.at t) = true ∧ commitPre rq s = none ∧ s.hth.pwr =
      .standby) ∧
    (∃ (t : Time) (rq : Req) (s : State), serves 0x13 rq (s.at t) = true) :=
  ⟨⟨4, req 0x12 (List.replicate 12 0), ask (req 0x12 (List.replicate 12 0)) (up .ready), by decide +kernel⟩,
   ⟨4, req 0x12 (List.replicate 12 0), ⟨0x28, 0x20, 0⟩, ask (req 0x12 (List.replicate 12 0)) (mae .ready), by
     decide +kernel⟩,
   ⟨4, req 0x12 (List.replicate 12 0), snap,
     { ask (req 0x12 (List.replicate 12 0)) (up .lit) with cmp.armed := some snap }, by decide +kernel⟩,
   ⟨4, req 0x12 (List.replicate 12 0), ask (req 0x12 (List.replicate 12 0)) (up .standby), by decide +kernel⟩,
   ⟨4, req 0x13 [], ask (req 0x13 []) (up .ready), by decide +kernel⟩⟩

/-- The hypotheses of CommitAppliesAtAFrameStart can be met. -/
theorem test_hyps_CommitAppliesAtAFrameStart :
    (∃ (t : Time) (fi : FrameIn) (s : State), s.fastUp = true) ∧
    (∃ (t : Time) (fi : FrameIn) (s : State), s.fastUp = false) ∧
    (∃ (z : Snapshot) (s : State), s.cmp.armed = some z ∧ z.inBarrier = false ∧ s.now < z.accepted + 200 * us) ∧
    (∃ (z : Snapshot) (s : State), s.cmp.armed = some z ∧ z.inBarrier = false ∧ z.accepted + 200 * us ≤ s.now) :=
  ⟨⟨4, ⟨none, true, Vector.replicate 4 true⟩, up .ready, by decide +kernel⟩,
   ⟨4, ⟨none, true, Vector.replicate 4 true⟩, State.reset, by decide +kernel⟩,
   ⟨snap, { up .lit with cmp.armed := some snap, now := 200 * us - 1 }, by decide +kernel⟩,
   ⟨snap, { up .lit with cmp.armed := some snap, now := 200 * us }, by decide +kernel⟩⟩

/-- The hypotheses of SlotsAndLateBands can be met. -/
theorem test_hyps_SlotsAndLateBands :
    (∃ (t : Time) (e : Fin 4) (l : Nat) (s : State), s.fastUp = true ∧ s.isMae e = true ∧ s.thr.eng[e].epochs ≤
      s.thr.eng[e].s) ∧
    (∃ (t : Time) (e : Fin 4) (l : Nat) (s : State), ((s.fastUp = false ∨ s.isMae e = false ∨ s.thr.eng[e].s <
      s.thr.eng[e].epochs))) ∧
    (∃ (t : Time) (e : Fin 4) (x : SheafEntry) (s : State), s.fastUp = true ∧ s.isMae e = true ∧ s.frg.eng[e].lit =
      true ∧ s.thr.eng[e].epochs ≠ 0 ∧ slotEntry s.thr.eng[e].read s.thr.eng[e].slot = some x ∧ x.dark = false) ∧
    (∃ (t : Time) (e : Fin 4) (s : State), ((s.fastUp = false ∨ s.isMae e = false ∨ s.frg.eng[e].lit = false ∨
      s.thr.eng[e].epochs = 0 ∨ slotEntry s.thr.eng[e].read s.thr.eng[e].slot = none))) ∧
    (∃ (e : Fin 4) (x : SheafEntry) (s : State), focusUsed s e = false ∧ litWeight s e s.thr.eng[e].read x ≠ 0 ∧
      (slotPulse s e (litWeight s e s.thr.eng[e].read x) (windowTaps s e) (chan e x.primary)).len ≠ 0) ∧
    (∃ (t : Time) (e : Fin 4) (k : Fin 16) (f : Nat) (s : State), s.fastUp = true ∧ s.isMae e = true ∧ transmits s e
      = true ∧ s.thr.eng[e].epochs ≠ 0 ∧ max s.now t < s.thr.eng[e].epochAt + 500 * k.val ∧ slotZero
      s.thr.eng[e].read s.thr.eng[e].slot = false ∧ s.thr.eng[e].darkBands.contains k.val = false ∧ bandFlits
      ((s.eng[e].h * (k.val + 1) / 16 - s.eng[e].h * k.val / 16) * rowBytes s.eng[e].w) ≤ f) ∧
    (∃ (t : Time) (e : Fin 4) (k : Fin 16) (f : Nat) (s : State), s.fastUp = true ∧ s.isMae e = true ∧ transmits s e
      = true ∧ s.thr.eng[e].epochs ≠ 0 ∧ max s.now t < s.thr.eng[e].epochAt + 500 * k.val ∧ slotZero
      s.thr.eng[e].read s.thr.eng[e].slot = false ∧ s.thr.eng[e].darkBands.contains k.val = false ∧ f < bandFlits
      ((s.eng[e].h * (k.val + 1) / 16 - s.eng[e].h * k.val / 16) * rowBytes s.eng[e].w)) ∧
    (∃ (t : Time) (e : Fin 4) (k : Fin 16) (f : Nat) (s : State), max s.now t < s.thr.eng[e].epochAt + 500 * k.val ∧
      s.thr.eng[e].darkBands.contains k.val = true) ∧
    (∃ (e : Fin 4) (k f : Nat) (s : State), k < 16) :=
  ⟨⟨4, 0, 0, mae .lit, by decide +kernel⟩,
   ⟨4, 0, 0, State.reset, by decide +kernel⟩,
   ⟨4, 0, {}, inSlot {}, by decide +kernel⟩,
   ⟨4, 0, mae .lit, by decide +kernel⟩,
   ⟨0, { weight := 64 }, inSlot { weight := 64 }, by decide +kernel⟩,
   ⟨499, 0, 1, 176, inSlot {}, by decide +kernel⟩,
   ⟨499, 0, 1, 175, inSlot {}, by decide +kernel⟩,
   ⟨0, 0, 5, 0,
     { inSlot {} with thr.eng := updWith (inSlot {}).thr.eng 0 fun k => { k with epochAt := 4, darkBands := [5] } },
     by decide +kernel⟩,
   ⟨0, 15, 3, inSlot {}, by decide +kernel⟩⟩

/-- The hypotheses of CornerTurnAndSheafLoad can be met. -/
theorem test_hyps_CornerTurnAndSheafLoad :
    (∃ (t : Time) (e : Fin 4) (s : State), composing (s.at t) = true ∧ s.hth.composed ≠ 0 ∧ s.isMae e = true ∧ 8 *
      s.thr.eng[e].halves < s.eng[e].h) ∧
    (∃ (t : Time) (e : Fin 4) (h : Nat) (s : State), h ≠ s.thr.eng[e].halves) ∧
    (∃ (t : Time) (e : Fin 4) (s : State), s.thr.eng[e].recompiling = none) ∧
    (∃ (t : Time) (e : Fin 4) (n u r : Nat) (b : Bool) (s : State), s.thr.eng[e].recompiling = some (n, u, r, b)) ∧
    (∃ (t : Time) (rq : Req) (e : Fin 4) (s : State), serves 0x20 rq (s.at t) = true ∧ sheafLoadPre rq s = none ∧
      byteAt rq.payload 0 = e.val ∧ s.hth.pwr ≠ .standby ∧ s.isMae e = true ∧ armedNames s (·.sheaf) e = false) ∧
    (∃ (t : Time) (rq : Req) (e : Fin 4) (s : State), serves 0x20 rq (s.at t) = true ∧ sheafLoadPre rq s = none ∧
      byteAt rq.payload 0 = e.val ∧ s.hth.pwr ≠ .standby ∧ s.isMae e = false) ∧
    (∃ (t : Time) (s : State), inSRL s.hth.pwr = true) :=
  ⟨⟨4, 0, { mae .ready with hth.composed := 1 }, by decide +kernel⟩,
   ⟨4, 0, 1, mae .ready, by decide +kernel⟩,
   ⟨4, 0, mae .ready, by decide +kernel⟩,
   ⟨4, 0, 60, 16, 24000, true,
     { mae .ready with thr.eng := updWith (mae .ready).thr.eng 0 fun k => { k with recompiling := some (60, 16, 24000, true) } },
     by decide +kernel⟩,
   ⟨4, req 0x20 sheafBytes, 0, ask (req 0x20 sheafBytes) (mae .ready), by decide +kernel⟩,
   ⟨4, req 0x20 sheafBytes, 0, ask (req 0x20 sheafBytes) (up .ready), by decide +kernel⟩,
   ⟨4, up .standby, by decide +kernel⟩⟩

/-- The hypotheses of LanesCarryFlits can be met. -/
theorem test_hyps_LanesCarryFlits :
    (∃ (l f i : Nat) (c : List SwtCmd) (x : Nat × List Byte), 0 < l ∧ (flitStream l f c)[i]? = some x) ∧
    (∃ (e : Fin 4) (n : Nat) (s : State), lanesRun s e = false) ∧
    (∃ (e : Fin 4) (n : Nat) (s : State), lanesRun s e = true ∧ s.swt[e].link = .training) ∧
    (∃ (e : Fin 4) (n : Nat) (s : State), lanesRun s e = true ∧ s.swt[e].link ≠ .training ∧ s.swt[e].link ≠ .active) ∧
    (∃ (e : Fin 4) (n : Nat) (s : State), s.swt[e].link = .active ∧ lanesRun s e = true ∧ n < s.thr.eng[e].s) ∧
    (∃ (e : Fin 4) (s : State), s.swt[e].link = .active ∧ lanesRun s e = true) :=
  ⟨⟨8, 0, 2, [.idle true 3], (2, BitVec.ofNat 8 224 :: List.replicate 99 0), by decide +kernel⟩,
   ⟨0, 3, mae .ready, by decide +kernel⟩,
   ⟨0, 3, { mae .ready with swt := Vector.replicate 4 { link := .training } }, by decide +kernel⟩,
   ⟨0, 3, { mae .ready with swt := Vector.replicate 4 { link := .ready } }, by decide +kernel⟩,
   ⟨0, 199, { inSlot {} with thr.eng := updWith (inSlot {}).thr.eng 0 fun k => { k with s := 200 } }, by
     decide +kernel⟩,
   ⟨0, { inSlot {} with thr.eng := updWith (inSlot {}).thr.eng 0 fun k => { k with s := 200 } }, by decide +kernel⟩⟩

/-- The hypotheses of ReferencesAndTimingProfiles can be met. -/
theorem test_hyps_ReferencesAndTimingProfiles :
    (∃ (t : Time) (a : Aligner) (s : State), s.fastUp = true ∧ ((a = .frame → wfl s.tng.config 30 2 = 1 ∧ coldStarts
      s = false))) ∧
    (∃ (t : Time) (a : Aligner) (s : State), ((s.fastUp = false ∨ (a = .frame ∧ (wfl s.tng.config 30 2 ≠ 1 ∨
      coldStarts s = true))))) ∧
    (∃ (a : Aligner) (p : Time) (s : State), (aligner a s).st = .locked ∧ (aligner a s).edge = some p ∧ edgeFits
      (refPeriod a s) (s.now - p) 16 = false) ∧
    (∃ (t p : Time) (s : State), s.fastUp = true ∧ s.tng.frm.st = .locked ∧ s.tng.frm.edge = some p ∧ 3 * refPeriod
      .frame (s.at t) ≤ 2 * (max s.now t - p)) ∧
    (∃ (t : Time) (a : Aligner) (s : State), hasRef (aligner a (s.at t)) = false) ∧
    (∃ (t d : Time) (s : State), s.tng.frm.lostAt = some d ∧ s.tng.frm.st = .coasting ∧ d + sec ≤ t ∧ s.tng.frm.long
      = false) ∧
    (∃ (t : Time) (rq : Req) (s : State), serves 0x38 rq (s.at t) = true ∧ byteAt rq.payload 0 = 1 ∧ rateFieldsOk
      rq.payload = true ∧ s.hth.role ≠ 1 ∧ rateRefused (takeReq rq (s.at t)) false (le32 rq.payload 4) = none) ∧
    (∃ (p n r : Nat) (s : State), s.tng.frameAt + s.tng.framePeriod < s.now + 200 * us) ∧
    (∃ (t : Time) (rq : Req) (e : Fin 4) (s : State), serves 0x38 rq (s.at t) = true ∧ byteAt rq.payload 0 = 0 ∧
      byteAt rq.payload 1 = e.val ∧ byteAt rq.payload 2 = 0 ∧ zeroAt rq.payload 3 1 = true ∧ engineRefused (takeReq
      rq (s.at t)) e {} = none) ∧
    (∃ (t : Time) (rq : Req) (s : State), serves 0x38 rq (s.at t) = true ∧ 3 ≤ byteAt rq.payload 0) :=
  ⟨⟨4, .clock, up .ready, by decide +kernel⟩,
   ⟨4, .frame, up .ready, by decide +kernel⟩,
   ⟨.clock, 0, { up .ready with now := 45, tng.clk.st := .locked, tng.clk.edge := some 0 }, by decide +kernel⟩,
   ⟨3 * sec, 0, { up .ready with tng.frm.st := .locked, tng.frm.edge := some 0 }, by decide +kernel⟩,
   ⟨4, .clock, State.reset, by decide +kernel⟩,
   ⟨sec, 0, { up .ready with tng.frm.lostAt := some 0, tng.frm.st := .coasting }, by decide +kernel⟩,
   ⟨4, req 0x38 [1, 0, 1, 0, 96, 234, 0, 0], ask (req 0x38 [1, 0, 1, 0, 96, 234, 0, 0]) (up .ready), by
     decide +kernel⟩,
   ⟨1, 4, 60000, { up .ready with now := sec }, by decide +kernel⟩,
   ⟨4, req 0x38 [0, 3, 0, 0, 0, 0, 0, 0], 3, ask (req 0x38 [0, 3, 0, 0, 0, 0, 0, 0]) (up .ready), by decide +kernel⟩,
   ⟨4, req 0x38 [3, 0, 0, 0, 0, 0, 0, 0], ask (req 0x38 [3, 0, 0, 0, 0, 0, 0, 0]) (up .ready), by decide +kernel⟩⟩

/-- The hypotheses of PllsAreLostAndLock can be met. -/
theorem test_hyps_PllsAreLostAndLock :
    (∃ (t : Time) (p : Fin 4) (s : State), s.fastUp = true) ∧
    (∃ (p : Fin 4) (s : State), s.tng.pll[p].off = false ∧ s.tng.pll[p].locked = true ∧ s.tng.pll[p].relockAt =
      none) ∧
    (∃ (t : Time) (p : Fin 4) (s : State), s.tng.pll[p].lost = true ∧ s.tng.pll[p].off = false ∧ s.tng.pll[p].lbist
      = false ∧ s.tng.pll[p].attempts < 2) ∧
    (∃ (t : Time) (p : Fin 4) (s : State), s.tng.pll[p].lost = true ∧ s.tng.pll[p].off = false ∧ s.tng.pll[p].lbist
      = false ∧ s.tng.pll[p].attempts = 2) ∧
    (∃ (t : Time) (p : Fin 4) (b : Bool) (s : State), s.tng.pll[p].lost = true ∧ s.tng.pll[p].off = false ∧
      s.tng.pll[p].lbist = false ∧ s.tng.refclk = true ∧ p ≠ 3) ∧
    (∃ (t : Time) (m : BitVec 4) (s : State), s.hth.pwr ≠ .safe) ∧
    (∃ (t : Time) (s : State), s.hth.pwr = .safe) ∧
    (∃ (t : Time) (s : State), s.hth.pwr = .safe ∧ s.tng.refclk = true ∧ s.tng.pll[(0 : Fin 4)].lost = true ∧
      s.tng.pll[(0 : Fin 4)].off = false ∧ s.tng.pll[(0 : Fin 4)].lbist = false) :=
  ⟨⟨4, 1, up .ready, by decide +kernel⟩,
   ⟨1, up .ready, by decide +kernel⟩,
   ⟨4, 1, { up .ready with tng.pll := Vector.replicate 4 { lost := true, off := false, attempts := 1 } }, by
     decide +kernel⟩,
   ⟨4, 1, { up .ready with tng.pll := Vector.replicate 4 { lost := true, off := false, attempts := 2 } }, by
     decide +kernel⟩,
   ⟨4, 1, false, { up .ready with tng.pll := Vector.replicate 4 { lost := true, off := false } }, by decide +kernel⟩,
   ⟨4, 1, up .ready, by decide +kernel⟩,
   ⟨4, up .safe, by decide +kernel⟩,
   ⟨4, { up .safe with tng.pll := Vector.replicate 4 { lost := true, off := false } }, by decide +kernel⟩⟩

/-- The hypotheses of LinkBringup can be met. -/
theorem test_hyps_LinkBringup :
    (∃ (t : Time) (e : Fin 4) (s : State), rowOpen s = true ∧ ((s.swt[e].link = .failed ∨ s.swt[e].link = .down)) ∧
      linkMayStart s e = true) ∧
    (∃ (t : Time) (e : Fin 4) (s : State), s.swt[e].link = .training ∧ s.hth.pwr ≠ .safe) ∧
    (∃ (t : Time) (e : Fin 4) (s : State), ((s.swt[e].link ≠ .training ∨ s.hth.pwr = .safe))) ∧
    (∃ (e : Fin 4) (s : State), s.swt[e].attempts = 2) ∧
    (∃ (e : Fin 4) (s : State), s.swt[e].attempts < 2) ∧
    (∃ (t : Time) (e : Fin 4) (s : State), s.swt[e].link = .training ∧ s.hth.pwr ≠ .safe ∧ s.swt[e].step = 6) :=
  ⟨⟨4, 0, { mae .ready with swt := Vector.replicate 4 { link := .failed } }, by decide +kernel⟩,
   ⟨4, 0, { mae .ready with swt := Vector.replicate 4 { link := .training } }, by decide +kernel⟩,
   ⟨4, 0, mae .ready, by decide +kernel⟩,
   ⟨0, { mae .ready with swt := Vector.replicate 4 { link := .training, attempts := 2 } }, by decide +kernel⟩,
   ⟨0, { mae .ready with swt := Vector.replicate 4 { link := .training, attempts := 1 } }, by decide +kernel⟩,
   ⟨4, 0, { mae .ready with swt := Vector.replicate 4 { link := .training, step := 6 } }, by decide +kernel⟩⟩

/-- The hypotheses of ReturnLaneAndLaneStatistics can be met. -/
theorem test_hyps_ReturnLaneAndLaneStatistics :
    (∃ (t : Time) (e : Fin 4) (s : State), linkRuns s e = true) ∧
    (∃ (t : Time) (e : Fin 4) (b : List Byte) (s : State), linkRuns s e = true ∧ statusFrameOk b = false) ∧
    (∃ (t : Time) (e : Fin 4) (b : List Byte) (s : State), linkRuns s e = true ∧ statusFrameOk b = true ∧
      ((s.swt[e].link = .ready ∨ s.swt[e].link = .active)) ∧ frameLoss (frameRecord e b (s.at t)) e b = false) ∧
    (∃ (t : Time) (e : Fin 4) (s : State), linkRuns s e = true) ∧
    (∃ (t : Time) (e : Fin 4) (s : State), linkRuns s e = true ∧ ((s.swt[e].link = .ready ∨ s.swt[e].link =
      .active))) ∧
    (∃ (n : Nat) (e : Fin 4) (s : State), s.swt[e].link = .training ∧ s.hth.pwr ≠ .safe) ∧
    (∃ (e : Fin 4) (s : State), s.swt[e].missing = 0) ∧
    (∃ (t : Time) (s : State), s.fastUp = true) ∧
    (∃ (t : Time) (s : State), s.fastUp = false) :=
  ⟨⟨4, 0, { mae .ready with swt := Vector.replicate 4 { link := .ready } }, by decide +kernel⟩,
   ⟨4, 0, [], { mae .ready with swt := Vector.replicate 4 { link := .ready } }, by decide +kernel⟩,
   ⟨4, 0, goodFrame, { mae .ready with swt := Vector.replicate 4 { link := .ready } }, by decide +kernel⟩,
   ⟨4, 0, { mae .ready with swt := Vector.replicate 4 { link := .training } }, by decide +kernel⟩,
   ⟨4, 0, { mae .ready with swt := Vector.replicate 4 { link := .ready } }, by decide +kernel⟩,
   ⟨3, 0, { mae .ready with swt := Vector.replicate 4 { link := .training, step := 3 } }, by decide +kernel⟩,
   ⟨0, mae .ready, by decide +kernel⟩,
   ⟨4, mae .ready, by decide +kernel⟩,
   ⟨4, State.reset, by decide +kernel⟩⟩

/-- The hypotheses of ScannerStartsAndStops can be met. -/
theorem test_hyps_ScannerStartsAndStops :
    (∃ (t : Time) (e : Fin 4) (s : State), rowOpen s = true ∧ s.isLse e = true ∧ ((s.scn[e].st = .stopped ∨
      s.scn[e].st = .failed))) ∧
    (∃ (t : Time) (e : Fin 4) (s : State), s.isLse e = true ∧ s.scn[e].excited = true ∧ s.scn[e].st = .excite ∧
      s.scn[e].slowRaised = false ∧ s.scn[e].excitedAt + 250 * ms ≤ t) ∧
    (∃ (t a : Time) (e : Fin 4) (s : State), s.isLse e = true ∧ s.scn[e].excited = true ∧ s.scn[e].devSince = some a
      ∧ a + 50 * us ≤ t) ∧
    (∃ (t : Time) (e : Fin 4) (s : State), s.scn[e].devSince = none) ∧
    (∃ (e : Fin 4) (c : Nat) (s : State), stopsIn s.scn[e] = true) ∧
    (∃ (e : Fin 4) (c : Nat) (s : State), stopsIn s.scn[e] = false) ∧
    (∃ (t : Time) (e : Fin 4) (a : Nat) (s : State), s.isLse e = true ∧ s.scn[e].excited = true ∧ s.scn[e].ampLow <
      3) ∧
    (∃ (t : Time) (e : Fin 4) (s : State), s.isLse e = false) :=
  ⟨⟨4, 0, lse { st := .stopped }, by decide +kernel⟩,
   ⟨250 * ms, 0, lse { st := .excite, excited := true }, by decide +kernel⟩,
   ⟨50 * us, 0, 0, lse { st := .active, excited := true, devSince := some 0 }, by decide +kernel⟩,
   ⟨4, 0, lse { st := .active, excited := true }, by decide +kernel⟩,
   ⟨0, 5, lse { st := .active, excited := true }, by decide +kernel⟩,
   ⟨0, 5, lse { st := .stopped }, by decide +kernel⟩,
   ⟨4, 0, 100, lse { st := .active, excited := true, ampLow := 2 }, by decide +kernel⟩,
   ⟨4, 0, up .ready, by decide +kernel⟩⟩

/-- The hypotheses of PickoffEdgesAndRows can be met. -/
theorem test_hyps_PickoffEdgesAndRows :
    (∃ (t : Time) (e : Fin 4) (p : Frac) (s : State), s.isLse e = true ∧ s.scn[e].excited = true ∧ s.scn[e].period =
      some p ∧ (((max s.now t - s.scn[e].edge.getD (max s.now t)) * p.den : Nat) - (p.num : Int)).natAbs * 25 ≤
      p.num) ∧
    (∃ (t : Time) (e : Fin 4) (p : Frac) (s : State), s.isLse e = true ∧ s.scn[e].excited = true ∧ s.scn[e].period =
      some p ∧ p.num < (((max s.now t - s.scn[e].edge.getD (max s.now t)) * p.den : Nat) - (p.num : Int)).natAbs *
      25) ∧
    (∃ (t : Time) (e : Fin 4) (s : State), s.isLse e = true ∧ s.scn[e].excited = true ∧ s.scn[e].period = none) ∧
    (∃ (t a : Time) (e : Fin 4) (p : Frac) (s : State), s.isLse e = true ∧ s.scn[e].excited = true ∧ s.scn[e].period
      = some p ∧ s.scn[e].edge = some a ∧ 26 * p.num ≤ 25 * (max s.now t - a) * p.den ∧ s.scn[e].missed = 0) ∧
    (∃ (t a : Time) (e : Fin 4) (p : Frac) (s : State), s.isLse e = true ∧ s.scn[e].excited = true ∧ s.scn[e].period
      = some p ∧ s.scn[e].edge = some a ∧ 26 * p.num ≤ 25 * (max s.now t - a) * p.den ∧ s.scn[e].missed = 1) ∧
    (∃ (t a : Time) (e : Fin 4) (p : Frac) (s : State), s.scn[e].period = some p ∧ s.scn[e].edge = some a ∧ 25 *
      (max s.now t - a) * p.den < 26 * p.num) ∧
    (∃ (e : Fin 4) (s : State), s.scn[e].line = none) ∧
    (∃ (t : Time) (e : Fin 4) (n : Nat) (l : Line) (s : State), rowLine (s.at t) e = some l ∧ rowDue (s.at t) e l =
      true) ∧
    (∃ (t : Time) (e : Fin 4) (n : Nat) (l : Line) (s : State), rowLine (s.at t) e = some l ∧ rowDue (s.at t) e l =
      true ∧ s.frg.eng[e].lit = true) ∧
    (∃ (t : Time) (e : Fin 4) (n : Nat) (b : Bool) (s : State), s.eng[e].h ≤ s.scn[e].row) ∧
    (∃ (e : Fin 4) (l : Line) (k : Fin 6) (s : State), l.dark = false ∧ s.frg.eng[e].lit = true ∧ chanOk s (chan e
      k.val) = true) ∧
    (∃ (t : Time) (e : Fin 4) (p : Frac) (s : State), s.isLse e = true ∧ s.scn[e].drawing = true ∧ s.scn[e].period =
      some p ∧ s.eng[e].h ≤ s.scn[e].row ∧ s.scn[e].rowAt + p.floor / 2 ≤ t) ∧
    (∃ (t : Time) (e : Fin 4) (s : State), s.scn[e].drawing = false) :=
  ⟨⟨26, 0, ⟨25, 1⟩, lse { st := .active, excited := true, period := some ⟨25, 1⟩, edge := some 0 }, by
    decide +kernel⟩,
   ⟨27, 0, ⟨25, 1⟩, lse { st := .active, excited := true, period := some ⟨25, 1⟩, edge := some 0 }, by
     decide +kernel⟩,
   ⟨26, 0, lse { st := .excite, excited := true }, by decide +kernel⟩,
   ⟨26, 0, 0, ⟨25, 1⟩, lse { st := .active, excited := true, period := some ⟨25, 1⟩, edge := some 0 }, by
     decide +kernel⟩,
   ⟨26, 0, 0, ⟨25, 1⟩, lse { st := .active, excited := true, period := some ⟨25, 1⟩, edge := some 0, missed := 1 },
     by decide +kernel⟩,
   ⟨25, 0, 0, ⟨25, 1⟩, lse { st := .active, excited := true, period := some ⟨25, 1⟩, edge := some 0 }, by
     decide +kernel⟩,
   ⟨0, lse { st := .active, excited := true }, by decide +kernel⟩,
   ⟨500000, 0, 0, firstLine, drawn 0 0, by decide +kernel⟩,
   ⟨600000, 0, 0, { firstLine with row := 239 }, drawn 239 400000, by decide +kernel⟩,
   ⟨4, 0, 320, true, lse { st := .active, excited := true, period := some ⟨25, 1⟩, row := 240 }, by decide +kernel⟩,
   ⟨0, firstLine, 5, { drawn 0 0 with frg.ch := Vector.replicate 24 { cfg := 1 } }, by decide +kernel⟩,
   ⟨200000, 0, ⟨400000, 1⟩,
     { drawn 240 0 with scn := Vector.replicate 4 { (drawn 240 0).scn[0] with drawing := true } }, by
     decide +kernel⟩,
   ⟨4, 0, lse { st := .active, excited := true }, by decide +kernel⟩⟩

/-- The hypotheses of ParametersAndCounters can be met. -/
theorem test_hyps_ParametersAndCounters :
    (∃ (t : Time) (rq : Req) (v : Nat) (s x : State), serves 0x08 rq (s.at t) = true ∧ rq.payload.length = 2 ∧
      paramRead (le16 rq.payload 0) (takeReq rq (s.at t)) = some (v, x)) ∧
    (∃ (t : Time) (rq : Req) (s : State), serves 0x08 rq (s.at t) = true ∧ rq.payload.length = 2 ∧ paramRead (le16
      rq.payload 0) (takeReq rq (s.at t)) = none) ∧
    (∃ (t : Time) (rq : Req) (s x : State), serves 0x09 rq (s.at t) = true ∧ rq.payload.length = 6 ∧ paramWrite
      (le16 rq.payload 0) (toW (le32 rq.payload 2)) (takeReq rq (s.at t)) = (.ok, x)) ∧
    (∃ (t : Time) (rq : Req) (i : Nat) (st : Status) (s : State), serves 0x09 rq (s.at t) = true ∧ paramWrites
      ((List.range (rq.payload.length / 6)).map fun i => (le16 rq.payload (6 * i), toW (le32 rq.payload (6 * i +
      2)))) 0 (takeReq rq (s.at t)) = .inr (i, st)) ∧
    (∃ (t : Time) (id : Nat) (v : Word) (s : State), rowOpen s = true ∧ s.hth.boot ≠ .hold ∧ id / 256 ≠ 1) ∧
    (∃ (t : Time) (v : Word) (s : State), s.hth.boot ≠ .hold ∧ s.hth.pwr ≠ .off ∧ s.hth.can = s.hth.canNext ∧
      v.toNat < 65536) ∧
    (∃ (t : Time) (id : Nat) (v : Word) (s : State), inSRL s.hth.pwr = false ∧ id / 256 ≠ 1 ∧ s.hth.boot ≠ .hold) ∧
    (∃ (n : Fin 4) (v : Word) (s : State), v &&& 0x3FFF3FFF = v) ∧
    (∃ (t : Time) (n : Fin 16) (s : State), rowOpen s = true) ∧
    (∃ (t : Time) (n : Fin 16) (v : Word) (s : State), rowOpen s = true ∧ v ≠ 0) ∧
    (∃ (t : Time) (id : Nat) (v : Word) (s : State), rowOpen s = true ∧ isCounter id = false) ∧
    (∃ (t : Time) (id : Nat) (v : Word) (s : State), rowOpen s = false) :=
  ⟨⟨4, req 0x08 [3, 1], 20, ask (req 0x08 [3, 1]) (up .ready), _, by decide +kernel, by decide +kernel, rfl⟩,
   ⟨4, req 0x08 [255, 1], ask (req 0x08 [255, 1]) (up .ready), by decide +kernel⟩,
   ⟨4, req 0x09 [3, 1, 9, 0, 0, 0], ask (req 0x09 [3, 1, 9, 0, 0, 0]) (up .ready), _, by decide +kernel, by
     decide +kernel, rfl⟩,
   ⟨4, req 0x09 [255, 1, 9, 0, 0, 0], 0, .badParam, ask (req 0x09 [255, 1, 9, 0, 0, 0]) (up .ready), by
     decide +kernel⟩,
   ⟨4, 0x0410, 1, up .ready, by decide +kernel⟩,
   ⟨4, 65535, up .sleep, by decide +kernel⟩,
   ⟨4, 0x0410, 1, up .safe, by decide +kernel⟩,
   ⟨3, 0x3FFF3FFF, up .ready, by decide +kernel⟩,
   ⟨4, 15, up .ready, by decide +kernel⟩,
   ⟨4, 15, 1, up .ready, by decide +kernel⟩,
   ⟨4, 0x0430, 0, up .ready, by decide +kernel⟩,
   ⟨4, 0x0420, 0, up .safe, by decide +kernel⟩⟩

/-- The hypotheses of TicksSamplesAndTraces can be met. -/
theorem test_hyps_TicksSamplesAndTraces :
    (∃ (t : Time) (i : ServoIn) (s : State), s.srv.running = true) ∧
    (∃ (t : Time) (i : ServoIn) (s : State), s.srv.running = false) ∧
    (∃ (t : Time) (n : Fin 64) (x : Sample) (r : List Sample) (s : State), s.srv.loops[n].samples = x :: r ∧
      s.srv.running = true ∧ ((s.srv.loops[n].mode = .auto ∨ s.srv.loops[n].mode = .manual))) ∧
    (∃ (t : Time) (n : Fin 64) (x : Sample) (r : List Sample) (s : State), s.srv.loops[n].samples = x :: r ∧
      s.srv.running = true ∧ ((s.srv.loops[n].mode = .auto ∨ s.srv.loops[n].mode = .manual))) ∧
    (∃ (n : Fin 64) (s : State), s.srv.loops[n].ty ≠ 4 ∧ s.srv.loops[n].missRun < 15) ∧
    (∃ (t : Time) (n : Fin 64) (d : Bool) (s : State), s.srv.loops[n].samples = []) ∧
    (∃ (n : Fin 64) (x : Sample) (s : State), s.srv.loops[n].ty ≠ 6 ∧ x.data = false) ∧
    (∃ (t : Time) (rq : Req) (b : Fin 8) (n : Fin 64) (s : State), serves 0x34 rq (s.at t) = true ∧ byteAt
      rq.payload 0 = b.val ∧ byteAt rq.payload 1 = n.val ∧ byteAt rq.payload 2 < 13 ∧ byteAt rq.payload 3 = 0 ∧ le16
      rq.payload 6 < 16384 ∧ le16 rq.payload 8 = 0 ∧ zeroAt rq.payload 10 2 = true ∧ le32 rq.payload 12 = 0) ∧
    (∃ (t : Time) (rq : Req) (b : Fin 8) (s : State), serves 0x35 rq (s.at t) = true ∧ byteAt rq.payload 0 = b.val ∧
      zeroAt rq.payload 1 1 = true ∧ zeroAt rq.payload 6 2 = true ∧ 1 ≤ le16 rq.payload 4 ∧ le16 rq.payload 4 ≤ 253
      ∧ le16 rq.payload 2 + le16 rq.payload 4 ≤ 16384 ∧ s.srv.traces[b].st ≠ 3) ∧
    (∃ (t : Time) (rq : Req) (b : Fin 8) (s : State), serves 0x35 rq (s.at t) = true ∧ byteAt rq.payload 0 = b.val ∧
      zeroAt rq.payload 1 1 = true ∧ zeroAt rq.payload 6 2 = true ∧ 1 ≤ le16 rq.payload 4 ∧ le16 rq.payload 4 ≤ 253
      ∧ le16 rq.payload 2 + le16 rq.payload 4 ≤ 16384 ∧ s.srv.traces[b].st = 3) :=
  ⟨⟨4, servoIn, { up .ready with srv.running := true }, by decide +kernel⟩,
   ⟨4, servoIn, up .ready, by decide +kernel⟩,
   ⟨4, 5, ⟨0, true, 0, false⟩, [], sampling, by decide +kernel⟩,
   ⟨4, 5, ⟨0, true, 0, false⟩, [], sampling, by decide +kernel⟩,
   ⟨5, { sampling with srv.loops := updWith sampling.srv.loops 5 fun l => { l with missRun := 14 } }, by
     decide +kernel⟩,
   ⟨4, 6, true, sampling, by decide +kernel⟩,
   ⟨63, ⟨0, false, 0, false⟩, up .ready, by decide +kernel⟩,
   ⟨4, req 0x34 ([7, 63, 12, 0] ++ List.replicate 12 0), 7, 63, ask (req 0x34 ([7, 63, 12, 0] ++ List.replicate 12
     0)) (up .ready), by decide +kernel⟩,
   ⟨4, req 0x35 [7, 0, 0, 0, 253, 0, 0, 0], 7, ask (req 0x35 [7, 0, 0, 0, 253, 0, 0, 0]) (up .ready), by
     decide +kernel⟩,
   ⟨4, req 0x35 [7, 0, 3, 63, 253, 0, 0, 0], 7,
     { ask (req 0x35 [7, 0, 3, 63, 253, 0, 0, 0]) (up .lit) with srv.traces := Vector.replicate 8 { st := 3 } }, by
     decide +kernel⟩⟩

/-- The hypotheses of LoopCommands can be met. -/
theorem test_hyps_LoopCommands :
    (∃ (t : Time) (rq : Req) (n : Fin 64) (c : BitVec 64) (s : State), serves 0x30 rq (s.at t) = true ∧ byteAt
      rq.payload 0 = n.val ∧ zeroAt rq.payload 1 3 = true ∧ leNat (slice rq.payload 4 8) = c.toNat ∧ cfgOk c = true
      ∧ s.srv.loops[n].mode = .off ∧ allocationOk (updWith s.srv.loops n fun l => { zeroLoop l with cfg := c }) n =
      true ∧ s.otp.lifecycle ≠ 3 ∧ (Frac.ofNat 1000).lt (srvLoad (updWith s.srv.loops n fun l => { zeroLoop l with
      cfg := c })) = false) ∧
    (∃ (t : Time) (rq : Req) (n : Fin 64) (s : State), serves 0x31 rq (s.at t) = true ∧ byteAt rq.payload 0 = n.val
      ∧ zeroAt rq.payload 1 3 = true ∧ s.srv.loops[n].ty ≠ 0 ∧ s.srv.loops[n].ty ≠ 6 ∧ bankFieldsOk s s.srv.loops[n]
      (slice rq.payload 4 112) = true ∧ armedLoop s n = false ∧ s.otp.lifecycle ≠ 3) ∧
    (∃ (t : Time) (rq : Req) (n : Fin 64) (b : Bank) (s : State), serves 0x32 rq (s.at t) = true ∧ byteAt rq.payload
      0 = n.val ∧ zeroAt rq.payload 1 3 = true ∧ s.hth.pwr ≠ .standby ∧ s.srv.loops[n].banks[other
      s.srv.loops[n].live] = some b ∧ armedLoop s n = false) ∧
    (∃ (t : Time) (rq : Req) (n : Fin 64) (s : State), serves 0x33 rq (s.at t) = true ∧ byteAt rq.payload 0 = n.val
      ∧ byteAt rq.payload 1 = 0 ∧ byteAt rq.payload 2 = 0 ∧ zeroAt rq.payload 3 1 = true ∧ le32 rq.payload 4 = 0 ∧
      s.srv.running = false) ∧
    (∃ (t : Time) (rq : Req) (n : Fin 64) (s : State), serves 0x33 rq (s.at t) = true ∧ byteAt rq.payload 0 = n.val
      ∧ ((byteAt rq.payload 1 = 1 ∨ byteAt rq.payload 1 = 2)) ∧ byteAt rq.payload 2 = 0 ∧ zeroAt rq.payload 3 1 =
      true ∧ le32 rq.payload 4 = 0 ∧ s.srv.loops[n].banks[s.srv.loops[n].live] = none) ∧
    (∃ (t : Time) (n : Fin 64) (v : Word) (s : State), rowOpen s = true ∧ v.toNat < 256 ∧ s.srv.loops[n].flagAt ≠
      some (max s.now t)) ∧
    (∃ (t : Time) (n : Fin 64) (v : Word) (s : State), rowOpen s = true ∧ v.toNat < 256 ∧ s.srv.loops[n].flagAt =
      some (max s.now t) ∧ s.srv.loops[n].flagNow.getLsbD 7 = true) ∧
    (∃ (t : Time) (n : Fin 64) (v : Word) (s : State), rowOpen s = true ∧ 256 ≤ v.toNat) :=
  ⟨⟨4, req 0x30 ([50, 0, 0, 0] ++ List.replicate 8 0), 50, 0, ask (req 0x30 ([50, 0, 0, 0] ++ List.replicate 8 0))
    (up .ready), by decide +kernel⟩,
   ⟨4, req 0x31 ([5, 0, 0, 0] ++ bankBytes), 5, ask (req 0x31 ([5, 0, 0, 0] ++ bankBytes)) (up .ready), by
     decide +kernel⟩,
   ⟨4, req 0x32 [5, 0, 0, 0], 5, [],
     { ask (req 0x32 [5, 0, 0, 0]) (up .ready) with srv.loops := updWith (up .ready).srv.loops 5 fun l => { l with banks := upd l.banks 1 (some []) } },
     by decide +kernel⟩,
   ⟨4, req 0x33 [5, 0, 0, 0, 0, 0, 0, 0], 5, ask (req 0x33 [5, 0, 0, 0, 0, 0, 0, 0]) (up .ready), by decide +kernel⟩,
   ⟨4, req 0x33 [5, 2, 0, 0, 0, 0, 0, 0], 5, ask (req 0x33 [5, 2, 0, 0, 0, 0, 0, 0]) (up .ready), by decide +kernel⟩,
   ⟨4, 63, 255, up .ready, by decide +kernel⟩,
   ⟨4, 63, 255,
     { up .ready with srv.loops := updWith State.reset.srv.loops 63 fun l => { l with flagAt := some 4, flagNow := 255, miss := true } },
     by decide +kernel⟩,
   ⟨4, 63, 256, up .ready, by decide +kernel⟩⟩

/-- The hypotheses of EmissionAndTrips can be met. -/
theorem test_hyps_EmissionAndTrips :
    (∃ (t : Time) (e : Fin 4) (l : List Nat) (s : State), s.fastUp = true ∧ s.used e = true ∧ emitLimit s e ≠ 0 ∧
      s.frg.eng[e].tripAt = none ∧ emitLimit s e % 65536 * 8 < sumN l) ∧
    (∃ (t : Time) (e : Fin 4) (l : List Nat) (s : State), s.fastUp = true ∧ s.used e = true ∧ emitLimit s e ≠ 0 ∧
      sumN l ≤ emitLimit s e % 65536 * 8 ∧ sumN ((sumN l :: s.frg.eng[e].sums).take 1000) ≤ emitLimit s e / 65536 *
      8 * 1000) ∧
    (∃ (t : Time) (c : Fin 24) (s : State), s.fastUp = true ∧ s.frg.ch[c].pdFault = false ∧ wb s.frg.ch[c].cfg 0 =
      true) ∧
    (∃ (t : Time) (c : Fin 24) (s : State), s.frg.ch[c].pdFault = true) ∧
    (∃ (t a : Time) (e : Fin 4) (s : State), rowOpen s = true ∧ s.srv.trip[e] = some a ∧ max s.now t < a + sec) ∧
    (∃ (t a : Time) (e : Fin 4) (s : State), rowOpen s = true ∧ s.srv.trip[e] = some a ∧ a + sec ≤ t) ∧
    (∃ (t a : Time) (e : Fin 4) (s : State), rowOpen s = true ∧ s.frg.eng[e].tripAt = some a ∧ max s.now t < a +
      sec) ∧
    (∃ (t a : Time) (e : Fin 4) (s : State), rowOpen s = true ∧ s.frg.eng[e].tripAt = some a ∧ a + sec ≤ t) :=
  ⟨⟨4, 0, [9, 0, 0, 0, 0, 0], { mae .lit with frg.eng := Vector.replicate 4 { limit := 0x10001, lit := true } }, by
    decide +kernel⟩,
   ⟨4, 0, [8, 0, 0, 0, 0, 0], { mae .lit with frg.eng := Vector.replicate 4 { limit := 0x10001, lit := true } }, by
     decide +kernel⟩,
   ⟨4, 23, { up .lit with frg.ch := Vector.replicate 24 { cfg := 1 } }, by decide +kernel⟩,
   ⟨4, 23, { up .lit with frg.ch := Vector.replicate 24 { pdFault := true } }, by decide +kernel⟩,
   ⟨sec - 1, 0, 3, { up .ready with srv.trip := Vector.replicate 4 (some 0) }, by decide +kernel⟩,
   ⟨sec, 0, 3, { up .ready with srv.trip := Vector.replicate 4 (some 0) }, by decide +kernel⟩,
   ⟨sec - 1, 0, 3, { up .ready with frg.eng := Vector.replicate 4 { tripAt := some 0 } }, by decide +kernel⟩,
   ⟨sec, 0, 3, { up .ready with frg.eng := Vector.replicate 4 { tripAt := some 0 } }, by decide +kernel⟩⟩

/-- The hypotheses of LightLevelAndDerating can be met. -/
theorem test_hyps_LightLevelAndDerating :
    (∃ (t : Time) (rq : Req) (s : State), serves 0x28 rq (s.at t) = true ∧ lightLevelOk (le32 rq.payload 0) = true ∧
      le16 rq.payload 4 ≤ 1000 ∧ zeroAt rq.payload 6 2 = true) ∧
    (∃ (t : Time) (s : State), s.fastUp = true) ∧
    (∃ (t : Time) (s : State), s.fastUp = false) ∧
    (∃ (t : Time) (v : Word) (c : Fin 24) (p : Fin 8) (s : State), rowOpen s = true ∧ s.hth.lock = false ∧ v.toNat <
      65536 ∧ wfl s.frg.derateSel 3 5 = c.val ∧ wfl s.frg.derateSel 0 3 = p.val ∧ p ≠ 7) ∧
    (∃ (t : Time) (v : Word) (s : State), rowOpen s = true ∧ s.hth.lock = true) :=
  ⟨⟨4, req 0x28 [168, 0, 0, 0, 232, 3, 0, 0], ask (req 0x28 [168, 0, 0, 0, 232, 3, 0, 0]) (up .lit), by
    decide +kernel⟩,
   ⟨4, up .lit, by decide +kernel⟩,
   ⟨4, State.reset, by decide +kernel⟩,
   ⟨4, 65535, 23, 6, { up .ready with frg.derateSel := 0xBE }, by decide +kernel⟩,
   ⟨4, 1, { up .ready with hth.lock := true }, by decide +kernel⟩⟩

/-- The hypotheses of TelltaleMatrix can be met. -/
theorem test_hyps_TelltaleMatrix :
    (∃ (t : Time) (s : State), s.hth.pwr ≠ .off ∧ s.hth.boot ≠ .hold) ∧
    (∃ (t : Time) (r : Fin 12) (v : List Nat) (u : Nat) (s : State), s.hth.pwr ≠ .off ∧ s.hth.boot ≠ .hold) ∧
    (∃ (t : Time) (r : Fin 12) (c : Fin 16) (s : State), s.hth.pwr ≠ .off ∧ s.hth.boot ≠ .hold ∧
      s.mtx.limited.getLsbD c.val = false) ∧
    (∃ (t : Time) (r : Fin 12) (c : Fin 16) (s : State), s.mtx.limited.getLsbD c.val = true) ∧
    (∃ (t : Time) (rq : Req) (i : Fin 48) (s : State), serves 0x29 rq (s.at t) = true ∧ byteAt rq.payload 0 = i.val
      ∧ zeroAt rq.payload 1 3 = true ∧ fld (leNat (slice rq.payload 4 32)) 3 53 = 0 ∧ s.otp.lifecycle ≠ 3 ∧
      (lampEntry (slice rq.payload 4 32)).valid = false) :=
  ⟨⟨4, up .sleep, by decide +kernel⟩,
   ⟨4, 11, [], 0, up .sleep, by decide +kernel⟩,
   ⟨4, 11, 15, up .sleep, by decide +kernel⟩,
   ⟨4, 11, 15, { up .sleep with mtx.limited := 0x8000 }, by decide +kernel⟩,
   ⟨4, req 0x29 ([47, 0, 0, 0] ++ List.replicate 32 0), 47, ask (req 0x29 ([47, 0, 0, 0] ++ List.replicate 32 0))
     (up .ready), by decide +kernel⟩⟩

/-- The hypotheses of AnvilClaimsAndTimers can be met. -/
theorem test_hyps_AnvilClaimsAndTimers :
    (∃ (t : Time) (rq : Req) (s : State), serves 0x18 rq (s.at t) = true ∧ s.hth.role ≠ 2 ∧ zeroAt rq.payload 1 3 =
      true ∧ byteAt rq.payload 0 = 0 ∧ rq.payload.length = 4 ∧ ((ownerKey s = none ∨ lockedOut (s.at t) = true))) ∧
    (∃ (t : Time) (rq : Req) (k : List Byte) (s : State), serves 0x18 rq (s.at t) = true ∧ s.hth.role ≠ 2 ∧ zeroAt
      rq.payload 1 3 = true ∧ byteAt rq.payload 0 = 0 ∧ rq.payload.length = 4 ∧ ownerKey s = some k ∧ lockedOut
      (s.at t) = false) ∧
    (∃ (t d : Time) (rq : Req) (k n : List Byte) (s : State), serves 0x18 rq (s.at t) = true ∧ s.hth.role ≠ 2 ∧
      zeroAt rq.payload 1 3 = true ∧ byteAt rq.payload 0 = 1 ∧ rq.payload.length = 12 ∧ ownerKey s = some k ∧
      lockedOut (s.at t) = false ∧ s.anv.nonce = some (n, d) ∧ max s.now t < d ∧ slice rq.payload 4 8 = mac8 k
      (s.otp.uidBytes ++ n ++ leBytes 1 (ownerCode rq.port))) ∧
    (∃ s : State, s.anv.claimFails = 3) ∧
    (∃ (t d : Time) (n : List Byte) (s : State), s.anv.nonce = some (n, d)) ∧
    (∃ (t d : Time) (s : State), s.anv.lockout = some d) ∧
    (∃ (t d : Time) (s : State), s.anv.ownerDue = some d ∧ d ≤ t ∧ s.hth.role ≠ 2) ∧
    (∃ (t : Time) (s : State), s.hth.role = 2) ∧
    (∃ (t d : Time) (s : State), s.anv.ownerDue = some d ∧ d ≤ t ∧ s.hth.role ≠ 2) :=
  ⟨⟨4, req 0x18 [0, 0, 0, 0], ask (req 0x18 [0, 0, 0, 0]) (up .ready), by decide +kernel⟩,
   ⟨4, req 0x18 [0, 0, 0, 0], key, ask (req 0x18 [0, 0, 0, 0]) (owned .ready), by decide +kernel⟩,
   ⟨4, sec, claim, key, nonce, { ask claim (owned .ready) with anv.nonce := some (nonce, sec) }, by decide +kernel⟩,
   ⟨{ owned .ready with anv.claimFails := 3 }, by decide +kernel⟩,
   ⟨8, 8, nonce, { up .ready with anv.nonce := some (nonce, 8) }, by decide +kernel⟩,
   ⟨7, 8, { up .ready with anv.lockout := some 8 }, by decide +kernel⟩,
   ⟨8, 8, { up .ready with anv.ownerDue := some 8 }, by decide +kernel⟩,
   ⟨4, { up .ready with hth.role := 2 }, by decide +kernel⟩,
   ⟨4, 4, { up .lit with anv.ownerDue := some 4 }, by decide +kernel⟩⟩

/-- The hypotheses of AnvilRequests can be met. -/
theorem test_hyps_AnvilRequests :
    (∃ (t : Time) (rq : Req) (s : State), serves 0x19 rq (s.at t) = true ∧ s.hth.role ≠ 2 ∧ s.anv.session = none) ∧
    (∃ (t : Time) (rq : Req) (x : Session) (k : List Byte) (s : State), serves 0x19 rq (s.at t) = true ∧ s.hth.role
      ≠ 2 ∧ s.anv.session = some x ∧ ownerKey s = some k ∧ portSame x.port rq.port = true ∧ slice rq.payload (6 + 2
      * byteAt rq.payload 4) 8 = mac8 k (s.otp.uidBytes ++ x.nonce ++ (rqPacket rq).take (12 + 2 * byteAt rq.payload
      4)) ∧ s.anv.lastSeq < le32 rq.payload 0 ∧ byteAt rq.payload 5 = 0 ∧ byteAt rq.payload 4 = 1 ∧ (anvFn s (byteAt
      rq.payload 6)).isSome = true ∧ byteAt rq.payload 7 < 4) ∧
    (∃ (t : Time) (rq : Req) (s : State), serves 0x1A rq (s.at t) = true) :=
  ⟨⟨4, req 0x19 (List.replicate 16 0), ask (req 0x19 (List.replicate 16 0)) (up .lit), by decide +kernel⟩,
   ⟨4, demand, ⟨nonce, .spi⟩, key,
     { ask demand (owned .lit) with anv.session := some ⟨nonce, .spi⟩, anv.set := some oneFunction }, by
     decide +kernel⟩,
   ⟨4, req 0x1A [], ask (req 0x1A []) (up .ready), by decide +kernel⟩⟩

/-- The hypotheses of TelltalesAndVerdicts can be met. -/
theorem test_hyps_TelltalesAndVerdicts :
    (∃ s : State, fallback s ≠ 0) ∧
    (∃ s : State, fallback s = 0) ∧
    (∃ s : State, s.anv.probation = true ∧ s.anv.probCount = 7) ∧
    (∃ s : State, s.anv.probation = true ∧ s.anv.probCount < 7) ∧
    (∃ (t : Time) (m : List Meas) (s : State), s.hth.pwr ≠ .lit) ∧
    (∃ (t : Time) (m : List Meas) (s : State), s.hth.pwr = .lit ∧ s.anv.onEnded = false) ∧
    (∃ (t : Time) (m : List Meas) (s : State), s.hth.pwr = .lit ∧ s.anv.onEnded = true ∧ frameFault (s.at t) m =
      none) ∧
    (∃ (t : Time) (m : List Meas) (c e : Nat) (s : State), s.hth.pwr = .lit ∧ s.anv.onEnded = true ∧ frameFault
      (s.at t) m = some (c, e)) :=
  ⟨⟨up .lit, by decide +kernel⟩,
   ⟨{ up .lit with anv.set := some oneFunction, anv.zonesEmpty := false }, by decide +kernel⟩,
   ⟨{ up .lit with anv.probation := true, anv.probCount := 7 }, by decide +kernel⟩,
   ⟨{ up .lit with anv.probation := true, anv.probCount := 6 }, by decide +kernel⟩,
   ⟨4, [], up .ready, by decide +kernel⟩,
   ⟨4, [], up .lit, by decide +kernel⟩,
   ⟨4, [], { up .lit with anv.onEnded := true }, by decide +kernel⟩,
   ⟨4, [⟨0, 0, 0, 0⟩], 1, 0,
     { up .lit with anv.onEnded := true, anv.expectEnded := [⟨0, 0, 0, ⟨100000, 1⟩, none, true, true⟩] }, by
     decide +kernel⟩⟩

/-- The hypotheses of CamerasAndColourSensors can be met. -/
theorem test_hyps_CamerasAndColourSensors :
    (∃ (t : Time) (c : Fin 2) (a b : Bool) (l : List CamTest) (s : State), s.fastUp = true) ∧
    (∃ (t : Time) (c : Fin 2) (s : State), s.fastUp = true ∧ camActive s c = true) ∧
    (∃ (t : Time) (c : Fin 2) (s : State), s.fastUp = true ∧ camActive s c = true ∧ s.anv.cams[c].last +
      s.anv.camTimeout.toNat * ms ≤ t) ∧
    (∃ (t : Time) (c : Fin 2) (s : State), camActive s c = false) ∧
    (∃ (t : Time) (c : Fin 24) (s : State), s.clw.est[c].valid = true ∧ s.clw.est[c].at' + 100 * ms ≤ t) ∧
    (∃ (t d : Time) (c : Fin 24) (s : State), s.clw.est[c].holdDue = some d ∧ s.clw.est[c].valid = false ∧ d ≤ t) ∧
    (∃ (t d : Time) (e : Fin 4) (s : State), s.clw.holdSince[e] = some d ∧ d + sec ≤ t) ∧
    (∃ (t : Time) (e : Fin 4) (s : State), s.clw.holdSince[e] = none) ∧
    (∃ (t : Time) (e : Fin 4) (s : State), s.fastUp = true ∧ s.used e = true ∧ s.clw.sensorAt[e] + sec ≤ t ∧
      s.clw.sensorLost.getLsbD e.val = false) ∧
    (∃ (t : Time) (e : Fin 4) (l m : List Int) (s : State), s.fastUp = true) :=
  ⟨⟨4, 1, true, true, [], up .lit, by decide +kernel⟩,
   ⟨4, 1, { up .lit with anv.verifyConfig := 0xC }, by decide +kernel⟩,
   ⟨500 * ms, 1, { up .lit with anv.verifyConfig := 0xC }, by decide +kernel⟩,
   ⟨4, 1, { up .lit with anv.verifyConfig := 0 }, by decide +kernel⟩,
   ⟨100 * ms, 23, { up .lit with clw.est := Vector.replicate 24 { valid := true } }, by decide +kernel⟩,
   ⟨8, 8, 23, { up .lit with clw.est := Vector.replicate 24 { holdDue := some 8 } }, by decide +kernel⟩,
   ⟨sec, 0, 3, { up .lit with clw.holdSince := Vector.replicate 4 (some 0) }, by decide +kernel⟩,
   ⟨4, 3, up .lit, by decide +kernel⟩,
   ⟨sec, 0, mae .lit, by decide +kernel⟩,
   ⟨4, 3, [1, 2, 3], [1, 2, 3], up .lit, by decide +kernel⟩⟩

/-- The hypotheses of GamutAndWarpLoads can be met. -/
theorem test_hyps_GamutAndWarpLoads :
    (∃ (t : Time) (rq : Req) (e : Fin 4) (s : State), serves 0x22 rq (s.at t) = true ∧ byteAt rq.payload 0 = e.val ∧
      zeroAt rq.payload 1 3 = true ∧ bankOk (slice rq.payload 4 64) = true ∧ armedNames s (·.gamut) e = false) ∧
    (∃ (t : Time) (rq : Req) (e : Fin 4) (s : State), serves 0x21 rq (s.at t) = true ∧ byteAt rq.payload 0 = e.val ∧
      byteAt rq.payload 1 = 0 ∧ byteAt rq.payload 3 = 0 ∧ le16 rq.payload 4 = 0 ∧ le16 rq.payload 6 = 0 ∧ armedNames
      s (·.warp) e = false) ∧
    (∃ (t : Time) (rq : Req) (e : Fin 4) (q : Fin 12) (s : State), serves 0x21 rq (s.at t) = true ∧ byteAt
      rq.payload 0 = e.val ∧ byteAt rq.payload 1 = 4 ∧ byteAt rq.payload 2 = q.val ∧ q.val / 3 < depthsOf s
      s.clw.depths e ∧ byteAt rq.payload 3 = 0 ∧ le16 rq.payload 4 = 0 ∧ le16 rq.payload 6 = 0 ∧ armedNames s
      (·.warp) e = false) :=
  ⟨⟨4, req 0x22 gamutBytes, 3, ask (req 0x22 gamutBytes) (up .ready), by decide +kernel⟩,
   ⟨4, req 0x21 [3, 0, 0, 0, 0, 0, 0, 0], 3, ask (req 0x21 [3, 0, 0, 0, 0, 0, 0, 0]) (up .ready), by decide +kernel⟩,
   ⟨4, req 0x21 [3, 4, 2, 0, 0, 0, 0, 0], 3, 2, ask (req 0x21 [3, 4, 2, 0, 0, 0, 0, 0]) (up .ready), by
     decide +kernel⟩⟩

/-- The hypotheses of RefreshAndErrors can be met. -/
theorem test_hyps_RefreshAndErrors :
    (∃ (t : Time) (c : Fin 64) (b : Bool) (s : State), pcWorks s c = true ∧ anyPanic s = false ∧ s.grn.pc[c].owed =
      0) ∧
    (∃ (t : Time) (c : Fin 64) (b : Bool) (s : State), pcWorks s c = true ∧ anyPanic s = true ∧ s.grn.pc[c].owed <
      8) ∧
    (∃ (t : Time) (c : Fin 64) (b : Bool) (s x : State), s.grn.pc[c].owed ≤ 8 ∧ exec (.refreshInterval t c b) s =
      .next x) ∧
    (∃ (t : Time) (c : Fin 64) (b : Bool) (s : State), pcWorks s c = false) ∧
    (∃ (c : Fin 64) (b : Bool) (s : State), s.grn.pc[c].interval < 255) ∧
    (∃ (t : Time) (c : Fin 64) (a p : Nat) (w : Bool) (s : State), pcWorks s c = true) ∧
    (∃ (t : Time) (c : Fin 64) (a p : Nat) (y : Byte) (s : State), pcWorks s c = true ∧ ((p ≠ 12 ∨ scrubSkips s a =
      false))) ∧
    (∃ (t : Time) (c : Fin 64) (a : Nat) (b : Bool) (y : Byte) (s : State), scrubSkips s a = true) ∧
    (∃ (t : Time) (c : Fin 64) (a p : Nat) (w b : Bool) (y : Byte) (s : State), pcWorks s c = false) :=
  ⟨⟨4, 63, true, up .lit, by decide +kernel⟩,
   ⟨4, 63, true, { up .lit with grn.urg := Vector.replicate 4 .panic, grn.pc := Vector.replicate 64 { owed := 7 } },
     by decide +kernel⟩,
   ⟨4, 63, true, { up .lit with grn.urg := Vector.replicate 4 .panic, grn.pc := Vector.replicate 64 { owed := 8 } },
     _, by decide +kernel, rfl⟩,
   ⟨4, 63, true, State.reset, by decide +kernel⟩,
   ⟨63, true, { up .lit with grn.pc := Vector.replicate 64 { interval := 254 } }, by decide +kernel⟩,
   ⟨4, 63, 0, 0, false, up .lit, by decide +kernel⟩,
   ⟨4, 63, 0, 0, 1, up .lit, by decide +kernel⟩,
   ⟨4, 0, 1061683199, true, 1, mae .lit, by decide +kernel⟩,
   ⟨4, 63, 0, 0, false, true, 1, State.reset, by decide +kernel⟩⟩

/-- The hypotheses of ScrubAndFrameSync can be met. -/
theorem test_hyps_ScrubAndFrameSync :
    (∃ s : State, withheld s = true) ∧
    (∃ (a : Time) (s : State), grnServes s = true ∧ withheld s = false ∧ s.grn.scrubFrom = some a ∧ a ≤ s.now ∧ 0 <
      wfl s.grn.config 16 8) ∧
    (∃ (a : Nat) (e : Fin 4) (s : State), s.isMae e = true ∧ e.val * 0x40000000 ≤ a ∧ a < e.val * 0x40000000 +
      1061683200) ∧
    (∃ s : State, wb s.tng.config 26 = true ∧ s.hth.pwr ≠ .sleep ∧ s.hth.pwr ≠ .off) ∧
    (∃ (a : Time) (s : State), s.tng.syncOut = some a ∧ a + 10 * us ≤ s.now) ∧
    (∃ s : State, ((s.hth.pwr = .sleep ∨ s.hth.pwr = .off))) :=
  ⟨⟨{ up .lit with grn.urg := Vector.replicate 4 .panic }, by decide +kernel⟩,
   ⟨0, { up .lit with now := 4, grn.scrubFrom := some 0 }, by decide +kernel⟩,
   ⟨1061683199, 0, mae .ready, by decide +kernel⟩,
   ⟨{ up .ready with tng.config := 0x04000000 }, by decide +kernel⟩,
   ⟨0, { up .ready with now := 10 * us, tng.syncOut := some 0 }, by decide +kernel⟩,
   ⟨up .sleep, by decide +kernel⟩⟩

/-- The hypotheses of MemoryTraining can be met. -/
theorem test_hyps_MemoryTraining :
    (∃ (t : Time) (rq : Req) (s : State), serves 0x40 rq (s.at t) = true ∧ leNat rq.payload ≠ 0 ∧ s.hth.pwr ≠
      .standby) ∧
    (∃ (t : Time) (rq : Req) (s : State), serves 0x40 rq (s.at t) = true ∧ leNat rq.payload = 0) ∧
    (∃ (t : Time) (c : Fin 64) (b : Bool) (l : List (Nat × Int)) (s : State), s.grn.pc[c].retraining = true) ∧
    (∃ (t : Time) (c : Fin 64) (a b : Bool) (l : List (Nat × Int)) (s : State), s.grn.pc[c].retraining = false) ∧
    (∃ (t : Time) (rq : Req) (s : State), serves 0x41 rq (s.at t) = true ∧ byteAt rq.payload 1 ≤ 62 ∧ byteAt
      rq.payload 2 = 0 ∧ zeroAt rq.payload 3 1 = true) ∧
    (∃ (rq : Req) (c : Fin 64) (s : State), bit (leNat rq.payload) c.val = true ∧ pcInUse s c = true ∧
      s.grn.pc[c].failed = false) :=
  ⟨⟨4, req 0x40 [1, 0, 0, 0, 0, 0, 0, 0], ask (req 0x40 [1, 0, 0, 0, 0, 0, 0, 0]) (up .ready), by decide +kernel⟩,
   ⟨4, req 0x40 [0, 0, 0, 0, 0, 0, 0, 0], ask (req 0x40 [0, 0, 0, 0, 0, 0, 0, 0]) (up .ready), by decide +kernel⟩,
   ⟨4, 63, true, [], { up .ready with grn.pc := Vector.replicate 64 { retraining := true } }, by decide +kernel⟩,
   ⟨4, 63, true, true, [], up .ready, by decide +kernel⟩,
   ⟨4, req 0x41 [0, 62, 0, 0], ask (req 0x41 [0, 62, 0, 0]) (up .ready), by decide +kernel⟩,
   ⟨req 0x40 [0, 0, 0, 0, 0, 0, 0, 0x80], 63, up .ready, by decide +kernel⟩⟩

/-- The hypotheses of SensorsAndThermalPolicy can be met. -/
theorem test_hyps_SensorsAndThermalPolicy :
    (∃ (t : Time) (i : Fin 40) (v : Int) (s : State), sensorsRun s = true ∧ dieWorks s i = true ∧ 2240 ≤ v ∧
      s.thm.tripRun[i] = 0) ∧
    (∃ (t : Time) (i : Fin 40) (v : Int) (s : State), sensorsRun s = true ∧ v < 2240) ∧
    (∃ (t : Time) (i : Fin 40) (v : Int) (s : State), sensorsRun s = true ∧ dieWorks s i = true ∧ 2240 ≤ v ∧ 1 ≤
      s.thm.tripRun[i]) ∧
    (∃ (t : Time) (v : Vector Int 40) (s : State), sensorsRun s = true) ∧
    (∃ (t d : Time) (i : Fin 40) (s : State), s.thm.suspect[i] = some d ∧ d + dwell ≤ t) ∧
    (∃ (t : Time) (s : State), sensorsRun s = true ∧ s.thm.level < levelUp (s.at t) ∧ levelUp (s.at t) ≠ 3) ∧
    (∃ (t : Time) (s : State), sensorsRun s = true ∧ levelUp (s.at t) ≤ s.thm.level ∧ levelDown (s.at t) s.thm.level
      < s.thm.level) ∧
    (∃ (t d : Time) (s : State), s.thm.holdDue = some d ∧ d ≤ t) ∧
    (∃ (t : Time) (s : State), s.fastUp = true ∧ s.thm.throttle ≤ 256) ∧
    (∃ (t : Time) (k : Fin 2) (v : Int) (s : State), sensorsRun s = true ∧ s.thm.stackFailed.getLsbD k.val = false) ∧
    (∃ (t : Time) (k : Fin 2) (s : State), sensorsRun s = true ∧ s.thm.stackFailed.getLsbD k.val = false ∧
      s.thm.stackAt[k] + 10 * ms ≤ max s.now t) ∧
    (∃ (t d : Time) (k : Fin 2) (s : State), sensorsRun s = true ∧ s.thm.stackFailed.getLsbD k.val = false ∧
      s.thm.stackBelow[k].1 = some d ∧ d + dwell ≤ t) ∧
    (∃ (t : Time) (m : Fin 8) (v : Int) (s : State), sensorsRun s = true ∧ s.thm.ntcFailed.getLsbD m.val = false ∧
      -960 ≤ v ∧ v ≤ 2560) ∧
    (∃ (t : Time) (v : Vector Nat 8) (s : State), sensorsRun s = true ∧ ((s.thm.aged = true ∨ ∀ m : Fin 8, v[m] ≤
      4423))) ∧
    (∃ (t : Time) (rq : Req) (s : State), serves 0x48 rq (s.at t) = true ∧ policyOk (toW (le32 rq.payload 0)) =
      true) ∧
    (∃ (t : Time) (rq : Req) (s : State), serves 0x48 rq (s.at t) = true ∧ policyOk (toW (le32 rq.payload 0)) =
      false) :=
  ⟨⟨4, 39, 2240, up .ready, by decide +kernel⟩,
   ⟨4, 39, 2239, up .ready, by decide +kernel⟩,
   ⟨4, 39, 2240, { up .ready with thm.tripRun := Vector.replicate 40 1 }, by decide +kernel⟩,
   ⟨4, Vector.replicate 40 800, up .ready, by decide +kernel⟩,
   ⟨dwell, 0, 39, { up .ready with thm.suspect := Vector.replicate 40 (some 0) }, by decide +kernel⟩,
   ⟨dwell, { up .ready with thm.above := ⟨#[some 0, none, none], rfl⟩ }, by decide +kernel⟩,
   ⟨dwell, { up .ready with thm.level := 1, thm.below := ⟨#[some 0, none, none, none], rfl⟩ }, by decide +kernel⟩,
   ⟨8, 8, { up .ready with thm.holdDue := some 8 }, by decide +kernel⟩,
   ⟨4, up .ready, by decide +kernel⟩,
   ⟨4, 1, 1681, up .ready, by decide +kernel⟩,
   ⟨10 * ms, 1, up .ready, by decide +kernel⟩,
   ⟨dwell, 0, 1,
     { up .ready with thm.stackBelow := Vector.replicate 2 (some 0, none), thm.stackLevel := Vector.replicate 2 1 },
     by decide +kernel⟩,
   ⟨4, 7, 2560, up .ready, by decide +kernel⟩,
   ⟨4, Vector.replicate 8 4423, up .ready, by decide +kernel⟩,
   ⟨4, req 0x48 [0, 80, 0, 64], ask (req 0x48 [0, 80, 0, 64]) (up .ready), by decide +kernel⟩,
   ⟨4, req 0x48 [0, 84, 0, 64], ask (req 0x48 [0, 84, 0, 64]) (up .ready), by decide +kernel⟩⟩

/-- The hypotheses of TemperAndCalibration can be met. -/
theorem test_hyps_TemperAndCalibration :
    (∃ (t : Time) (q : Fin 7) (k : Nat) (f g : Int) (s : State), temperOn s q = true ∧ k < tapCount q ∧
      s.tmp.frozen[q].contains k = false ∧ stepBusy s q k = false ∧ tapSteady s q k = true ∧ tapTarget s q k f =
      some g ∧ tapLo q ≤ g ∧ g ≤ tapHi q ∧ (g - tapStored s q k).natAbs ≤ 2 ∧ g ≠ tapWorking s q k) ∧
    (∃ (k : Nat) (f d : Int) (s : State), s.swt[tapEngine 1 k].skew[k % 8]? = some d) ∧
    (∃ (q : Fin 7) (k : Nat) (f : Int) (s : State), 2 ≤ q.val) ∧
    (∃ (t : Time) (q : Fin 7) (k : Nat) (g : Int) (s : State), temperOn s q = true ∧ k < tapCount q ∧
      s.tmp.frozen[q].contains k = false ∧ stepBusy s q k = false) ∧
    (∃ (t : Time) (q : Fin 7) (k : Nat) (g : Int) (s : State), look s.tmp.steps[q] k = some g ∧ temperOn s q = true
      ∧ tapSteady s q k = true ∧ moveWins s q k = true) ∧
    (∃ (q : Fin 7) (k : Nat) (g : Int) (s : State), k < s.tmp.working[q].length) ∧
    (∃ (t : Time) (rq : Req) (s : State), serves 0x50 rq (s.at t) = true ∧ byteAt rq.payload 0 = 0 ∧ zeroAt
      rq.payload 1 3 = true ∧ le32 rq.payload 4 < 128) ∧
    (∃ (t : Time) (rq : Req) (s : State), serves 0x50 rq (s.at t) = true ∧ byteAt rq.payload 0 = 2 ∧ zeroAt
      rq.payload 1 3 = true ∧ le32 rq.payload 4 < 128 ∧ s.hth.pwr = .lit) ∧
    (∃ (t : Time) (rq : Req) (s : State), serves 0x50 rq (s.at t) = true ∧ byteAt rq.payload 0 = 3 ∧ zeroAt
      rq.payload 1 3 = true ∧ le32 rq.payload 4 = 0 ∧ s.tmp.writeFails < 3) ∧
    (∃ (t : Time) (rq : Req) (q : Fin 7) (s : State), serves 0x51 rq (s.at t) = true ∧ byteAt rq.payload 0 = q.val ∧
      zeroAt rq.payload 1 1 = true ∧ zeroAt rq.payload 6 2 = true ∧ 1 ≤ le16 rq.payload 4 ∧ le16 rq.payload 4 ≤ 255
      ∧ le16 rq.payload 2 + le16 rq.payload 4 ≤ tapCount q) ∧
    (∃ (t : Time) (s : State), journalDue (s.at t) = true ∧ journalFree (s.at t) = true ∧ s.tmp.retryDue = none ∧
      writeRefused (s.at t) = none) ∧
    (∃ (t : Time) (st : Status) (s : State), journalDue (s.at t) = true ∧ journalFree (s.at t) = true ∧
      s.tmp.retryDue = none ∧ s.tmp.save = none ∧ writeRefused (s.at t) = some st) ∧
    (∃ (t : Time) (w : JWrite) (s : State), s.tmp.writing = some w) ∧
    (∃ (t : Time) (w : JWrite) (s : State), s.tmp.writing = some w) ∧
    (∃ (t d : Time) (s : State), s.tmp.retryDue = some d ∧ d ≤ t) :=
  ⟨⟨4, 3, 23, 2, 2, up .ready, by decide +kernel⟩,
   ⟨15, 0, -3, { mae .ready with swt := Vector.replicate 4 { skew := List.replicate 8 (-3) } }, by decide +kernel⟩,
   ⟨6, 0, 5, up .ready, by decide +kernel⟩,
   ⟨4, 3, 23, 2, up .ready, by decide +kernel⟩,
   ⟨4, 3, 23, 2, { up .ready with tmp.steps := Vector.replicate 7 [(23, 2)] }, by decide +kernel⟩,
   ⟨6, 39, 7, up .ready, by decide +kernel⟩,
   ⟨4, req 0x50 [0, 0, 0, 0, 127, 0, 0, 0], ask (req 0x50 [0, 0, 0, 0, 127, 0, 0, 0]) (up .ready), by
     decide +kernel⟩,
   ⟨4, req 0x50 [2, 0, 0, 0, 127, 0, 0, 0], ask (req 0x50 [2, 0, 0, 0, 127, 0, 0, 0]) (up .lit), by decide +kernel⟩,
   ⟨4, req 0x50 [3, 0, 0, 0, 0, 0, 0, 0], ask (req 0x50 [3, 0, 0, 0, 0, 0, 0, 0]) (up .ready), by decide +kernel⟩,
   ⟨4, req 0x51 [6, 0, 0, 0, 40, 0, 0, 0], 6, ask (req 0x51 [6, 0, 0, 0, 40, 0, 0, 0]) (up .ready), by
     decide +kernel⟩,
   ⟨4, { up .ready with tmp.due := true }, by decide +kernel⟩,
   ⟨4, .hwFault, { up .ready with tmp.due := true, thm.supplyWarn := 1 }, by decide +kernel⟩,
   ⟨4, ⟨1, ⟨1, Vector.replicate 4 [], Vector.replicate 7 []⟩⟩,
     { up .ready with tmp.writing := some ⟨1, ⟨1, Vector.replicate 4 [], Vector.replicate 7 []⟩⟩ }, by
     decide +kernel⟩,
   ⟨4, ⟨1, ⟨1, Vector.replicate 4 [], Vector.replicate 7 []⟩⟩,
     { up .ready with tmp.writing := some ⟨1, ⟨1, Vector.replicate 4 [], Vector.replicate 7 []⟩⟩ }, by
     decide +kernel⟩,
   ⟨8, 8, { up .ready with tmp.retryDue := some 8, tmp.due := true }, by decide +kernel⟩⟩

/-- The hypotheses of SelfTestAndRepair can be met. -/
theorem test_hyps_SelfTestAndRepair :
    (∃ (t : Time) (i n : Nat) (s : State), slicesOf i ≠ 0 ∧ (wb s.bst.config 0 || s.bst.asked.contains i) = true ∧
      marchState (s.at t) i = true ∧ instRuns (s.at t) i = true ∧ s.bst.slice = none ∧ 16 ≤ n) ∧
    (∃ (t : Time) (i n : Nat) (b : Bool) (s : State), s.bst.slice.isSome = true) ∧
    (∃ (t : Time) (i v : Nat) (m : March) (s : State), passOf s i = some m ∧ s.bst.slice = some i ∧ m.done + 1 <
      slicesOf i) ∧
    (∃ (t : Time) (i : Nat) (s : State), s.bst.slice = some i) ∧
    (∃ (t : Time) (i : Nat) (m : March) (s : State), passOf s i = some m ∧ s.bst.slice = none ∧ m.began + wfl
      s.bst.config 16 8 * sec ≤ t) ∧
    (∃ (t : Time) (a m : Nat) (s : State), starveMax a = some m ∧ 0x100 ≤ a ∧ m ≤ (look (starveTick (s.at
      t)).bst.starving a).getD 0 ∧ s.bst.starved.contains a = false) ∧
    (∃ (t : Time) (a m : Nat) (s : State), starveMax a = some m ∧ (look (starveTick (s.at t)).bst.starving a).getD 0
      < m) ∧
    (∃ (t : Time) (a : Nat) (s : State), starveMax a = none) ∧
    (∃ (t : Time) (rq : Req) (s : State), serves 0x58 rq (s.at t) = true ∧ 2 ≤ byteAt rq.payload 0 ∧ byteAt
      rq.payload 0 ≤ 3 ∧ zeroAt rq.payload 1 3 = true ∧ leNat (slice rq.payload 4 8) = 0) ∧
    (∃ (t : Time) (rq : Req) (s : State), serves 0x58 rq (s.at t) = true ∧ byteAt rq.payload 0 = 4 ∧ zeroAt
      rq.payload 1 3 = true ∧ leNat (slice rq.payload 4 8) = 0) ∧
    (∃ (t : Time) (rq : Req) (s : State), serves 0x58 rq (s.at t) = true ∧ ((byteAt rq.payload 0 = 0 ∨ 6 < byteAt
      rq.payload 0))) ∧
    (∃ (t : Time) (k : Nat) (key : PendKey) (b : Bool) (f g : List (Nat × Nat × Nat × Nat)) (s : State), s.bst.run =
      some (k, key) ∧ k ≠ 5 ∧ k ≠ 6) ∧
    (∃ (t : Time) (key : PendKey) (f g : List (Nat × Nat × Nat × Nat)) (s : State), s.bst.run = some (5, key)) ∧
    (∃ (t : Time) (rq : Req) (s : State), serves 0x59 rq (s.at t) = true ∧ 1 ≤ byteAt rq.payload 1 ∧ byteAt
      rq.payload 1 ≤ 64 ∧ zeroAt rq.payload 2 2 = true) ∧
    (∃ (t d : Time) (s : State), s.bst.repairDue = some d ∧ s.bst.writeFails < 3 ∧ s.hth.trans = none ∧ writeRefused
      (s.at t) = none) :=
  ⟨⟨4, 0, 16, up .sleep, by decide +kernel⟩,
   ⟨4, 0, 16, true, { up .ready with bst.slice := some 1 }, by decide +kernel⟩,
   ⟨4, 0, 9, { inst := 0, done := 62 },
     { up .ready with bst.slice := some 0, bst.march := [{ inst := 0, done := 62 }] }, by decide +kernel⟩,
   ⟨4, 0, { up .ready with bst.slice := some 0, bst.march := [{ inst := 0 }] }, by decide +kernel⟩,
   ⟨10 * sec, 0, { inst := 0 }, { up .ready with bst.march := [{ inst := 0 }] }, by decide +kernel⟩,
   ⟨4, 0x100, 100 * ms, { up .ready with bst.starving := [(0x100, 100 * ms)] }, by decide +kernel⟩,
   ⟨4, 0x100, 100 * ms, up .ready, by decide +kernel⟩,
   ⟨4, 3, up .ready, by decide +kernel⟩,
   ⟨4, req 0x58 ([3] ++ List.replicate 11 0), ask (req 0x58 ([3] ++ List.replicate 11 0)) (cycle [0xFFFFFFFF, 0, 0,
     0, 0]), by decide +kernel⟩,
   ⟨4, req 0x58 ([4] ++ List.replicate 11 0), ask (req 0x58 ([4] ++ List.replicate 11 0)) (cycle [0xFFFFFFFF, 0, 0,
     0, 0]), by decide +kernel⟩,
   ⟨4, req 0x58 ([7] ++ List.replicate 11 0), ask (req 0x58 ([7] ++ List.replicate 11 0)) (up .ready), by
     decide +kernel⟩,
   ⟨4, 4, ⟨.spi, 7, 0x58, false⟩, true, [], [], { up .ready with bst.run := some (4, ⟨.spi, 7, 0x58, false⟩) }, by
     decide +kernel⟩,
   ⟨4, ⟨.spi, 7, 0x58, false⟩, [], [], { up .ready with bst.run := some (5, ⟨.spi, 7, 0x58, false⟩) }, by
     decide +kernel⟩,
   ⟨4, req 0x59 [0, 64, 0, 0], ask (req 0x59 [0, 64, 0, 0]) (up .ready), by decide +kernel⟩,
   ⟨8, 8, { up .ready with bst.repairDue := some 8 }, by decide +kernel⟩⟩

/-- The hypotheses of PortsDelaysAndLostPartners can be met. -/
theorem test_hyps_PortsDelaysAndLostPartners :
    (∃ (t : Time) (p : Fin 2) (s : State), ((s.brg.ports[p].st = .training ∨ s.brg.ports[p].st = .down)) ∧
      s.tng.pll[(2 : Fin 4)].locked = true) ∧
    (∃ (p : Fin 2) (s : State), s.brg.ports[p].st = .up) ∧
    (∃ (p : Fin 2) (s : State), s.brg.ports[p].st ≠ .up) ∧
    (∃ (t : Time) (p : Fin 2) (n k : Nat) (s : State), s.brg.ports[p].st = .up ∧ n < 256 ∧ look
      s.brg.ports[p].unacked n = some k ∧ k < 8) ∧
    (∃ (t : Time) (p : Fin 2) (n k : Nat) (s : State), s.brg.ports[p].st = .up ∧ n < 256 ∧ look
      s.brg.ports[p].unacked n = some k ∧ 8 ≤ k) ∧
    (∃ (t a : Time) (p : Fin 2) (s : State), s.brg.ports[p].st = .up) ∧
    (∃ (t a b c : Time) (p : Fin 2) (s : State), s.brg.ports[p].asked = some a) ∧
    (∃ (t b c : Time) (p : Fin 2) (s : State), s.brg.ports[p].asked = none) ∧
    (∃ (t : Time) (d : Fin 8) (w : Worker) (s : State), s.hth.role = 1 ∧ w ∈ s.brg.workers ∧ w.number = d.val ∧
      w.member = true ∧ w.lastStatus + 2 * s.tng.framePeriod ≤ t) ∧
    (∃ (t : Time) (s : State), s.hth.role = 2 ∧ s.brg.numbered = true ∧ s.brg.mark = none ∧ s.brg.mgrLost = false) ∧
    (∃ (t : Time) (s : State), s.hth.role = 2 ∧ 8 ≤ s.brg.mismatch ∧ s.brg.refuse = false) ∧
    (∃ (t : Time) (s : State), s.hth.role = 2 ∧ 3 ≤ s.brg.mirrorMiss ∧ s.anv.ownerStale = false) ∧
    (∃ (t : Time) (s : State), s.hth.role = 1 ∧ hasMembers s = true ∧ s.tng.frameAt + s.tng.framePeriod ≤ t + 250 *
      us ∧ s.brg.mirrorSent ≠ s.brg.frame + 1) :=
  ⟨⟨4, 1, brg .training 1, by decide +kernel⟩,
   ⟨1, brg .up 1, by decide +kernel⟩,
   ⟨1, brg .training 1, by decide +kernel⟩,
   ⟨4, 1, 255, 7, { brg .up 1 with brg.ports := Vector.replicate 2 { st := .up, unacked := [(255, 7)] } }, by
     decide +kernel⟩,
   ⟨4, 1, 255, 8, { brg .up 1 with brg.ports := Vector.replicate 2 { st := .up, unacked := [(255, 8)] } }, by
     decide +kernel⟩,
   ⟨4, 3, 1, brg .up 1, by decide +kernel⟩,
   ⟨14, 4, 2, 3, 1, { brg .up 1 with brg.ports := Vector.replicate 2 { st := .up, asked := some 4 } }, by
     decide +kernel⟩,
   ⟨14, 2, 3, 1, brg .up 1, by decide +kernel⟩,
   ⟨sec, 1, ⟨[2], 1, 0, true, true, 0, 0, 0⟩, { brg .up 1 with brg.workers := [⟨[2], 1, 0, true, true, 0, 0, 0⟩] },
     by decide +kernel⟩,
   ⟨4, { brg .up 2 with brg.numbered := true }, by decide +kernel⟩,
   ⟨4, { brg .up 2 with brg.mismatch := 8 }, by decide +kernel⟩,
   ⟨4, { brg .up 2 with brg.mirrorMiss := 3 }, by decide +kernel⟩,
   ⟨sec, { brg .up 1 with brg.workers := [⟨[2], 1, 0, true, true, 0, 0, 0⟩] }, by decide +kernel⟩⟩

/-- The hypotheses of MessagesOfManagerAndWorker can be met. -/
theorem test_hyps_MessagesOfManagerAndWorker :
    (∃ (t : Time) (f : Flit) (m : EnumMsg) (s : State), hears 1 f s = true) ∧
    (∃ (t : Time) (f : Flit) (m : WorkerStatus) (s : State), hears 1 f s = true) ∧
    (∃ (t : Time) (f : Flit) (l : List EvRec) (s : State), hears 1 f s = true) ∧
    (∃ (t : Time) (f : Flit) (b : List Byte) (s : State), hears 1 f s = true) ∧
    (∃ (f : Flit) (m : EnumMsg) (s : State), m.isManager = false ∧ (s.brg.workers.find? fun w => w.uid == m.uid) =
      none ∧ m.count = 0 ∧ s.brg.workers.length < 7 ∧ (∀ w ∈ s.brg.workers, 1 ≤ w.number ∧ w.number ≤ 7)) ∧
    (∃ (n : Nat) (r : EvRec) (s : State), s.evt.fwd.length ≤ 64) ∧
    (∃ (n k : Nat) (b : List Byte) (f : Fwd) (s : State), s.brg.fwds = [f] ∧ f.waiting = [n, k] ∧ n ≠ k ∧
      f.rq.opcode = byteAt b 1 ∧ f.rq.tag = b.getD 2 0) ∧
    (∃ (n : Nat) (m : WorkerStatus) (w : Worker) (s : State), s.brg.workers = [w] ∧ w.number = n ∧ m.alignerOk =
      true) ∧
    (∃ (t : Time) (f : Flit) (m : EnumMsg) (s : State), hears 2 f s = true) ∧
    (∃ (f : Flit) (m : EnumMsg) (s : State), m.isManager = true ∧ s.brg.manager = none ∧ 1 ≤ m.number ∧ m.number ≤
      7) ∧
    (∃ (t : Time) (f : Flit) (b : List Byte) (s : State), hears 2 f s = true) ∧
    (∃ (t : Time) (f : Flit) (m : TimeMark) (s : State), hears 2 f s = true ∧ s.brg.refuse = false) ∧
    (∃ (t : Time) (f : Flit) (m : TimeMark) (s : State), hears 2 f s = true ∧ s.brg.refuse = true) ∧
    (∃ (t : Time) (f : Flit) (m : Mirror) (s : State), hears 2 f s = true) ∧
    (∃ (m : Mirror) (i : Fin 256) (s : State), m.states.length = 256) :=
  ⟨⟨4, ⟨0, 1, 15, 1, 1, 0⟩, ⟨[], false, 0, 0⟩, brg .up 1, by decide +kernel⟩,
   ⟨4, ⟨0, 1, 0, 1, 1, 0⟩, ⟨0, 0, true⟩, brg .up 1, by decide +kernel⟩,
   ⟨4, ⟨0, 1, 0, 1, 1, 0⟩, [], brg .up 1, by decide +kernel⟩,
   ⟨4, ⟨0, 1, 0, 1, 1, 0⟩, [], brg .up 1, by decide +kernel⟩,
   ⟨⟨0, 15, 15, 1, 1, 0⟩, ⟨[1], false, 0, 0⟩, { brg .up 1 with brg.workers := [⟨[2], 1, 0, true, true, 0, 0, 0⟩] },
     by decide +kernel⟩,
   ⟨7, ⟨0x20, 0, 0, false, 0, 1, 0⟩, up .ready, by decide +kernel⟩,
   ⟨1, 2, [0xA5, 0x02, 7, 0x05, 0, 0], ⟨req 0x02 [], [1, 2], [], [], 0, [], []⟩,
     { brg .up 1 with brg.fwds := [⟨req 0x02 [], [1, 2], [], [], 0, [], []⟩] }, by decide +kernel⟩,
   ⟨1, ⟨0, 0, true⟩, ⟨[2], 1, 0, false, false, 0, 0, 0⟩,
     { brg .up 1 with brg.workers := [⟨[2], 1, 0, false, false, 0, 0, 0⟩] }, by decide +kernel⟩,
   ⟨4, ⟨0, 0, 15, 1, 1, 0⟩, ⟨[], true, 1, 0⟩, brg .up 2, by decide +kernel⟩,
   ⟨⟨0, 0, 15, 1, 1, 0⟩, ⟨[9], true, 7, 0⟩, brg .up 2, by decide +kernel⟩,
   ⟨4, ⟨0, 0, 15, 1, 1, 0⟩, [], brg .up 2, by decide +kernel⟩,
   ⟨4, ⟨0, 0, 15, 1, 1, 0⟩, ⟨0, 0, 0, ⟨none, none, none⟩, []⟩, brg .up 2, by decide +kernel⟩,
   ⟨4, ⟨0, 0, 15, 1, 1, 0⟩, ⟨0, 0, 0, ⟨none, none, none⟩, []⟩, { brg .up 2 with brg.refuse := true }, by
     decide +kernel⟩,
   ⟨4, ⟨0, 0, 15, 1, 1, 0⟩, ⟨0, List.replicate 256 3, 0, false⟩, brg .up 2, by decide +kernel⟩,
   ⟨⟨0, List.replicate 256 3, 0, false⟩, 255, brg .up 2, by decide +kernel⟩⟩

/-- The hypotheses of BarrierOnBothSides can be met. -/
theorem test_hyps_BarrierOnBothSides :
    (∃ (t : Time) (f : Flit) (n el rs : Nat) (y : Bool) (s : State), hears 1 f s = true) ∧
    (∃ (t : Time) (f : Flit) (n : Nat) (s : State), hears 1 f s = true) ∧
    (∃ (n el rs : Nat) (x : Barrier) (s : State), s.brg.barrier = some x ∧ x.decided = none ∧ x.cause = none ∧
      x.named = [n] ∧ x.votes = [] ∧ x.ramp = none) ∧
    (∃ (n el rs : Nat) (x : Barrier) (s : State), s.brg.barrier = some x ∧ x.decided = none ∧ x.cause = none ∧
      x.named = [n] ∧ x.votes = []) ∧
    (∃ (t : Time) (n : Nat) (x : Barrier) (s : State), s.brg.barrier = some x ∧ x.decided = none ∧ x.named = [n] ∧
      x.votes = [] ∧ x.applyTime ≤ t + 1200 * us) ∧
    (∃ (t : Time) (n : Nat) (x : Barrier) (s : State), s.brg.barrier = some x ∧ x.decided = some true ∧ x.named =
      [n] ∧ x.acks = [] ∧ x.applyTime ≤ t + 600 * us) ∧
    (∃ (n : Nat) (x : Barrier) (s : State), s.brg.barrier = some x ∧ x.named.contains n = true ∧ x.acks = []) ∧
    (∃ (t : Time) (f : Flit) (n a : Nat) (b : List Byte) (s : State), hears 2 f s = true) ∧
    (∃ (t : Time) (f : Flit) (n : Nat) (s : State), hears 2 f s = true) ∧
    (∃ (n a : Nat) (b : List Byte) (s : State), byteAt b 1 = 0x12 ∧ s.cmp.armed.isSome = true) ∧
    (∃ (n a : Nat) (b : List Byte) (s : State), byteAt b 1 = 0x12 ∧ s.cmp.armed = none ∧ commitReject (commitFlags
      (slice b 6 (le16 b 4))) s = none) ∧
    (∃ (n : Nat) (m : MyBarrier) (s : State), s.brg.mine = some m ∧ m.number = n ∧ m.applied = false ∧ m.ramp =
      none) ∧
    (∃ (n : Nat) (m : MyBarrier) (s : State), s.brg.mine = some m ∧ m.number = n ∧ m.ramp = none) ∧
    (∃ (n : Nat) (m : MyBarrier) (s : State), s.brg.mine = some m ∧ m.number ≠ n) :=
  ⟨⟨4, ⟨0, 1, 0, 1, 1, 0⟩, 1, 0, 0, true, brg .up 1, by decide +kernel⟩,
   ⟨4, ⟨0, 1, 0, 1, 1, 0⟩, 1, brg .up 1, by decide +kernel⟩,
   ⟨1, 0, 0, aBarrier, { brg .up 1 with brg.barrier := some aBarrier }, by decide +kernel⟩,
   ⟨1, 0x81, 0x55, aBarrier, { brg .up 1 with brg.barrier := some aBarrier }, by decide +kernel⟩,
   ⟨sec, 1, aBarrier, { brg .up 1 with brg.barrier := some aBarrier }, by decide +kernel⟩,
   ⟨sec, 1, { aBarrier with decided := some true },
     { brg .up 1 with brg.barrier := some { aBarrier with decided := some true } }, by decide +kernel⟩,
   ⟨1, aBarrier, { brg .up 1 with brg.barrier := some aBarrier }, by decide +kernel⟩,
   ⟨4, ⟨0, 0, 15, 1, 1, 0⟩, 1, 5, [], brg .up 2, by decide +kernel⟩,
   ⟨4, ⟨0, 0, 15, 1, 1, 0⟩, 1, brg .up 2, by decide +kernel⟩,
   ⟨1, 5, [0xA5, 0x12], { brg .up 2 with cmp.armed := some snap }, by decide +kernel⟩,
   ⟨1, 5, [0xA5, 0x12, 0, 0, 12, 0] ++ List.replicate 12 0, brg .up 2, by decide +kernel⟩,
   ⟨3, myBarrier, { brg .up 2 with brg.mine := some myBarrier }, by decide +kernel⟩,
   ⟨3, myBarrier, { brg .up 2 with brg.mine := some myBarrier }, by decide +kernel⟩,
   ⟨4, myBarrier, { brg .up 2 with brg.mine := some myBarrier }, by decide +kernel⟩⟩

/-- The hypotheses of IdentityAndLifecycle can be met. -/
theorem test_hyps_IdentityAndLifecycle :
    (∃ (t : Time) (rq : Req) (s : State), serves 0x01 rq (s.at t) = true ∧ byteAt rq.payload 0 = 0) ∧
    (∃ (t : Time) (rq : Req) (s : State), serves 0x01 rq (s.at t) = true ∧ ((byteAt rq.payload 0 = 1 ∨ byteAt
      rq.payload 0 = 2))) ∧
    (∃ (t : Time) (rq : Req) (s : State), serves 0x01 rq (s.at t) = true ∧ 3 ≤ byteAt rq.payload 0) ∧
    (∃ (t : Time) (rq : Req) (s : State), serves 0x68 rq (s.at t) = true) ∧
    (∃ (t : Time) (rq : Req) (s : State), serves 0x69 rq (s.at t) = true ∧ lcAllowed s.otp.lifecycle (byteAt
      rq.payload 0) = false) ∧
    (∃ (t : Time) (rq : Req) (s : State), serves 0x69 rq (s.at t) = true ∧ ((byteAt rq.payload 1 = 0 ∧
      rq.payload.length = 68) ∨ (byteAt rq.payload 1 = 1 ∧ rq.payload.length = 12)) ∧ zeroAt rq.payload 2 2 = true ∧
      lcAllowed s.otp.lifecycle (byteAt rq.payload 0) = true ∧ lcAuthorised s (byteAt rq.payload 0) rq.payload =
      true ∧ lcCondition s (byteAt rq.payload 0) = true ∧ ((byteAt rq.payload 0 = 3 → s.otp.owner.isSome = true)) ∧
      writeRefused (s.at t) = none) ∧
    (∃ (t : Time) (rq : Req) (s : State), rq.opcode = 0x6A ∧ s.hth.boot ≠ .hold ∧ s.hst.requests.contains rq = true
      ∧ grantedNow (s.at t) = some rq ∧ rqForward rq = false ∧ s.accepts rq = true ∧ s.otp.lifecycle ≠ 2 ∧
      s.otp.lifecycle ≠ 3) ∧
    (∃ (t : Time) (rq : Req) (s : State), serves 0x6A rq (s.at t) = true ∧ s.otp.lifecycle = 2 ∧ s.otp.owner = none
      ∧ byteAt rq.payload 0 = 4 ∧ byteAt rq.payload 1 = 0 ∧ zeroAt rq.payload 2 2 = true ∧ s.otp.market.length < 2 ∧
      slice rq.payload (rq.payload.length - 8) 8 = List.replicate 8 0 ∧ zeroAt (slice rq.payload 4
      (rq.payload.length - 12)) 6 2 = true ∧ writeRefused (s.at t) = none) :=
  ⟨⟨4, req 0x01 [0], ask (req 0x01 [0]) (up .sleep), by decide +kernel⟩,
   ⟨4, req 0x01 [2], ask (req 0x01 [2]) (up .sleep), by decide +kernel⟩,
   ⟨4, req 0x01 [3], ask (req 0x01 [3]) (up .sleep), by decide +kernel⟩,
   ⟨4, req 0x68 (List.replicate 32 0), ask (req 0x68 (List.replicate 32 0)) (up .sleep), by decide +kernel⟩,
   ⟨4, req 0x69 ([1, 0] ++ List.replicate 66 0), ask (req 0x69 ([1, 0] ++ List.replicate 66 0)) (up .ready), by
     decide +kernel⟩,
   ⟨4, toReturn, ask toReturn (owned .ready), by decide +kernel⟩,
   ⟨4, req 0x6A [4], ask (req 0x6A [4]) (cycle [0xFFFFFFFF, 0, 0, 0, 0]), by decide +kernel⟩,
   ⟨4, req 0x6A ([4] ++ List.replicate 19 0), ask (req 0x6A ([4] ++ List.replicate 19 0)) (up .ready), by
     decide +kernel⟩⟩

/-- The hypotheses of WritesBeginAndComplete can be met. -/
theorem test_hyps_WritesBeginAndComplete :
    (∃ (t : Time) (b : Bool) (s : State), s.sec.otpJob = none) ∧
    (∃ (t : Time) (k : PendKey) (n : Nat) (s : State), s.sec.otpJob = some (.lifecycle k n) ∧ 1 ≤ n ∧ n ≤ 5) ∧
    (∃ (t : Time) (k : PendKey) (v : List Byte) (l : List OtpSlot) (o : OtpSlot) (s : State), s.sec.otpJob = some
      (.setting k 4 0 v) ∧ s.otp.market = l ++ [o]) ∧
    (∃ (t : Time) (k : PendKey) (v : List Byte) (s : State), s.sec.otpJob = some (.setting k 4 0 v)) ∧
    (∃ (t : Time) (rq : Req) (s : State), serves 0x70 rq (s.at t) = true ∧ ((byteAt rq.payload 0 = 0 ∨ (3 < byteAt
      rq.payload 0 ∧ byteAt rq.payload 0 ≠ 0x10)))) ∧
    (∃ (t : Time) (rq : Req) (s : State), serves 0x70 rq (s.at t) = true ∧ byteAt rq.payload 0 = 2 ∧ byteAt
      rq.payload 1 = 1 ∧ zeroAt rq.payload 2 2 = true ∧ le32 rq.payload 4 = 0 ∧ le32 rq.payload 8 ≤ imageMax 2 ∧
      (rq.payload.drop 12).length ≤ le32 rq.payload 8 ∧ writeRefused (s.at t) = none) ∧
    (∃ (t : Time) (rq : Req) (s : State), serves 0x60 rq (s.at t) = true ∧ byteAt rq.payload 0 < 4 ∧ byteAt
      rq.payload 1 < 8 ∧ byteAt rq.payload 2 < 4 ∧ zeroAt rq.payload 3 1 = true ∧ writeRefused (s.at t) = none) ∧
    (∃ (t : Time) (rq : Req) (s : State), serves 0x60 rq (s.at t) = true ∧ 4 ≤ byteAt rq.payload 0) ∧
    (∃ (t : Time) (b : Bool) (v : Verify) (a : Option AnvSet) (s : State), s.sec.flashJob = none) ∧
    (∃ (t : Time) (k : PendKey) (l : Load) (v : Verify) (a : Option AnvSet) (s : State), s.sec.flashJob = some
      (.segment k l true) ∧ l.image = 2 ∧ v.sigOk = true ∧ s.otp.svnMinMain ≤ v.svn) ∧
    (∃ (t : Time) (k : PendKey) (l : Load) (v : Verify) (a : Option AnvSet) (s : State), s.sec.flashJob = some
      (.segment k l true) ∧ l.image = 2 ∧ ((v.sigOk = false ∨ v.svn < s.otp.svnMinMain))) ∧
    (∃ (t : Time) (k : PendKey) (w : Word) (v : Verify) (a : Option AnvSet) (s : State), s.sec.flashJob = some
      (.topology k w)) ∧
    (∃ (t : Time) (k : PendKey) (l : Load) (b : Bool) (v : Verify) (a : Option AnvSet) (s : State), s.sec.flashJob =
      some (.segment k l b)) :=
  ⟨⟨4, true, up .ready, by decide +kernel⟩,
   ⟨4, ⟨.spi, 7, 0x69, false⟩, 5, { up .ready with sec.otpJob := some (.lifecycle ⟨.spi, 7, 0x69, false⟩ 5) }, by
     decide +kernel⟩,
   ⟨4, ⟨.spi, 7, 0x6A, false⟩, [1], [], ⟨[1], false⟩,
     { up .ready with sec.otpJob := some (.setting ⟨.spi, 7, 0x6A, false⟩ 4 0 [1]), otp.market := [⟨[1], false⟩] },
     by decide +kernel⟩,
   ⟨4, ⟨.spi, 7, 0x6A, false⟩, [1], { up .ready with sec.otpJob := some (.setting ⟨.spi, 7, 0x6A, false⟩ 4 0 [1]) },
     by decide +kernel⟩,
   ⟨4, req 0x70 (List.replicate 12 0), ask (req 0x70 (List.replicate 12 0)) (up .ready), by decide +kernel⟩,
   ⟨4, req 0x70 [2, 1, 0, 0, 0, 0, 0, 0, 4, 0, 0, 0, 9], ask (req 0x70 [2, 1, 0, 0, 0, 0, 0, 0, 4, 0, 0, 0, 9]) (up
     .ready), by decide +kernel⟩,
   ⟨4, req 0x60 [3, 7, 3, 0], ask (req 0x60 [3, 7, 3, 0]) (up .ready), by decide +kernel⟩,
   ⟨4, req 0x60 [4, 0, 0, 0], ask (req 0x60 [4, 0, 0, 0]) (up .ready), by decide +kernel⟩,
   ⟨4, true, fits, none, up .ready, by decide +kernel⟩,
   ⟨4, ⟨.spi, 7, 0x70, false⟩, { image := 2, bytes := [9], total := 1 }, fits, none,
     { up .ready with sec.flashJob := some (.segment ⟨.spi, 7, 0x70, false⟩ { image := 2, bytes := [9], total := 1 } true) },
     by decide +kernel⟩,
   ⟨4, ⟨.spi, 7, 0x70, false⟩, { image := 2, bytes := [9], total := 1 }, { fits with sigOk := false }, none,
     { up .ready with sec.flashJob := some (.segment ⟨.spi, 7, 0x70, false⟩ { image := 2, bytes := [9], total := 1 } true) },
     by decide +kernel⟩,
   ⟨4, ⟨.spi, 7, 0x60, false⟩, 0x88000001, fits, none,
     { up .ready with sec.flashJob := some (.topology ⟨.spi, 7, 0x60, false⟩ 0x88000001) }, by decide +kernel⟩,
   ⟨4, ⟨.spi, 7, 0x70, false⟩, { image := 2, bytes := [9], total := 1 }, true, fits, none,
     { up .ready with sec.flashJob := some (.segment ⟨.spi, 7, 0x70, false⟩ { image := 2, bytes := [9], total := 1 } true) },
     by decide +kernel⟩⟩

/-! ## Worked examples of the spec -/

/-- A field of the next state. -/
def seen {α : Type} (f : State → α) (o : Host.Outcome State Fault Refusal) : Option α :=
  match o with
  | .next x => some (f x)
  | .fault _ => none
  | .refused _ => none

/-- The check value of CRC-32C (R61): the CRC of the digits 1 to 9. -/
theorem test_crc32c_check_value :
    crc32c [0x31, 0x32, 0x33, 0x34, 0x35, 0x36, 0x37, 0x38, 0x39] = 0xE3069283 := by decide +kernel

/-- AES-CMAC of the empty message, first example of RFC 4493. -/
theorem test_cmac_of_the_empty_message :
    cmac [0x2B, 0x7E, 0x15, 0x16, 0x28, 0xAE, 0xD2, 0xA6, 0xAB, 0xF7, 0x15, 0x88, 0x09, 0xCF, 0x4F, 0x3C] []
      = [0xBB, 0x1D, 0x69, 0x29, 0xE9, 0x59, 0x37, 0x28, 0x7F, 0xA3, 0x7D, 0x12, 0x9B, 0x75, 0x67, 0x46] := by
  decide +kernel

/-- SHA-256 of "abc", the example of FIPS 180-4. -/
theorem test_sha256_of_abc :
    (sha256 [0x61, 0x62, 0x63]).take 8 = [0xBA, 0x78, 0x16, 0xBF, 0x8F, 0x01, 0xCF, 0xEA] := by decide +kernel

/-- Millrace asks 8 bits everywhere at four depths, with FLOOR 4 and GAP 1, for S = 199 and U = 100: stage 3 and the
planes left in each channel frame (worked example of R201). -/
theorem test_millrace_planes :
    reduceSheaf 400 4 4 1 199 100 (List.replicate 24 8) 4 0
      = (3, [5, 5, 4, 4, 4, 4, 5, 4, 4, 4, 4, 4, 5, 4, 4, 4, 4, 4, 4, 4, 4, 4, 4, 4], 4) := by decide +kernel

/-- S and U at 24,000 and 23,003 and 20,000 slots per second and 120 Hz (worked examples of R24 and R204). -/
theorem test_slot_budget :
    slotsAt 24000 120000 = (199, 100) ∧ slotsAt 23003 120000 = (190, 95) ∧ slotsAt 20000 120000 = (165, 83) := by
  decide +kernel

/-- The grant with refresh doubled and four pseudo-channels failed is 899.9 GB/s, and the slot rate that fits four arrays
of 7680 x 4320 is 23,003 (worked example of R24). -/
theorem test_grant_and_rate :
    let d : Layer := lySet (lySet 0 32 1 1) 49 2 1
    let c : Layer := lySet (lySet 0 32 1 1) 49 2 2
    let s : State := { up .lit with
      eng := Vector.replicate 4 ⟨.mae, 7680, 4320⟩,
      cmp.live := upd (upd State.reset.cmp.live 0 d) 1 c,
      grn.stacksUsed := 3, grn.refresh := 1,
      grn.pc := tab 64 fun i => { failed := [3, 9, 10, 22].contains i.val } }
    grantNow s = 8999 ∧ grantRate { s with grn.grant := 8999 } 120000 = some 23003 := by decide +kernel

/-- A mesh of 7680 x 4320 at spacing 256 has 558 entries. -/
theorem test_mesh_entries : nodes 7680 256 * nodes 4320 256 = 558 := by decide +kernel

/-- Alder's raster fits 60 Hz and takes more than a frame of 62 Hz (R257). -/
theorem test_raster_fits :
    lseFits false 17600 480 0x09C40064 60000 = true ∧ lseFits false 17600 480 0x09C40064 62000 = false := by
  decide +kernel

/-- The periods of the linear ramp from 120 to 90 Hz in 4 frames, in 0.1 us (R344). -/
theorem test_linear_ramp :
    ([1, 2, 3, 4].map fun j => rdiv (rampPeriod ⟨120000, 90000, 0, 4, 0, 0, none⟩ j) 400)
      = [90278, 97222, 104167, 111111] := by decide +kernel

/-- Ordered dither of 16-bit values 32,896 and 33,024 to 8 bits (worked example of R179). -/
theorem test_ordered_dither :
    (List.range 64).all (fun b => quantise 32896 65535 8 (2 * b + 1) 128 == 128
      && quantise 33024 65535 8 (2 * b + 1) 128 == if 32 ≤ b then 129 else 128) = true := by decide +kernel

/-- A 7680 x 4320 source in a 1280 x 720 inset needs 24 lines and is refused with LINE_BUFFER; 3840 x 2160 fits. -/
theorem test_line_buffer :
    let big : Layer := lySet (lySet (lySet (lySet 0 134 14 7680) 120 14 4320) 78 14 1280) 64 14 720
    let less : Layer := lySet (lySet big 134 14 3840) 120 14 2160
    layerReject (mae .ready) 0 2 big = some ⟨2, 0x03, 24⟩ ∧
    (layerReject (mae .ready) 0 2 less).any (fun r => r.reason == 0x03) = false := by decide +kernel

/-- A commit accepted 123.3 us before a frame start of 120 Hz applies at the one after it (R112). -/
theorem test_commit_frames :
    framesUntil { up .lit with now := 8210 * us, tng.frameAt := 0, tng.framePeriod := 33333333 } (200 * us) = 2 := by
  decide +kernel

/-- A reading of 96 degrees C beside a neighbour at 124.75 degrees C contributes 128.75 while suspect (R385). -/
theorem test_suspect_sensor :
    contribution { up .lit with
      thm.die := upd (upd (Vector.replicate 40 1978) 27 1536) 36 1996,
      thm.suspect := upd (Vector.replicate 40 none) 27 (some 0) } 27 = 2060 := by decide +kernel

/-- Against a stored value of 20, a tap at 21 moves to 22, and a target of 23 fails the check and moves nothing. -/
theorem test_torn_write_taps :
    let s : State := { up .lit with
      swt := Vector.replicate 4 { link := .active, corr := List.replicate 16 [] },
      tmp.working := upd State.reset.tmp.working 0 ((List.replicate 96 0).set 35 21),
      tmp.stored := upd State.reset.tmp.stored 0 ((List.replicate 96 0).set 35 20) }
    seen (fun x => x.tmp.steps[(0 : Fin 7)]) (exec (.temperMeasurementWindow 4 0 35 true 22) s) = some [(35, 22)] ∧
    seen (fun x => (x.tmp.steps[(0 : Fin 7)], x.tmp.checkFails[(0 : Fin 7)]))
      (exec (.temperMeasurementWindow 4 0 35 true 23) s) = some ([], 1) := by decide +kernel

/-- A pass whose limit runs out after 2,047 of 2,048 slices is INCOMPLETE (R424, R425). -/
theorem test_incomplete_pass :
    let s : State := { up .lit with bst.march := [{ inst := 1, done := 2047 }] }
    seen (fun x => x.bst.results.map fun r => (r.inst, r.result, r.slicesDone)) (exec (.passLimitExpiry (2560 * sec) 1) s)
      = some [(1, 3, 2047)] := by decide +kernel

/-- On a row supply of 3.6 V a column at 2.7 V is a short, at 1.5 V healthy, at 0.1 V open (R291). -/
theorem test_led_thresholds :
    (diagnose 5 2700 3600 (up .ready)).mtx.shortOnce = [5] ∧ (diagnose 5 1500 3600 (up .ready)).mtx.shortOnce = [] ∧
    (diagnose 5 1500 3600 (up .ready)).mtx.openOnce = [] ∧ (diagnose 5 100 3600 (up .ready)).mtx.openOnce = [5] := by
  decide +kernel

/-- The header and DETAIL of the first record of Alder's verification failure (R540). -/
theorem test_record_bytes :
    (recBytes false { id := 0x0A7, sev := 3, detail := 1, time := 0, device := 0, taken := 0, piggy := false }).take 6
      = [0xA7, 0x0C, 1, 0, 0, 1] := by decide +kernel

/-- The pulse of weight 32,768 is half that of 65,535 within 0.1 ns (R272, at f_ref 7.5 and full light). -/
theorem test_pulse_halves :
    (pulseFrac 0x2004 ⟨1, 1⟩ 65535).round = 352917 ∧ (pulseFrac 0x2004 ⟨1, 1⟩ 32768).round = 176461 := by decide +kernel

/-! ## Single steps -/

/-- The reply packet of NOP: SYNC 0x5A, the opcode, the tag, OK, LENGTH 0 (R60). -/
theorem test_nop_reply :
    seen (fun x => x.hst.spiReplies.map (List.take 6)) (exec (.nop 4 (req 0x00 [])) (ask (req 0x00 []) (up .sleep)))
      = some [[0x5A, 0x00, 7, 0x00, 0, 0]] := by decide +kernel

/-- STATUS in READY: 16 bytes, and IDENTIFY of a page above 2: BAD_PARAM, 0x13 (R497, R498). -/
theorem test_status_and_identify :
    seen (fun x => x.hst.spiReplies.map (List.take 6)) (exec (.status 4 (req 0x02 [])) (ask (req 0x02 []) (up .ready)))
      = some [[0x5A, 0x02, 7, 0x00, 16, 0]] ∧
    seen (fun x => x.hst.spiReplies.map (List.take 6)) (exec (.identify 4 (req 0x01 [3])) (ask (req 0x01 [3]) (up .ready)))
      = some [[0x5A, 0x01, 7, 0x13, 0, 0]] := by decide +kernel

/-- PARAM_READ of HTH_IGN_OFF_DELAY gives 20; with an unknown ID second, BAD_PARAM and index 1 (R37, R503). -/
theorem test_param_read :
    let r := req 0x08 [0x03, 0x01]
    let q := req 0x08 [0x03, 0x01, 0x01, 0x00]
    seen (fun x => x.hst.spiReplies.map (List.take 10)) (exec (.paramRead 4 r) (ask r (up .ready)))
      = some [[0x5A, 0x08, 7, 0x00, 4, 0, 20, 0, 0, 0]] ∧
    seen (fun x => x.hst.spiReplies.map (List.take 7)) (exec (.paramRead 4 q) (ask q (up .ready)))
      = some [[0x5A, 0x08, 7, 0x13, 1, 0, 1]] := by decide +kernel

/-- PARAM_WRITE of two entries whose second is read-only writes neither (R504). -/
theorem test_param_write_is_all_or_none :
    let r := req 0x09 [0x03, 0x01, 5, 0, 0, 0, 0x01, 0x01, 0, 0, 0, 0]
    seen (fun x => (x.hth.ignOffDelay, x.hst.spiReplies.map (List.take 7))) (exec (.paramWrite 4 r) (ask r (up .ready)))
      = some (20, [[0x5A, 0x09, 7, 0x13, 1, 0, 1]]) := by decide +kernel

/-- STATE_REQUEST for STANDBY from READY replies PENDING and starts the transition; for READY it replies OK (R499). -/
theorem test_state_request :
    let r := req 0x03 [2]
    let q := req 0x03 [3]
    seen (fun x => (x.busy, x.hth.pwr, x.hst.spiReplies.map (List.take 6))) (exec (.stateRequest 4 r true) (ask r (up .ready)))
      = some (true, .ready, [[0x5A, 0x03, 7, 0x01, 0, 0]]) ∧
    seen (fun x => (x.busy, x.hth.pwr, x.hst.spiReplies.map (List.take 6))) (exec (.stateRequest 4 q true) (ask q (up .ready)))
      = some (false, .ready, [[0x5A, 0x03, 7, 0x00, 0, 0]]) := by decide +kernel

/-- An IGN fall arms the move 2 s later: 20 units of 100 ms (R37). -/
theorem test_ign_fall :
    seen (fun x => x.hth.ignOffDue) (exec (.ignFall 4) { up .lit with hth.ign := true }) = some (some (4 + 2 * sec)) := by
  decide +kernel

/-- ESTOP_N low outside LIT holds the engines dark and leaves the state (R46). -/
theorem test_estop_outside_lit :
    seen (fun x => (x.hth.pwr, x.frg.eng[(3 : Fin 4)].cause.getLsbD 0)) (exec (.estopAssert 4) (up .ready))
      = some (.ready, true) := by decide +kernel

/-- A supply beyond 3 % of rail 7 raises THM_SUPPLY_WARN with the rail as DETAIL (R399). -/
theorem test_supply_warn :
    seen (fun x => x.evt.recs.map fun r => (r.id, r.detail))
      (exec (.supplyMonitorExcursion 4 7 false pins fits) (up .ready)) = some [(evThmSupplyWarn, 7)] := by decide +kernel

/-- A packet while RX_BUSY is high is dropped with HST_SPI_OVERRUN (R84). -/
theorem test_spi_overrun :
    seen (fun x => x.evt.recs.map (·.id)) (exec (.spiWritePacket 4 0x02 [1]) { up .ready with hst.spiBusyUntil := some 800 })
      = some [evHstSpiOverrun] := by decide +kernel

/-- A fence wraps: 0 is one past 0xFFFFFFFF, and 0xFFFFFFFF is one before 0 (R116). -/
theorem test_fence_wraps : fenceReady 0 0xFFFFFFFF = true ∧ fenceReady 0xFFFFFFFF 0 = false := by decide +kernel

/-- A saturated not-ready counter stays at 65,535 (R118). -/
theorem test_not_ready_saturates :
    let d : Layer := lySet (lySet 0 32 1 1) 224 32 5
    let s : State := { up .lit with
      cmp.live := upd State.reset.cmp.live 3 d, cmp.notReady := upd (Vector.replicate 16 0) 3 65535 }
    (layerFrame 3 s).cmp.notReady[(3 : Fin 16)] = 65535 ∧ (layerFrame 3 s).cmp.transparent.getLsbD 3 = true := by
  decide +kernel

/-- LAYER_SHADOW with ALPHA alone writes byte 16 of its payload into the opacity (R506). -/
theorem test_layer_shadow_alpha :
    let r := req 0x11 [15, 4, 0, 0, 0, 0, 0, 0, 0, 0, 0, 0, 0, 0, 0, 0, 0x80, 0, 0, 0]
    seen (fun x => lyAlpha x.cmp.shadow[(15 : Fin 16)]) (exec (.layerShadow 4 r) (ask r (up .ready))) = some 0x80 := by
  decide +kernel

/-- A BAR2 write reads back, and the byte past it reads zero (R357). -/
theorem test_bar2_round_trip :
    seen (fun x => (Mem.read x.grn.hbm surfaceStart, Mem.read x.grn.hbm (surfaceStart + 2)))
      (exec (.bar2Write 4 surfaceStart [0xAB, 0xCD]) (up .ready)) = some (0xAB, 0) := by decide +kernel

/-- A write past the 16 GiB window names no address. -/
theorem test_bar2_outside :
    exec (.bar2Write 4 (2 ^ 34 - 1) [1, 2]) (up .ready) = .fault (.outsideBar2 (2 ^ 34 - 1)) := rfl

/-- FRAME_START counts modulo 2^32 (R125). -/
theorem test_frame_count_wraps :
    seen (fun x => x.cmp.frameCount)
      (exec (.frameStart 4 ⟨none, true, Vector.replicate 4 true⟩) { up .ready with cmp.frameCount := 2 ^ 32 - 1 })
      = some 0 := by decide +kernel

/-- The slot after the last is none: with S = 2, the epoch after the dark slot 2 changes nothing (R205, R211). -/
theorem test_slot_epoch_stops :
    let s : State := { mae .lit with thr.eng := updWith State.reset.thr.eng 0 fun k => { k with s := 2, epochs := 2 } }
    let x : State := { mae .lit with thr.eng := updWith State.reset.thr.eng 0 fun k => { k with s := 2, epochs := 3 } }
    seen (fun y => y.thr.eng[(0 : Fin 4)].slot) (exec (.slotEpoch 4 0 4) s) = some 2 ∧
    seen (fun y => y.thr.eng[(0 : Fin 4)].epochs) (exec (.slotEpoch 4 0 4) x) = some 3 := by decide +kernel

/-- A register row in SAFE outside group 0x01 is refused and writes nothing (R32). -/
theorem test_register_write_in_safe :
    seen (fun x => (x.last, x.cmp.canvasSh[(0 : Fin 4)])) (exec (.registerWrite 4 0x0410 5) (up .safe))
      = some (.wrongState, 0) := by decide +kernel

/-- Writing 1 to bit 7 of SRV_LOOP clears the miss flag and leaves the others (R328). -/
theorem test_loop_flags :
    let s : State := { up .ready with
      srv.loops := updWith State.reset.srv.loops 63 fun l => { l with miss := true, plaus := true } }
    seen (fun x => (x.srv.loops[(63 : Fin 64)].miss, x.srv.loops[(63 : Fin 64)].plaus))
      (exec (.srvLoopFlagClear 4 63 0x80) s) = some (false, true) := by decide +kernel

/-- Lights of 1 to 167 are no light level; 0 and 168 are (R270). -/
theorem test_light_levels :
    lightLevelOk 0 = true ∧ lightLevelOk 1 = false ∧ lightLevelOk 167 = false ∧ lightLevelOk 168 = true ∧
    lightLevelOk 16777216 = true ∧ lightLevelOk 16777217 = false := by decide +kernel

/-- TRIP_RESET comes too early 1 tap before the second is over (R326). -/
theorem test_trip_reset_waits :
    let s : State := { up .ready with srv.trip := upd (Vector.replicate 4 none) 1 (some 0) }
    seen (fun x => (x.last, x.srv.trip[(1 : Fin 4)])) (exec (.tripReset (sec - 1) 1) s) = some (.wrongState, some 0) ∧
    seen (fun x => (x.last, x.srv.trip[(1 : Fin 4)])) (exec (.tripReset sec 1) s) = some (.ok, none) := by decide +kernel

/-- The claim and the request of an owner are accepted: SEQ 1 puts function 5 into state 1 (R131, R134, R135). -/
theorem test_owner_session :
    seen (fun x => x.anv.session) (exec (.anvilClaim 4 claim) (ask claim { owned .ready with
      anv.nonce := some (nonce, sec) })) = some (some ⟨nonce, .spi⟩) ∧
    seen (fun x => (x.anv.lastSeq, x.anv.states[(5 : Fin 256)])) (exec (.anvilRequest 4 demand) (ask demand
      { owned .lit with anv.session := some ⟨nonce, .spi⟩, anv.set := some oneFunction })) = some (1, 1) := by
  decide +kernel

/-- A NONCE is gone 1 s after it was handed out (R132). -/
theorem test_nonce_expires :
    seen (fun x => x.anv.nonce) (exec (.nonceExpiry (4 + sec)) { up .ready with anv.nonce := some (nonce, 4 + sec) })
      = some none := by decide +kernel

/-- The ninth refresh under PANIC is issued and GRN_REFRESH_FORCED raised (R363). -/
theorem test_forced_refresh :
    seen (fun x => x.evt.recs.map (·.id)) (exec (.refreshInterval 4 63 true) { up .lit with
      grn.pc := Vector.replicate 64 { owed := 8 }, grn.urg := Vector.replicate 4 .panic }) = some [evGrnRefreshForced] := by
  decide +kernel

/-- MEM_TRAIN of an empty mask is refused; THERMAL_POLICY of reserved bits is refused (R521, R523). -/
theorem test_refused_masks :
    let r := req 0x40 [0, 0, 0, 0, 0, 0, 0, 0]
    let q := req 0x48 [0xFF, 0xFF, 0xFF, 0xFF]
    seen (fun x => x.hst.spiReplies.map (List.take 4)) (exec (.memTrain 4 r) (ask r (up .ready)))
      = some [[0x5A, 0x40, 7, 0x13]] ∧
    seen (fun x => x.hst.spiReplies.map (List.take 4)) (exec (.thermalPolicy 4 q) (ask q (up .ready)))
      = some [[0x5A, 0x48, 7, 0x13]] := by decide +kernel

/-- One sample of 140 degrees C is counted and is no TRIP; the next below it ends the run (R388). -/
theorem test_one_hot_sample :
    seen (fun x => (x.thm.level, x.thm.tripRun[(3 : Fin 40)])) (exec (.dieSensorSample 4 3 2240) (up .lit)) = some (0, 1) ∧
    seen (fun x => (x.thm.level, x.thm.tripRun[(3 : Fin 40)])) (exec (.dieSensorSample 4 3 2239) { up .lit with
      thm.tripRun := upd (Vector.replicate 40 0) 3 1 }) = some (0, 0) := by decide +kernel

/-- The delay of a port is half of what the round trip took beside the neighbour's residence (R444). -/
theorem test_port_delay :
    seen (fun x => x.brg.ports[(0 : Fin 2)].delays) (exec (.delayRespReceive 700 0 1000 1400) { brg .up 1 with
      brg.ports := Vector.replicate 2 { st := .up, asked := some 100 } }) = some [100] := by decide +kernel

/-- A life-cycle word that reads back is all ones and the device resets 10 ms later (R468). -/
theorem test_lifecycle_word :
    let s : State := { up .ready with sec.otpJob := some (.lifecycle ⟨.spi, 7, 0x69, true⟩ 3) }
    seen (fun x => (x.otp.lcWords[(2 : Fin 5)], x.hth.resetDue)) (exec (.otpWriteComplete 4 true) s)
      = some (0xFFFFFFFF, some (4 + 10 * ms)) := by decide +kernel

/-- A PORST_N pulse below 10 us is no reset (R52). -/
theorem test_short_porst_pulse :
    seen (fun x => x.hst.requests.length) (exec (.reset 4 (.porst (10 * us - 1)) pins fits) (ask (req 0x00 []) (up .lit)))
      = some 1 := by decide +kernel

/-- The rows of the table give no bits: no word spells a command, and the queue stays. -/
theorem test_no_word_spells_a_command :
    decodeTableWord 32 0xFFFFFFFF = none ∧ State.reset.withFetchWord 32 7 = State.reset := ⟨rfl, rfl⟩

/-- The generator of RS(544,514) has the root alpha: every codeword has (R216). -/
theorem test_rs_generator_has_its_roots :
    rsGenerator.length = 31 ∧ rsGenerator.foldl (fun a y => gfMul a 2 ^^^ y) 0 = 0 := by decide +kernel

end Sys2Proof.Tests
end

section
/-! SUPPORT. The scope of the model (spec/00_scope.md): a step and the queue, the PCIe link and its mailbox, and the
parameters. First what the shared operations do, then the statements. -/

namespace Sys2Proof.Machine

/-! ## A step -/

theorem step_of_pending_cons {s : State} {c : Instr} {r : List Instr} (h : s.pending = c :: r) :
    step s = exec c { s with pending := r } := by
  rw [step, h]

theorem step_of_pending_nil {s : State} (h : s.pending = []) : step s = .next s := by
  rw [step, h]

/-- Settles O1: the two forms a queue can have. -/
theorem stepRunsTheFrontCommand : Obligations.StepRunsTheFrontCommand :=
  ⟨fun _ _ _ => step_of_pending_cons, fun _ => step_of_pending_nil⟩

/-! ## Bits of masks and fields -/

theorem maskOf_succ (n : Nat) (p : Nat → Bool) :
    maskOf (n + 1) p = if p n then maskOf n p + 2 ^ n else maskOf n p := by
  simp [maskOf, List.range_succ]

theorem maskOf_lt (n : Nat) (p : Nat → Bool) : maskOf n p < 2 ^ n := by
  induction n with
  | zero => simp [maskOf]
  | succ n ih =>
    rw [maskOf_succ, Nat.pow_succ]
    split <;> omega

/-- Bit `i` of a mask says whether index `i` satisfies the predicate. -/
theorem testBit_maskOf (n : Nat) (p : Nat → Bool) (i : Nat) : (maskOf n p).testBit i = (decide (i < n) && p i) := by
  induction n with
  | zero => simp [maskOf]
  | succ n ih =>
    have hlt := maskOf_lt n p
    rw [maskOf_succ]
    obtain h | rfl | h := Nat.lt_trichotomy i n
    · have hs : i < n + 1 := by omega
      split
      · rw [Nat.add_comm, Nat.testBit_two_pow_add_gt h, ih]; simp [h, hs]
      · rw [ih]; simp [h, hs]
    · split
      · next hp => rw [Nat.add_comm, Nat.testBit_two_pow_add_eq, ih]; simp [hp]
      · next hp => rw [ih]; simp [hp]
    · have hs : ¬ i < n + 1 := by omega
      have hpow : 2 ^ (n + 1) ≤ 2 ^ i := Nat.pow_le_pow_right (by decide) h
      have hsum : maskOf (n + 1) p < 2 ^ i := Nat.lt_of_lt_of_le (maskOf_lt _ _) hpow
      rw [← maskOf_succ, Nat.testBit_lt_two_pow hsum]; simp [hs]

/-- Bit `i` of a field is the bit of the word that lies `i` above the field's foot. -/
theorem testBit_wfl (v : Word) (lo w i : Nat) : (wfl v lo w).testBit i = (decide (i < w) && v.getLsbD (lo + i)) := by
  rw [wfl, fld, Nat.testBit_mod_two_pow, Nat.testBit_div_two_pow, BitVec.testBit_toNat, Nat.add_comm]

/-! ## The PCIe link -/

theorem linkAvailable_of_due {s : State} {d : Time} (hdue : s.hst.linkDue = some d) (hd : d ≤ s.now)
    (hfast : s.fastUp = true) (hpwr : s.hth.pwr ≠ .standby)
    (hway : ∀ q, s.hth.trans = some q → q.target ≠ .standby ∧ q.target ≠ .sleep)
    (hrest : s.hth.trans = none → s.hth.pwr ≠ .sleep) (hpll : s.tng.pll[(3 : Fin 4)].locked = true)
    (hdown : s.hst.linkUp = false) : linkAvailable s = true := by
  rw [linkAvailable, hpll]
  cases htr : s.hth.trans with
  | none => simp [hdue, hd, hfast, hpwr, hrest htr, hdown]
  | some q =>
    obtain ⟨hstandby, hsleep⟩ := hway q htr
    simp [hdue, hd, hfast, hpwr, hstandby, hsleep, hdown]

theorem linkAvailable_of_standby {s : State} (h : s.hth.pwr = .standby) : linkAvailable s = false := by
  simp [linkAvailable, h]

theorem exec_pcieLinkUp_of_available (t : Time) (g w : Nat) {s : State} (h : linkAvailable (s.at t) = true) :
    exec (.pcieLinkUp t g w) s = .next { s.at t with
      hst := { s.hst with linkUp := true, linkGen := g % 16, linkWidth := w % 16, linkDue := none },
      evt := s.evt.msixGroups.foldl (fun e g => e.msixSend g) s.evt } :=
  if_pos h

theorem exec_pcieLinkUp_of_not_available (t : Time) (g w : Nat) {s : State} (h : linkAvailable (s.at t) = false) :
    exec (.pcieLinkUp t g w) s = .next (s.at t) :=
  if_neg (by simp [h])

/-! ## The mailbox (R86-R88) -/

/-- The doorbell value `k` names slot `k`. -/
theorem toNat_slot (k : Fin 4) : (BitVec.ofNat 32 k.val).toNat = k.val := by
  rw [BitVec.toNat_ofNat]; omega

theorem slot_of_toNat (k : Fin 4) : Fin.ofNat 4 ((BitVec.ofNat 32 k.val).toNat % 4) = k := by
  rw [toNat_slot]; ext; simp

theorem slotMask_toNat (k : Fin 4) : (BitVec.ofNat 4 (2 ^ k.val)).toNat = 2 ^ k.val := by
  revert k; decide

/-- With the link up, a doorbell is answered by what its slot holds (R87). -/
theorem exec_mbxDoorbell_of_linkUp (t : Time) (k : Fin 4) (b : List Byte) {s : State} (hup : s.hst.linkUp = true) :
    exec (.mbxDoorbell t (BitVec.ofNat 32 k.val) b) s =
      if (s.hst.mbxBusy ||| s.hst.mbxDone) &&& BitVec.ofNat 4 (2 ^ k.val) ≠ 0 then
        .next (raise evHstMbxErr (2 ^ k.val) { s.at t with hst := { s.hst with
          mbxErr := s.hst.mbxErr ||| BitVec.ofNat 4 (2 ^ k.val),
          mbxErrAt := upd s.hst.mbxErrAt k (some (max s.now t)),
          mbxReq := if s.hst.mbxBusy &&& BitVec.ofNat 4 (2 ^ k.val) = 0 then upd s.hst.mbxReq k b else s.hst.mbxReq } })
      else
        .next (packetIn (.mbx k) ((b ++ List.replicate (4106 - b.length) 0).take
            (10 + le16 (b ++ List.replicate (4106 - b.length) 0) 4)) { s.at t with hst := { s.hst with
          mbxBusy := s.hst.mbxBusy ||| BitVec.ofNat 4 (2 ^ k.val), mbxReq := upd s.hst.mbxReq k b } }) := by
  have hserved : ¬((!(s.at t).hst.linkUp) = true ∨ 4 ≤ (BitVec.ofNat 32 k.val).toNat) := by
    rw [toNat_slot]; simp [hup]
  show execMbxDoorbell _ _ _ _ = _
  rw [execMbxDoorbell, if_neg hserved]
  simp only [slot_of_toNat, slotMask_toNat]
  rfl

theorem exec_mbxDoorbell_of_linkDown (t : Time) (v : Word) (b : List Byte) {s : State} (hdown : s.hst.linkUp = false) :
    exec (.mbxDoorbell t v b) s = .next (s.at t) :=
  if_pos (.inl (by simp [hdown]))

theorem setNow_getLsbD (at' : Vector (Option Time) 4) (now : Time) (i : Fin 4) :
    (setNow at' now).getLsbD i.val = (at'[i] == some now) := by
  have hix : ix 3 i.val = i := by ext; simp [ix]
  rw [setNow, BitVec.getLsbD_ofNat, testBit_maskOf]
  simp [hix]

/-- A W1C field after a clear: a bit stays when it is not written 1, or when hardware set it in this cycle (R6). -/
theorem w1c_getLsbD (x : BitVec 4) (v : Word) (lo : Nat) (at' : Vector (Option Time) 4) (now : Time) (i : Fin 4) :
    (x &&& (~~~(BitVec.ofNat 4 (wfl v lo 4)) ||| setNow at' now)).getLsbD i.val
      = (x.getLsbD i.val && (!v.getLsbD (lo + i.val) || at'[i] == some now)) := by
  rw [BitVec.getLsbD_and, BitVec.getLsbD_or, setNow_getLsbD, BitVec.getLsbD_not, BitVec.getLsbD_ofNat, testBit_wfl]
  simp

theorem exec_mbxStatusClear_of_linkUp (t : Time) (v : Word) {s : State} (hup : s.hst.linkUp = true) :
    exec (.mbxStatusClear t v) s = .next { s.at t with hst := { s.hst with
      mbxDone := s.hst.mbxDone &&& (~~~(BitVec.ofNat 4 (wfl v 16 4)) ||| setNow s.hst.mbxDoneAt (max s.now t)),
      mbxErr := s.hst.mbxErr &&& (~~~(BitVec.ofNat 4 (wfl v 24 4)) ||| setNow s.hst.mbxErrAt (max s.now t)) } } :=
  if_neg (by simp [hup])

theorem exec_mbxStatusClear_of_linkDown (t : Time) (v : Word) {s : State} (hdown : s.hst.linkUp = false) :
    exec (.mbxStatusClear t v) s = .next (s.at t) :=
  if_pos (by simp [hdown])

/-- Settles O15: one lemma for each row and for each answer it can give. -/
theorem mailboxAndLink : Obligations.MailboxAndLink := by
  refine ⟨?comesUp, fun _ _ => rfl, ?standby, ?free, ?taken, ?clear, ?linkDown⟩
  case comesUp =>
    intro t d g w s hdue hd hfast hpwr hway hrest hpll hdown
    exact exec_pcieLinkUp_of_available t g w
      (linkAvailable_of_due (s := s.at t) hdue (Nat.le_trans hd (Nat.le_max_right ..)) hfast hpwr hway hrest hpll hdown)
  case standby =>
    intro t g w s hpwr
    exact exec_pcieLinkUp_of_not_available t g w (linkAvailable_of_standby (s := s.at t) hpwr)
  case free =>
    intro t k b s hup hlen hfree
    rw [exec_mbxDoorbell_of_linkUp t k b hup, if_neg (not_not_intro hfree)]
    simp only [hlen, Nat.sub_self, List.replicate_zero, List.append_nil]
  case taken =>
    intro t k b s hup htaken
    rw [exec_mbxDoorbell_of_linkUp t k b hup, if_pos htaken]
  case clear =>
    intro t v s hup
    exact ⟨_, _, exec_mbxStatusClear_of_linkUp t v hup, fun i => ⟨w1c_getLsbD .., w1c_getLsbD ..⟩⟩
  case linkDown =>
    intro t v b s hdown
    exact ⟨exec_mbxDoorbell_of_linkDown t v b hdown, exec_mbxStatusClear_of_linkDown t v hdown⟩

/-! ## PARAM_READ and PARAM_WRITE (R503, R504) -/

theorem exec_paramRead_of_serves (t : Time) {rq : Req} {s : State} (h : serves 0x08 rq (s.at t) = true) :
    exec (.paramRead t rq) s = .next (finishReply rq (paramReadBody rq (takeReq rq (s.at t))).2.1
      (paramReadBody rq (takeReq rq (s.at t))).2.2 (paramReadBody rq (takeReq rq (s.at t))).1) :=
  congrArg Host.Outcome.next (serve_of_serves paramReadBody h)

theorem exec_paramWrite_of_serves (t : Time) {rq : Req} {s : State} (h : serves 0x09 rq (s.at t) = true) :
    exec (.paramWrite t rq) s = .next (finishReply rq (paramWriteBody rq (takeReq rq (s.at t))).2.1
      (paramWriteBody rq (takeReq rq (s.at t))).2.2 (paramWriteBody rq (takeReq rq (s.at t))).1) :=
  congrArg Host.Outcome.next (serve_of_serves paramWriteBody h)

theorem paramReadBody_of_some {rq : Req} {v : Nat} {s x : State} (hlen : rq.payload.length = 2)
    (h : paramRead (le16 rq.payload 0) s = some (v, x)) : paramReadBody rq s = (x, .ok, leBytes 4 v) := by
  simp [paramReadBody, paramReads, hlen, h]

theorem paramReadBody_of_none {rq : Req} {s : State} (hlen : rq.payload.length = 2)
    (h : paramRead (le16 rq.payload 0) s = none) : paramReadBody rq s = (s, .badParam, [0]) := by
  simp [paramReadBody, paramReads, hlen, h, denyItem, leBytes]

theorem paramWriteBody_of_ok {rq : Req} {s x : State} (hlen : rq.payload.length = 6)
    (h : paramWrite (le16 rq.payload 0) (toW (le32 rq.payload 2)) s = (.ok, x)) :
    paramWriteBody rq s = (canFollow ((rq.port == .canCmd || rq.port == .canSafety) && rqReply rq)
      [(le16 rq.payload 0, toW (le32 rq.payload 2))] x, .ok, []) := by
  simp [paramWriteBody, paramWrites, hlen, h]

/-- A refused entry undoes the ones before it: the state is the one the request met (R504). -/
theorem paramWriteBody_of_refused {rq : Req} {i : Nat} {st : Status} {s : State}
    (h : paramWrites ((List.range (rq.payload.length / 6)).map fun i =>
      (le16 rq.payload (6 * i), toW (le32 rq.payload (6 * i + 2)))) 0 s = .inr (i, st)) :
    paramWriteBody rq s = (s, st, leBytes 1 i) := by
  simp only [paramWriteBody, h, denyItem]

/-! ## Register rows (R32, R492) -/

theorem exec_registerWrite_of_held (t : Time) (id : Nat) (v : Word) {s : State} (h : s.hth.boot = .hold) :
    exec (.registerWrite t id v) s = .next { s.at t with last := .wrongState } :=
  if_pos h

/-- Group 0x01 is served in every state but OFF. -/
theorem exec_registerWrite_of_group1 (t : Time) {id : Nat} (v : Word) {s : State} (hboot : s.hth.boot ≠ .hold)
    (hid : id / 256 = 1) (hpwr : s.hth.pwr ≠ .off) :
    exec (.registerWrite t id v) s = .next { canFollow false [(id, v)] (paramWrite id v (s.at t)).2 with
      last := (paramWrite id v (s.at t)).1 } :=
  (if_neg hboot).trans (if_pos ⟨hid, hpwr⟩)

theorem exec_registerWrite_of_otherGroup (t : Time) {id : Nat} (v : Word) {s : State} (hboot : s.hth.boot ≠ .hold)
    (hid : id / 256 ≠ 1) : exec (.registerWrite t id v) s = regAnswer (paramWrite id v) (s.at t) :=
  (if_neg hboot).trans (if_neg fun h => hid h.1)

/-- A register row that is not served changes only `last`. -/
theorem regAnswer_of_rowClosed {s : State} (f : State → Status × State) (h : rowOpen s = false) :
    regAnswer f s = .next { s with last := .wrongState } := by
  rw [regAnswer, if_neg]
  exact ne_true_of_eq_false h

theorem rowOpen_of_not_inSRL {s : State} (h : inSRL s.hth.pwr = false) : rowOpen s = false := by
  rw [rowOpen, h, Bool.false_and]

@[simp] theorem rowOpen_at (s : State) (t : Time) : rowOpen (s.at t) = rowOpen s := rfl

/-! ## Single parameters -/

theorem within_of_and_eq {v m : Word} (h : v &&& m = v) : within v m.toNat = true :=
  beq_iff_eq.2 ((BitVec.toNat_and v m).symm.trans (congrArg BitVec.toNat h))

theorem within_of_lt {v : Word} {n : Nat} (h : v.toNat < 2 ^ n) : within v (2 ^ n - 1) = true :=
  beq_iff_eq.2 ((Nat.and_two_pow_sub_one_eq_mod ..).trans (Nat.mod_eq_of_lt h))

theorem paramWrite_ignOffDelay {v : Word} (s : State) (h : v.toNat < 65536) :
    paramWrite 0x0103 v s = (.ok, setHth (fun x => { x with ignOffDelay := v }) s) :=
  if_pos (within_of_lt (n := 16) h)

/-- The high byte of an ID names its group (R548): 0x04 is the composition's. -/
theorem paramWrite_cmp {id : Nat} (v : Word) (s : State) (h : id / 256 = 4) : paramWrite id v s = writeCmp id v s := by
  rw [paramWrite, h]
  rfl

theorem paramWrite_canvas (n : Fin 4) {v : Word} (s : State) (h : v &&& 0x3FFF3FFF = v) :
    paramWrite (0x0410 + n.val) v s =
      (.ok, { s with cmp := { s.cmp with canvasSh := upd s.cmp.canvasSh n v } }) := by
  have hid : 0x0410 ≤ 0x0410 + n.val ∧ 0x0410 + n.val ≤ 0x0413 := by omega
  have hn : engOf 0x0410 (0x0410 + n.val) = n := by ext; simp [engOf]
  rw [paramWrite_cmp v s (by omega), writeCmp, if_pos hid, hn]
  exact if_pos (within_of_and_eq h)

/-- A not-ready counter takes 0 and nothing else (R125). -/
theorem paramWrite_notReady (n : Fin 16) (v : Word) (s : State) :
    paramWrite (0x0420 + n.val) v s =
      clears v (setCmp (fun c => { c with notReady := upd c.notReady n 0 }) s) s := by
  have hcanvas : ¬(0x0410 ≤ 0x0420 + n.val ∧ 0x0420 + n.val ≤ 0x0413) := by omega
  have hid : 0x0420 ≤ 0x0420 + n.val ∧ 0x0420 + n.val ≤ 0x042F := by omega
  have hn : Fin.ofNat 16 (0x0420 + n.val - 0x0420) = n := by ext; simp
  rw [paramWrite_cmp v s (by omega), writeCmp, if_neg hcanvas, if_pos hid, hn]

theorem paramWrite_fence (n : Fin 16) (v : Word) (s : State) :
    paramWrite (0x0440 + n.val) v s = (.ok, writeFence n v s) := by
  have hcanvas : ¬(0x0410 ≤ 0x0440 + n.val ∧ 0x0440 + n.val ≤ 0x0413) := by omega
  have hcount : ¬(0x0420 ≤ 0x0440 + n.val ∧ 0x0440 + n.val ≤ 0x042F) := by omega
  have hid : 0x0440 ≤ 0x0440 + n.val ∧ 0x0440 + n.val ≤ 0x044F := by omega
  have hn : Fin.ofNat 16 (0x0440 + n.val - 0x0440) = n := by ext; simp
  rw [paramWrite_cmp v s (by omega), writeCmp, if_neg hcanvas, if_neg hcount, if_pos hid, hn, yes]

/-! ## COUNTER_CLEAR (R125) -/

theorem isCounter_notReady (n : Fin 16) : isCounter (0x0420 + n.val) = true := by
  revert n; decide

theorem exec_counterClear_of_counter (t : Time) {id : Nat} (v : Word) (s : State) (h : isCounter id = true) :
    exec (.counterClear t id v) s = regAnswer (paramWrite id v) (s.at t) :=
  congrArg (regAnswer · (s.at t)) (funext fun _ => if_pos h)

theorem exec_counterClear_of_noCounter (t : Time) {id : Nat} (v : Word) (s : State) (h : isCounter id = false) :
    exec (.counterClear t id v) s = regAnswer (no .badParam) (s.at t) :=
  congrArg (regAnswer · (s.at t)) (funext fun _ => if_neg (ne_true_of_eq_false h))

theorem exec_counterClear_of_rowClosed (t : Time) (id : Nat) (v : Word) {s : State} (h : rowOpen s = false) :
    exec (.counterClear t id v) s = .next { s.at t with last := .wrongState } := by
  have hclosed : rowOpen (s.at t) = false := h
  cases hid : isCounter id with
  | false => rw [exec_counterClear_of_noCounter t v s hid, regAnswer_of_rowClosed _ hclosed]
  | true => rw [exec_counterClear_of_counter t v s hid, regAnswer_of_rowClosed _ hclosed]

/-- Settles O38: the bodies of the two commands, then the register rows, then single parameters and the counters. -/
theorem parametersAndCounters : Obligations.ParametersAndCounters := by
  refine ⟨?read, ?readNone, ?write, ?writeRefused, ?row, ?rowIgnOff, ?rowRefused, fun n v s => paramWrite_canvas n s,
    paramWrite_fence, ?clear, ?clearNonzero, ?clearNone, fun t id v s => exec_counterClear_of_rowClosed t id v⟩
  case read =>
    intro t rq v s x hs hlen h
    rw [exec_paramRead_of_serves t hs, paramReadBody_of_some hlen h]
  case readNone =>
    intro t rq s hs hlen h
    rw [exec_paramRead_of_serves t hs, paramReadBody_of_none hlen h]
  case write =>
    intro t rq s x hs hlen h
    rw [exec_paramWrite_of_serves t hs, paramWriteBody_of_ok hlen h]
  case writeRefused =>
    intro t rq i st s hs h
    rw [exec_paramWrite_of_serves t hs, paramWriteBody_of_refused h]
  case row =>
    intro t id v s hopen hboot hid
    rw [exec_registerWrite_of_otherGroup t v hboot hid, regAnswer_of_rowOpen _ (rowOpen_at s t ▸ hopen)]
  case rowIgnOff =>
    intro t v s hboot hpwr _ hv
    rw [exec_registerWrite_of_group1 t v hboot rfl hpwr, paramWrite_ignOffDelay _ hv]
    rfl
  case rowRefused =>
    intro t id v s hpwr hid hboot
    rw [exec_registerWrite_of_otherGroup t v hboot hid,
      regAnswer_of_rowClosed _ (rowOpen_of_not_inSRL (s := s.at t) hpwr)]
  case clear =>
    intro t n s hopen
    rw [exec_counterClear_of_counter t 0 s (isCounter_notReady n), regAnswer_of_rowOpen _ (rowOpen_at s t ▸ hopen),
      paramWrite_notReady]
    rfl
  case clearNonzero =>
    intro t n v s hopen hv
    rw [exec_counterClear_of_counter t v s (isCounter_notReady n), regAnswer_of_rowOpen _ (rowOpen_at s t ▸ hopen),
      paramWrite_notReady, clears, okIf, if_neg (by simpa using hv)]
  case clearNone =>
    intro t id v s hopen hid
    rw [exec_counterClear_of_noCounter t v s hid, regAnswer_of_rowOpen _ (rowOpen_at s t ▸ hopen), no]

end Sys2Proof.Machine
end

section
/-! SUPPORT. The frame start (spec/01_architecture.md): what the parts of FRAME_START that run before an armed commit
is judged make of the composition's record, and what a commit that applies makes of it. -/

namespace Sys2Proof.Machine

/-! ## What leaves the composition's record as it is -/

/-- A fold of operations that each leave a part of the state as it is leaves it as it is. -/
theorem foldl_proj {α β : Type} (proj : State → β) (f : State → α → State) (h : ∀ s x, proj (f s x) = proj s) :
    ∀ (l : List α) (s : State), proj (l.foldl f s) = proj s
  | [], _ => rfl
  | x :: l, s => (foldl_proj proj f h l (f s x)).trans (h s x)

/-- Operations on the four engines that each leave a part of the state as it is leave it as it is. -/
theorem forEng_proj {β : Type} (proj : State → β) (f : Fin 4 → State → State) (h : ∀ e s, proj (f e s) = proj s)
    (s : State) : proj (forEng f s) = proj s := by
  simp only [forEng_eq, h]

@[simp] theorem warpFallback_cmp (e : Fin 4) (s : State) : (warpFallback e s).cmp = s.cmp :=
  foldl_proj State.cmp _ (fun _ _ => raise_cmp ..) _ _

@[simp] theorem warpApply_cmp (e : Fin 4) (s : State) : (warpApply e s).cmp = s.cmp := warpFallback_cmp ..

@[simp] theorem gamutApply_cmp (e : Fin 4) (s : State) : (gamutApply e s).cmp = s.cmp := rfl

@[simp] theorem sheafApply_cmp (f : Nat) (flagged moved : Bool) (e : Fin 4) (s : State) :
    (sheafApply f flagged moved e s).cmp = s.cmp := by
  rw [sheafApply]
  split
  · rfl
  · exact setThrE_cmp ..

@[simp] theorem loopApply_cmp (f : Nat) (n : Fin 64) (s : State) : (loopApply f n s).cmp = s.cmp := setLoop_cmp ..

@[simp] theorem cmdDone_cmp (k : PendKey) (st : Status) (s : State) : (cmdDone k st s).cmp = s.cmp := by
  rw [cmdDone]
  split
  · rfl
  · dsimp only
    split <;> rfl

@[simp] theorem portsJudge_cmp (s : State) : (portsJudge s).cmp = s.cmp := by
  rw [portsJudge]
  split
  · dsimp only
    split <;> rfl
  · rfl

@[simp] theorem portsFollow_cmp (s : State) : (portsFollow s).cmp = s.cmp := by
  simp only [portsFollow, portsJudge_cmp, apply_ite State.cmp, setPort_cmp, ite_self]

@[simp] theorem shareApply_cmp (v : Shared) (s : State) : (shareApply v s).cmp = s.cmp := by
  rw [shareApply, setBrg_cmp]
  split
  · split <;> rfl
  · rfl

/-! ## A commit applies (R112, R115) -/

/-- The composition's record after a commit: the snapshot is live, nothing is armed, and the rest stays. -/
theorem commitApply_cmp (z : Snapshot) (f : Nat) (s : State) :
    (commitApply z f s).cmp = { s.cmp with
      live := z.layers, canvas := z.canvas, armed := none, phase := .idle, result := 1, applyFrame := f } := by
  simp only [commitApply, raise_cmp]
  rw [foldl_proj State.cmp, forEng_proj State.cmp, forEng_proj State.cmp, forEng_proj State.cmp]
  -- the warp banks, the gamut banks, the Sheafs and the loops that the snapshot flags
  · intro e a
    split <;> simp
  · intro e a
    split <;> simp
  · exact fun e a => sheafApply_cmp ..
  · intro a n
    split <;> simp

theorem commitFrame_of_early {z : Snapshot} {s : State} (hz : s.cmp.armed = some z)
    (hearly : s.now < z.accepted + 200 * us) : commitFrame s = s := by
  rw [commitFrame, hz]
  exact if_neg fun h => Nat.not_le.2 hearly h.2

theorem commitFrame_of_due {z : Snapshot} {s : State} (hz : s.cmp.armed = some z) (hlocal : z.inBarrier = false)
    (hdue : z.accepted + 200 * us ≤ s.now) : commitFrame s = commitApply z s.cmp.frameCount s := by
  rw [commitFrame, hz]
  exact if_pos ⟨by rw [hlocal]; rfl, hdue⟩

/-! ## The frame count (R125) -/

theorem commitApply_frameCount (z : Snapshot) (f : Nat) (s : State) :
    (commitApply z f s).cmp.frameCount = s.cmp.frameCount := by
  rw [commitApply_cmp]

theorem commitFrame_frameCount (s : State) : (commitFrame s).cmp.frameCount = s.cmp.frameCount := by
  rw [commitFrame]
  split
  · split
    · exact commitApply_frameCount ..
    · rfl
  · rfl

theorem abortCommit_frameCount (s : State) : (abortCommit s).cmp.frameCount = s.cmp.frameCount := by
  rw [abortCommit]
  split <;> rfl

/-- The end of a barrier applies or discards the manager's snapshot, and counts no frame (R449). -/
theorem barrierEnds_frameCount (x : Barrier) (s : State) : (barrierEnds x s).cmp.frameCount = s.cmp.frameCount := by
  unfold barrierEnds
  extract_lets all st s1 s2
  rw [cmdDone_cmp, setBrg_cmp]
  have hs1 : s1.cmp.frameCount = s.cmp.frameCount := by
    dsimp only [s1]
    split
    · split
      · rfl
      · split
        · exact commitApply_frameCount ..
        · rfl
    · split <;> rfl
  dsimp only [s2]
  split
  · exact hs1
  · exact hs1

/-- The end of a barrier on a worker applies or discards its snapshot, and counts no frame (R448). -/
theorem mineEnds_frameCount (m : MyBarrier) (s : State) : (mineEnds m s).cmp.frameCount = s.cmp.frameCount := by
  unfold mineEnds
  extract_lets go s0
  split
  · split <;> rfl
  · split
    · split
      · rfl
      · split
        · exact commitApply_frameCount ..
        · exact abortCommit_frameCount ..
    · rfl

/-- What the topology does at a frame start counts no frame of this device's composition. -/
theorem brugoFrame_frameCount (s : State) : (brugoFrame s).cmp.frameCount = s.cmp.frameCount := by
  unfold brugoFrame
  extract_lets s1 missed s2 s3 s4 due s5
  have hnumbered : s2.cmp.frameCount = s.cmp.frameCount := by
    dsimp only [s2]
    split <;> rfl
  have hbarrier : s3.cmp.frameCount = s2.cmp.frameCount := by
    dsimp only [s3]
    split
    · split
      · exact barrierEnds_frameCount ..
      · rfl
    · rfl
  have hmine : s4.cmp.frameCount = s3.cmp.frameCount := by
    dsimp only [s4]
    split
    · split
      · exact mineEnds_frameCount ..
      · rfl
    · rfl
  have hshared : s5.cmp = s4.cmp := by
    dsimp only [s5]
    split
    · exact foldl_proj State.cmp _ (fun _ _ => shareApply_cmp ..) _ _
    · rfl
  rw [setBrg_cmp, hshared, hmine, hbarrier, hnumbered]

/-- A frame start adds one to the count of frames, and nothing else in it does. -/
theorem frameCounts_frameCount (s : State) :
    (frameCounts s).cmp.frameCount = (s.cmp.frameCount + 1) % 2 ^ 32 := by
  rw [frameCounts, commitFrame_frameCount, portsFollow_cmp, brugoFrame_frameCount, setCmp_cmp]

/-! ## FRAME_START -/

theorem exec_frameStart_of_fastUp (t : Time) (fi : FrameIn) {s : State} (h : s.fastUp = true) :
    exec (.frameStart t fi) s = .next (frameStarts fi (s.at t)) :=
  if_pos (c := (s.at t).fastUp = true) h

theorem exec_frameStart_of_fastDown (t : Time) (fi : FrameIn) {s : State} (h : s.fastUp = false) :
    exec (.frameStart t fi) s = .next (s.at t) :=
  if_neg (c := (s.at t).fastUp = true) (ne_true_of_eq_false h)

/-- Settles O28: the two answers of the row, its count, and the two cases of an armed local commit. -/
theorem commitAppliesAtAFrameStart : Obligations.CommitAppliesAtAFrameStart := by
  refine ⟨fun t fi _ => exec_frameStart_of_fastUp t fi, fun t fi _ => exec_frameStart_of_fastDown t fi,
    frameCounts_frameCount, fun _ _ hz _ => commitFrame_of_early hz, ?due⟩
  case due =>
    intro z s hz hlocal hdue
    rw [commitFrame_of_due hz hlocal hdue, commitApply_cmp]
    exact ⟨rfl, rfl, rfl, rfl, rfl, rfl, rfl⟩

end Sys2Proof.Machine
end
section
/-! SUPPORT. Quiet operations: those that leave the records of the Hearth, the host interfaces and the Granary as they
are (spec/02_operating_states.md), whatever they do to the engines, the Forge, the Servo and the events. -/

namespace Sys2Proof.Machine

/-! ## The records that power states and resets turn on -/

/-- The records of the Hearth, the host interfaces and the Granary. -/
def State.base (s : State) : Hth × Hst × Grn := (s.hth, s.hst, s.grn)

section
variable {s x : State} (h : x.base = s.base)
include h

theorem hth_of_base : x.hth = s.hth := congrArg (·.1) h
theorem hst_of_base : x.hst = s.hst := congrArg (·.2.1) h
theorem grn_of_base : x.grn = s.grn := congrArg (·.2.2) h

end

@[simp] theorem raise_base (id d : Nat) (s : State) : (raise id d s).base = s.base := rfl

@[simp] theorem raiseIf_base (c : Bool) (id d : Nat) (s : State) : (raiseIf c id d s).base = s.base := by
  cases c <;> rfl

@[simp] theorem setFrgE_base (e : Fin 4) (f : FrgEng → FrgEng) (s : State) : (setFrgE e f s).base = s.base := rfl
@[simp] theorem setFrg_base (f : Frg → Frg) (s : State) : (setFrg f s).base = s.base := rfl
@[simp] theorem setSwt_base (e : Fin 4) (f : SwtEng → SwtEng) (s : State) : (setSwt e f s).base = s.base := rfl
@[simp] theorem setScn_base (e : Fin 4) (f : ScnEng → ScnEng) (s : State) : (setScn e f s).base = s.base := rfl
@[simp] theorem setPll_base (p : Fin 4) (f : Pll → Pll) (s : State) : (setPll p f s).base = s.base := rfl
@[simp] theorem setTng_base (f : Tng → Tng) (s : State) : (setTng f s).base = s.base := rfl
@[simp] theorem setThrE_base (e : Fin 4) (f : ThrEng → ThrEng) (s : State) : (setThrE e f s).base = s.base := rfl
@[simp] theorem setTmp_base (f : Tmp → Tmp) (s : State) : (setTmp f s).base = s.base := rfl
@[simp] theorem setThm_base (f : Thm → Thm) (s : State) : (setThm f s).base = s.base := rfl

/-- The holder of the telltales is judged: the Anvil's record and its events. -/
@[simp] theorem judgeHolder_base (s : State) : (judgeHolder s).base = s.base := by
  rw [judgeHolder]
  dsimp only
  split
  · rfl
  · exact raiseIf_base ..

@[simp] theorem ownerTimer_base (s : State) : (ownerTimer s).base = s.base := rfl

/-! ## Engines, scanners and links -/

@[simp] theorem releaseCause_base (e : Fin 4) (b : Nat) (s : State) : (releaseCause e b s).base = s.base := rfl

@[simp] theorem zeroOut_base (n : Fin 64) (s : State) : (zeroOut n s).base = s.base := by
  rw [zeroOut]
  split <;> rfl

@[simp] theorem scanLoopsHold_base (e : Fin 4) (s : State) : (scanLoopsHold e s).base = s.base := by
  rw [scanLoopsHold]
  refine foldl_proj State.base _ (fun a n => ?_) _ s
  dsimp only
  split
  · exact zeroOut_base n a
  · rfl

@[simp] theorem scanOff_base (e : Fin 4) (s : State) : (scanOff e s).base = s.base := by
  rw [scanOff, releaseCause_base, setScn_base, exciteStop, scanLoopsHold_base, setScn_base]

@[simp] theorem scanStart_base (e : Fin 4) (s : State) : (scanStart e s).base = s.base := by
  rw [scanStart]
  split
  · split <;> rfl
  · rfl

@[simp] theorem linkStart_base (e : Fin 4) (s : State) : (linkStart e s).base = s.base := by
  simp only [linkStart, storedTaps, setSwt_base, setTmp_base]

@[simp] theorem linkOff_base (e : Fin 4) (s : State) : (linkOff e s).base = s.base := by
  rw [linkOff, releaseCause_base, setSwt_base]

@[simp] theorem enginesStart_base (again : Bool) (s : State) : (enginesStart again s).base = s.base := by
  refine forEng_proj State.base _ (fun e a => (scanStart_base ..).trans ?_) s
  split
  · exact linkStart_base ..
  · rfl

@[simp] theorem servoStart_base (s : State) : (servoStart s).base = s.base := by
  rw [servoStart]
  split <;> rfl

@[simp] theorem servoStop_base (s : State) : (servoStop s).base = s.base := by
  rw [servoStop]
  split
  · rfl
  · exact foldl_proj State.base _ (fun a n => zeroOut_base n a) _ s

@[simp] theorem engineDark_base (e : Fin 4) (s : State) : (engineDark e s).base = s.base := by
  simp only [engineDark, dropSteps, engChans, setTmp_base, setScn_base, setSwt_base, setThrE_base, setFrg_base,
    setFrgE_base]

@[simp] theorem allDark_base (s : State) : (allDark s).base = s.base :=
  forEng_proj State.base _ engineDark_base s

@[simp] theorem pllOn_base (p : Fin 4) (s : State) : (pllOn p s).base = s.base := setPll_base ..

@[simp] theorem pllOff_base (p : Fin 4) (s : State) : (pllOff p s).base = s.base := setPll_base ..

/-- Operations on the four PLLs that each leave a part of the state as it is leave it as it is. -/
theorem allPlls_proj {β : Type} (proj : State → β) (f : Fin 4 → State → State)
    (h : ∀ p s, proj (f p s) = proj s) (s : State) : proj (allPlls f s) = proj s := by
  simp only [allPlls, h]

@[simp] theorem allPlls_pllOn_base (s : State) : (allPlls pllOn s).base = s.base :=
  allPlls_proj State.base _ pllOn_base s

@[simp] theorem allPlls_pllOff_base (s : State) : (allPlls pllOff s).base = s.base :=
  allPlls_proj State.base _ pllOff_base s

/-! ## The mirror -/

@[simp] theorem mirrorEnable_base (s : State) : (mirrorEnable s).base = s.base := by
  rw [mirrorEnable]
  split
  · rw [mirrorTrain]
    split
    · exact raiseIf_base ..
    · rfl
  · rfl

/-! ## Self-test and Brugo Link -/

@[simp] theorem sliceAbandon_base (s : State) : (sliceAbandon s).base = s.base := by
  rw [sliceAbandon]
  split <;> rfl

@[simp] theorem portsJudge_base (s : State) : (portsJudge s).base = s.base := by
  rw [portsJudge]
  split
  · dsimp only
    split <;> rfl
  · rfl

@[simp] theorem portsFollow_base (s : State) : (portsFollow s).base = s.base := by
  have hset : ∀ (p : Fin 2) (f : BrgPort → BrgPort) (x : State), (setPort p f x).base = x.base := fun _ _ _ => rfl
  simp only [portsFollow, portsJudge_base, apply_ite State.base, hset, ite_self]

/-! ## The beginning of a step -/

/-- A step asks for the fast domains while they are not up; else it changes at most the self-refresh of the HBM. -/
theorem stepBegins_cases (leaving stepTo : PState) (s : State) :
    s.hth.boot ≠ .on ∧ stepBegins leaving stepTo s = powerUp s ∨
    ∃ b, (stepBegins leaving stepTo s).base = (s.hth, s.hst, { s.grn with selfRefresh := b }) := by
  rw [stepBegins]
  split
  · next h => exact .inl ⟨h.2.2, rfl⟩
  · refine .inr ?_
    split
    · refine ⟨false, ?_⟩
      rw [servoStart_base, enginesStart_base, State.base, setGrn_hth, setGrn_hst, setGrn_grn]
      have hplls := allPlls_pllOn_base s
      rw [hth_of_base hplls, hst_of_base hplls, grn_of_base hplls]
    · split
      · exact ⟨s.grn.selfRefresh, enginesStart_base ..⟩
      · exact ⟨s.grn.selfRefresh, rfl⟩

end Sys2Proof.Machine
end

section
/-! SUPPORT. Resets and the loss of power (R49, R52, R55, R56): what the cold start leaves of the host interfaces and of
the HBM, and what storage keeps. -/

namespace Sys2Proof.Machine

/-! ## The content that a reset takes away -/

/-- The record of the host interfaces and the bytes of the HBM. -/
def State.content (s : State) : Hst × List Host.Cell := (s.hst, s.grn.hbm)

theorem content_of_base {s x : State} (h : x.base = s.base) : x.content = s.content := by
  rw [State.content, hst_of_base h, grn_of_base h]
  rfl

@[simp] theorem setHth_content (f : Hth → Hth) (s : State) : (setHth f s).content = s.content := rfl
theorem setGrn_content {f : Grn → Grn} {s : State} (h : (f s.grn).hbm = s.grn.hbm) :
    (setGrn f s).content = s.content :=
  congrArg (Prod.mk s.hst) h

@[simp] theorem raise_content (id d : Nat) (s : State) : (raise id d s).content = s.content := rfl

@[simp] theorem raiseIf_content (c : Bool) (id d : Nat) (s : State) : (raiseIf c id d s).content = s.content :=
  content_of_base (raiseIf_base ..)

theorem ite_content {c : Prop} [Decidable c] {a b s : State} (ha : a.content = s.content)
    (hb : b.content = s.content) : (if c then a else b).content = s.content := by
  split
  · exact ha
  · exact hb

/-! ## Cold start, steps 1 to 3 -/

/-- A parameter of the start-up record sets a register, and no content. -/
theorem loadParam_content (id : Nat) (v : Word) (s : State) : (loadParam id v s).content = s.content := by
  unfold loadParam
  repeat' refine ite_content ?_ ?_
  all_goals rfl

theorem recordLoad_content (s : State) : (recordLoad s).content = s.content := by
  rw [recordLoad]
  refine Eq.trans (b := State.content _) (content_of_base (setTng_base ..)) ?_
  split
  · exact foldl_proj State.content _ (fun a p => loadParam_content ..) _ _
  · rfl

theorem patchBoot_content (v : Verify) (s : State) : (patchBoot v s).content = s.content := by
  rw [patchBoot]
  split
  · rfl
  · have hdropped : (if s.flash.patchPending then pendingDropped false s else s).content = s.content := by
      split <;> rfl
    dsimp only
    split
    · exact hdropped
    · exact hdropped

theorem anvilBoot_content (s : State) : (anvilBoot s).content = s.content := by
  unfold anvilBoot
  extract_lets f ok pend s1
  have hpend : s1.content = s.content := by
    dsimp only [s1]
    clear_value pend
    split <;> rfl
  split
  · exact hpend
  · exact hpend

theorem journalLoad_base (s : State) : (journalLoad s).base = s.base := by
  simp only [journalLoad, raiseIf_base, setTmp_base]

theorem logPush_content (addr ty port : Nat) (c : Fin 64) (syndrome : Nat) (s : State) :
    (logPush addr ty port c syndrome s).content = s.content := by
  rw [logPush]
  split
  · rfl
  · exact raiseIf_content ..

theorem repairLoad_content (s : State) : (repairLoad s).content = s.content := by
  unfold repairLoad
  extract_lets a b pick
  clear_value pick
  split
  · rfl
  · exact foldl_proj State.content _ (fun _ _ => logPush_content ..) _ _

theorem volatileLost_content (s : State) : (volatileLost s).content = ({}, []) := rfl

theorem hearthBoot_content (p : Pins) (s : State) : (hearthBoot p s).content = s.content := rfl

/-- Steps 1 to 3 leave the host interfaces at their reset values and the HBM empty (R52). -/
theorem coldBoot_content (p : Pins) (v : Verify) (s : State) : (coldBoot p v s).content = ({}, []) := by
  unfold coldBoot
  extract_lets s0 s1 s2 s3 stk
  have hs0 : s0.content = ({}, []) :=
    (forEng_proj State.content _ (fun _ _ => content_of_base (setFrgE_base ..)) _).trans
      ((hearthBoot_content ..).trans (volatileLost_content s))
  have hs1 : s1.content = ({}, []) := (recordLoad_content s0).trans hs0
  have hs2 : s2.content = ({}, []) := (foldl_proj State.content _ (fun _ _ => raise_content ..) _ s1).trans hs1
  have hs3 : s3.content = ({}, []) := (anvilBoot_content _).trans ((patchBoot_content v s2).trans hs2)
  clear_value stk s3
  calc (judgeHolder (ownerTimer (setGrn _ (repairLoad (journalLoad s3))))).content
      = (setGrn _ (repairLoad (journalLoad s3))).content :=
        content_of_base ((judgeHolder_base _).trans (ownerTimer_base _))
    _ = (repairLoad (journalLoad s3)).content := setGrn_content (by rfl)
    _ = s3.content := (repairLoad_content _).trans (content_of_base (journalLoad_base s3))
    _ = ({}, []) := hs3

/-! ## The way on: SLEEP, or a wake -/

theorem cmdDone_of_nothing_pending (k : PendKey) (st : Status) {s : State} (h : s.hst.pend = []) :
    cmdDone k st s = s := by
  rw [cmdDone, h]
  rfl

theorem abortCommit_base (s : State) : (abortCommit s).base = s.base := by
  rw [abortCommit]
  split <;> rfl

theorem powerUp_content (s : State) : (powerUp s).content = s.content := by
  rw [powerUp]
  split
  · rfl
  · split <;> rfl

theorem stepBegins_content (leaving stepTo : PState) (s : State) :
    (stepBegins leaving stepTo s).content = s.content := by
  obtain ⟨-, h⟩ | ⟨b, h⟩ := stepBegins_cases leaving stepTo s
  · rw [h, powerUp_content]
  · exact Prod.ext (congrArg (·.2.1) h) (congrArg (·.2.2.hbm) h)

theorem setHst_content {f : Hst → Hst} {s : State} (h : s.content = ({}, [])) :
    (setHst f s).content = (f {}, []) := by
  rw [State.content, Prod.mk.injEq] at h ⊢
  exact ⟨congrArg f h.1, h.2⟩

/-- A step of a transition that finds nothing in the host interfaces and the HBM arms at most the link's timer. -/
theorem goOn_content (t : Trans) (p : PState) {s : State} (h : s.content = ({}, [])) :
    ∃ d, (goOn t p s).content = ({ linkDue := d }, []) := by
  rw [goOn, stepBegins_content, linkTimer]
  split
  · exact ⟨_, setHst_content h⟩
  · split
    · exact ⟨_, setHst_content h⟩
    · exact ⟨none, h⟩

/-! ## SLEEP entered by the cold start (R54) -/

theorem dropDeferred_of_none_deferred {s : State} (h : s.hst.deferred = []) :
    dropDeferred s = setHst (fun h => { h with deferred := [] }) s := by
  rw [dropDeferred, h]
  rfl

theorem doneAll_of_nothing_pending (p : PendKey → Bool) (st : Status) {s : State} (h : s.hst.pend = []) :
    doneAll p st s = s := by
  rw [doneAll, h]
  rfl

theorem saveDone_hst_of_nothing_pending (st : Status) {s : State} (h : s.hst.pend = []) :
    (saveDone st s).hst = s.hst := by
  rw [saveDone]
  split
  · rw [cmdDone_of_nothing_pending]
    · rfl
    · exact h
  · rfl

theorem journalAbandon_hst_of_nothing_pending {s : State} (h : s.hst.pend = []) : (journalAbandon s).hst = s.hst := by
  rw [journalAbandon]
  split
  · rfl
  · exact saveDone_hst_of_nothing_pending .hwFault h

theorem eventsLost_base (s : State) : (eventsLost s).base = s.base := by
  unfold eventsLost
  extract_lets n s1 e
  exact raiseIf_base (n != 0) evHthEventsLost (min n 0x3FF) s

theorem startupEvents_base (r : Startup) (s : State) : (startupEvents r s).base = s.base := by
  unfold startupEvents
  extract_lets e
  clear_value e
  rfl

theorem eventReset_base (s : State) : (eventReset s).base = s.base := by
  unfold eventReset
  split
  · rfl
  · next r _ =>
    extract_lets s1
    have hs1 : s1.base = s.base := startupEvents_base r s
    clear_value s1
    exact hs1

theorem enterState_content (c : Nat) (start new : PState) (s : State) :
    (enterState c start new s).content = s.content :=
  (raise_content ..).trans (setHth_content ..)

/-- SLEEP entered with the host interfaces at their reset values leaves them there, and loses the HBM. -/
theorem sleepEntered_content {s : State} (h : s.hst = {}) : (sleepEntered s).content = ({}, []) := by
  unfold sleepEntered
  extract_lets s1 s2
  have habort : (abortCommit s).hst = {} := (hst_of_base (abortCommit_base s)).trans h
  have hs1 : s1.hst = {} := by
    dsimp only [s1]
    rw [dropDeferred_of_none_deferred (by rw [habort]), doneAll_of_nothing_pending]
    · rw [setHst_hst, habort]
    · rw [setHst_hst, habort]
  clear_value s1
  have hs2 : s2.hst = {} :=
    calc s2.hst = (eventReset (eventsLost (pcieDown (journalAbandon s1)))).hst := rfl
      _ = (pcieDown (journalAbandon s1)).hst := hst_of_base ((eventReset_base _).trans (eventsLost_base _))
      _ = {} := by rw [pcieDown, setHst_hst, journalAbandon_hst_of_nothing_pending (by rw [hs1]), hs1]
  calc (judgeHolder (setHth _ s2)).content = (setHth _ s2).content := content_of_base (judgeHolder_base _)
    _ = s2.content := setHth_content ..
    _ = ({}, []) := congrArg (·, []) hs2

/-! ## The cold start -/

/-- No request, PENDING command or reply stands, and every byte of the HBM reads zero (R52, R69). -/
def State.Emptied (s : State) : Prop :=
  s.hst.requests = [] ∧ s.hst.pend = [] ∧ s.hst.spiReplies = [] ∧ s.grn.hbm = []

theorem emptied_of_content {s : State} {d : Option Time} (h : s.content = ({ linkDue := d }, [])) : s.Emptied := by
  have hhst : s.hst = { linkDue := d } := congrArg (·.1) h
  have hhbm : s.grn.hbm = [] := congrArg (·.2) h
  exact ⟨by rw [hhst], by rw [hhst], by rw [hhst], hhbm⟩

theorem coldStart_emptied (p : Pins) (v : Verify) (s : State) : (coldStart p v s).Emptied := by
  unfold coldStart
  extract_lets s1 ign wake s2
  have hs1 : s1.content = ({}, []) := coldBoot_content p v s
  clear_value s1
  split
  · have hs2 : s2.content = ({}, []) := by
      dsimp only [s2]
      split <;> exact hs1
    clear_value s2
    obtain ⟨d, hgo⟩ := goOn_content
      { start := .off, target := wakeTarget s2, leaving := .sleep, stepTo := .sleep, cause := 0, cmd := none } .sleep
      ((setHth_content (fun h => { h with wakeSrc := BitVec.ofNat 4 (b2n ign + 2 * b2n wake) }) s2).trans hs2)
    exact emptied_of_content hgo
  · exact emptied_of_content (d := none)
      ((enterState_content ..).trans (sleepEntered_content (congrArg (·.1) hs1)))

/-! ## The rows (R49, R52, R55, R468) -/

theorem exec_powerOn (t : Time) (p : Pins) (v : Verify) (s : State) :
    exec (.powerOn t p v) s
      = .next (coldStart p v { s.at t with hth := { s.hth with xtalOk := true, onRc := false } }) := rfl

/-- A pulse of at least 10 us, and an internal reset, reset a device that is not OFF. -/
theorem exec_reset_of_long (t : Time) {k : ResetKind} (p : Pins) (v : Verify) {s : State} (hpwr : s.hth.pwr ≠ .off)
    (hlong : ∀ w, k = .porst w → 10 * us ≤ w) : exec (.reset t k p v) s = .next (coldStart p v (s.at t)) := by
  cases k with
  | porst w => exact if_neg (by simpa [hpwr] using hlong w rfl)
  | internal => exact if_neg (by simpa using hpwr)

theorem exec_reset_of_short (t : Time) {w : Time} (p : Pins) (v : Verify) (s : State) (hshort : w < 10 * us) :
    exec (.reset t (.porst w) p v) s = .next (s.at t) :=
  if_pos (by simp [hshort])

theorem exec_delayedReset_of_due {t d : Time} (p : Pins) (v : Verify) {s : State} (hdue : s.hth.resetDue = some d)
    (hd : d ≤ t) : exec (.delayedReset t p v) s = .next (coldStart p v (s.at t)) := by
  show execDelayedReset t p v s = _
  rw [execDelayedReset, State_at_hth, hdue]
  exact if_pos (Nat.le_trans hd (Nat.le_max_right ..))

/-! ## Loss of power (R55, R56) -/

/-- A write that the loss of power cuts off spoils the start-up record alone of what the boot flash stores. -/
theorem writesTorn_flash (s : State) : ∃ r, (writesTorn s).flash = { s.flash with startup := r } := by
  simp only [writesTorn]
  split <;> split <;> exact ⟨_, rfl⟩

/-- Settles O8: the three resets run the cold start, which leaves nothing of the host interfaces and the HBM; a loss of
power puts everything but storage at its reset value. -/
theorem resetsAndPowerLoss : Obligations.ResetsAndPowerLoss := by
  refine ⟨?powerOn, ?reset, fun t w p v s => exec_reset_of_short t p v s, ?delayed, ?powerLoss⟩
  case powerOn => exact fun t p v s => ⟨_, exec_powerOn t p v s, rfl, coldStart_emptied ..⟩
  case reset =>
    exact fun t k p v s hpwr hlong => ⟨_, exec_reset_of_long t p v hpwr hlong, rfl, coldStart_emptied ..⟩
  case delayed =>
    exact fun t d p v s hdue hd => ⟨_, exec_delayedReset_of_due p v hdue hd, rfl, coldStart_emptied ..⟩
  case powerLoss =>
    intro t s
    obtain ⟨r, hflash⟩ := writesTorn_flash (s.at t)
    have huid : (writesTorn (s.at t)).otp.uid = s.otp.uid := (writesTorn_keeps (Keeps.refl (s.at t))).otp.uid
    refine ⟨_, rfl, rfl, rfl, rfl, rfl, rfl, rfl, rfl, rfl, huid, ?_⟩
    show (writesTorn (s.at t)).flash.patch = _ ∧ (writesTorn (s.at t)).flash.main = _
      ∧ (writesTorn (s.at t)).flash.anvil = _ ∧ (writesTorn (s.at t)).flash.brgConfig = _
      ∧ (writesTorn (s.at t)).flash.journal = _
    rw [hflash]
    exact ⟨rfl, rfl, rfl, rfl, rfl⟩

end Sys2Proof.Machine
end

section
/-! SUPPORT. What the state after reset reads as (R35, R125, R151, R545, R547). -/

namespace Sys2Proof.Machine

/-- Settles O2: the registers are functions of the state, evaluated at the one state after reset. -/
theorem resetStateIsAsStated : Obligations.ResetStateIsAsStated := by
  refine ⟨?memory, rfl, ?hthState, ?evtFaultSrc, ?frameCount, ?anvStatus, rfl, rfl, rfl⟩
  case memory => rfl
  case hthState => rfl
  case evtFaultSrc => rfl
  case frameCount => rfl
  case anvStatus => rfl

end Sys2Proof.Machine
end

section
/-! SUPPORT. The input pins (R37, R39, R46, R285, R566): what a rise, a fall and the IGN-off delay make of the Hearth,
and what entry to SAFE shows. -/

namespace Sys2Proof.Machine

/-! ## IGN falls (R37) -/

theorem exec_ignFall_of_enabled (t : Time) {s : State} (hboot : s.hth.boot ≠ .hold)
    (henabled : wb s.hth.wakeConfig 0 = true) (hign : s.hth.ign = true) :
    exec (.ignFall t) s = .next { s.at t with hth := { s.hth with
      ign := false, ignOffDue := some (max s.now t + s.hth.ignOffDelay.toNat * (100 * ms)) } } :=
  if_neg (by simp [hboot, henabled, hign])

/-- With IGN_EN 0 an edge moves only the pin's level. -/
theorem exec_ignFall_of_disabled (t : Time) {s : State} (hdisabled : wb s.hth.wakeConfig 0 = false) :
    exec (.ignFall t) s = .next { s.at t with hth := { s.hth with ign := false } } :=
  if_pos (by simp [hdisabled])

theorem exec_ignOffDelayExpiry_of_due {t d : Time} {s : State} (hdue : s.hth.ignOffDue = some d) (hd : d ≤ t) :
    exec (.ignOffDelayExpiry t) s = .next (ignOffActs { s.at t with hth := { s.hth with ignOffDue := none } }) := by
  show execIgnOffDelayExpiry t s = _
  rw [execIgnOffDelayExpiry, State_at_hth, hdue]
  exact if_pos (Nat.le_trans hd (Nat.le_max_right ..))

/-! ## The IGN-off move (R37, R566) -/

theorem ignOffActs_of_no_target {s : State} (h : ignOffTarget s = none) : ignOffActs s = s := by
  rw [ignOffActs, h]

theorem ignOffActs_of_safe {p : PState} {s : State} (htarget : ignOffTarget s = some p) (hpwr : s.hth.pwr = .safe) :
    ignOffActs s = s := by
  rw [ignOffActs, htarget]
  exact if_pos (.inl hpwr)

theorem ignOffActs_of_busy_or_quench {p : PState} {s : State} (htarget : ignOffTarget s = some p)
    (hsafe : s.hth.pwr ≠ .safe) (hoff : s.hth.pwr ≠ .off) (hbusy : s.busy = true ∨ s.hth.pwr = .quench) :
    ignOffActs s = { s with hth := { s.hth with held := some .ignOff } } := by
  rw [ignOffActs, htarget]
  exact (if_neg (by simp [hsafe, hoff])).trans (if_pos hbusy)

/-- The four states between which IGN and WAKE move the device are neither SAFE, OFF nor QUENCH. -/
theorem ignOffActs_of_idle {p : PState} {s : State} (htarget : ignOffTarget s = some p) (hidle : s.busy = false)
    (hpwr : s.hth.pwr = .sleep ∨ s.hth.pwr = .standby ∨ s.hth.pwr = .ready ∨ s.hth.pwr = .lit) :
    ignOffActs s = if p.rank < s.hth.pwr.rank then startTrans p 0x03 none s else s := by
  have hmoves : s.hth.pwr ≠ .safe ∧ s.hth.pwr ≠ .off ∧ s.hth.pwr ≠ .quench := by
    obtain h | h | h | h := hpwr <;> simp [h]
  obtain ⟨hsafe, hoff, hquench⟩ := hmoves
  rw [ignOffActs, htarget]
  simp only [hsafe, hoff, hquench, hidle, or_self, if_false, Bool.false_eq_true, ← Nat.not_lt, ite_not]

/-! ## A rise of IGN or WAKE (R39, R566) -/

/-- The Hearth record's fields that belong to IGN: the pin's level and the running IGN-off delay. -/
def Hth.ignition (h : Hth) : Bool × Option Time := (h.ign, h.ignOffDue)

theorem startTrans_ignition (p : PState) (c : Nat) (k : Option PendKey) (s : State) :
    (startTrans p c k s).hth.ignition = s.hth.ignition := by
  have hpower : ∀ x : State, (powerUp x).hth.ignition = x.hth.ignition := by
    intro x
    rw [powerUp]
    split
    · rfl
    · split <;> rfl
  have htimer : ∀ (q r : PState) (x : State), (linkTimer q r x).hth = x.hth := by
    intro q r x
    rw [linkTimer]
    split
    · rfl
    · split <;> rfl
  have hbegins : ∀ (q r : PState) (x : State), (stepBegins q r x).hth.ignition = x.hth.ignition := by
    intro q r x
    obtain ⟨-, h⟩ | ⟨b, h⟩ := stepBegins_cases q r x
    · rw [h, hpower]
    · exact congrArg (·.1.ignition) h
  simp only [startTrans, goOn, hbegins, htimer]
  rfl

theorem riseActs_ignition (ev : HeldEv) (s : State) : (riseActs ev s).hth.ignition = s.hth.ignition := by
  unfold riseActs
  extract_lets ign s1 target
  have hs1 : s1.hth.ignition = s.hth.ignition := by
    dsimp only [s1]
    split <;> rfl
  clear_value s1
  split
  · exact hs1
  · split
    · exact hs1
    · split
      · exact hs1
      · rw [startTrans_ignition]
        show (if _ then _ else _ : State).hth.ignition = _
        split <;> exact hs1

/-- Every WAKE_TARGET lies above SLEEP. -/
theorem sleep_rank_lt_wakeTarget (s : State) : PState.sleep.rank < (wakeTarget s).rank := by
  rw [wakeTarget]
  split <;> decide

/-- In SLEEP nothing refuses a rise and nothing holds it back: the wake begins, with its source. -/
theorem riseActs_of_sleep (ev : HeldEv) {s : State} (hpwr : s.hth.pwr = .sleep) (hidle : s.busy = false) :
    riseActs ev s = startTrans (wakeTarget s) (if ev == .ignRise then 0x02 else 0x04) none
      (setHth (fun h => { h with wakeSrc := if ev == .ignRise then 1 else 2 })
        (if ev == .ignRise then lampCheckOn s else s)) := by
  have hmoves : ¬(s.hth.pwr = .safe ∨ s.hth.pwr = .off) := by simp [hpwr]
  have hnow : ¬(s.busy = true ∨ s.hth.pwr = .quench) := by simp [hpwr, hidle]
  have hrise : ¬((wakeTarget s).rank ≤ s.hth.pwr.rank ∨ s.hth.pwr = .ready ∧ (litRefused s).isSome = true) := by
    have hrank := sleep_rank_lt_wakeTarget s
    simp only [hpwr, reduceCtorEq, false_and, or_false]
    omega
  simp only [riseActs, if_neg hmoves, if_neg hnow, if_neg hrise, if_pos hpwr, and_iff_left hpwr]

theorem riseActs_wake_of_safe {s : State} (hpwr : s.hth.pwr = .safe) : riseActs .wakeRise s = s := by
  rw [riseActs]
  exact if_pos (.inl hpwr)

theorem exec_wakeRise_of_enabled (t : Time) {s : State} (hboot : s.hth.boot ≠ .hold)
    (henabled : wb s.hth.wakeConfig 1 = true) :
    exec (.wakeRise t) s = .next (riseActs .wakeRise { s.at t with hth := { s.hth with
      wake := true, rcRun := true, lastActivity := max s.now t } }) :=
  if_neg (by simp [hboot, henabled])

theorem exec_ignRise_of_enabled (t : Time) {s : State} (hboot : s.hth.boot ≠ .hold)
    (henabled : wb s.hth.wakeConfig 0 = true) :
    exec (.ignRise t) s = .next (riseActs .ignRise { s.at t with hth := { s.hth with
      ign := true, rcRun := true, lastActivity := max s.now t, ignOffDue := none } }) :=
  if_neg (by simp [hboot, henabled])

theorem exec_wakeRise_of_safe (t : Time) {s : State} (hpwr : s.hth.pwr = .safe) :
    exec (.wakeRise t) s = .next { s.at t with hth := { s.hth with
      wake := true, rcRun := true, lastActivity := max s.now t } } := by
  show execWakeRise t s = _
  simp only [execWakeRise]
  rw [riseActs_wake_of_safe (by exact hpwr), ite_self]
  rfl

/-! ## ESTOP (R46, R285) and entry to SAFE -/

theorem exec_estopAssert_of_on (t : Time) {s : State} (hboot : s.hth.boot ≠ .hold) :
    exec (.estopAssert t) s =
      let dark := forEng (fun e a => darkCause e 0 a) { s.at t with hth := { s.hth with estopLow := true } }
      .next (if s.hth.pwr = .lit then enterSafe 0x20 dark else dark) :=
  if_neg hboot

/-- Entered from any state but OFF and SAFE, SAFE stands with the cause of its entry. -/
theorem enterSafe_hth (c : Nat) {s : State} (hoff : s.hth.pwr ≠ .off) (hsafe : s.hth.pwr ≠ .safe) :
    (enterSafe c s).hth.pwr = .safe ∧ (enterSafe c s).hth.cause = c := by
  rw [enterSafe, if_neg hoff, if_neg hsafe]
  dsimp only
  rw [hth_of_base ((judgeHolder_base _).trans (mirrorEnable_base _))]
  exact ⟨rfl, rfl⟩

/-- Settles O9: IGN's fall and delay, the IGN-off move, the rises, and ESTOP_N. -/
theorem inputsMoveTheDevice : Obligations.InputsMoveTheDevice := by
  refine ⟨fun t s => exec_ignFall_of_enabled t, fun t s => exec_ignFall_of_disabled t, ?cancel,
    fun t d s => exec_ignOffDelayExpiry_of_due, fun s => ignOffActs_of_no_target, fun p s => ignOffActs_of_safe,
    fun p s => ignOffActs_of_busy_or_quench, fun p s => ignOffActs_of_idle, ?wake, ?ign,
    fun t s => exec_wakeRise_of_safe t, ?estop, ?estopLit, ?safe⟩
  case cancel =>
    intro t s hboot henabled
    have h := riseActs_ignition .ignRise
      { s.at t with hth := { s.hth with ign := true, rcRun := true, lastActivity := max s.now t, ignOffDue := none } }
    exact ⟨_, exec_ignRise_of_enabled t hboot henabled, congrArg (·.2) h, congrArg (·.1) h⟩
  case wake =>
    intro t s hboot henabled hpwr hidle
    rw [exec_wakeRise_of_enabled t hboot henabled, riseActs_of_sleep _ (by exact hpwr) (by exact hidle)]
    rfl
  case ign =>
    intro t s hboot henabled hpwr hidle
    rw [exec_ignRise_of_enabled t hboot henabled, riseActs_of_sleep _ (by exact hpwr) (by exact hidle)]
    rfl
  case estop =>
    intro t s hboot hpwr
    rw [exec_estopAssert_of_on t hboot]
    exact congrArg _ (if_neg hpwr)
  case estopLit =>
    intro t s hboot hpwr
    rw [exec_estopAssert_of_on t hboot]
    exact congrArg _ (if_pos hpwr)
  case safe =>
    intro c s hpwr
    exact enterSafe_hth c (by simp [hpwr]) (by simp [hpwr])

end Sys2Proof.Machine
end

section
/-! SUPPORT. The oscillators of the Hearth (R29, R30, R40), the sequence of the switched rails (R552-R555) and the
supply monitors (R399, R554): one lemma for each row and for each answer it can give. -/

namespace Sys2Proof.Machine

/-! ## Oscillators -/

theorem exec_xtalStartTimeout_of_crystal (t : Time) {s : State} (hboot : s.hth.boot ≠ .hold)
    (hcrystal : s.hth.onRc = false) :
    exec (.xtalStartTimeout t) s = .next (raise evHthXtalFail 0
      { s.at t with hth := { s.hth with xtalOk := false, onRc := true, rcRun := true } }) :=
  if_neg (by simp [hboot, hcrystal])

/-- While both oscillators run the trim is counted. -/
theorem exec_rcTrim_of_both_running (t : Time) (k : Int) {s : State} (hboot : s.hth.boot ≠ .hold)
    (hcrystal : s.hth.xtalOk = true) (hrc : s.hth.rcRun = true) :
    exec (.rcTrim t k) s = .next { s.at t with hth := { s.hth with temp := k, rcTrims := s.hth.rcTrims + 1 } } := by
  have htrims : (if s.hth.xtalOk && s.hth.rcRun then s.hth.rcTrims + 1 else s.hth.rcTrims) = s.hth.rcTrims + 1 :=
    if_pos (by simp [hcrystal, hrc])
  rw [← htrims]
  exact if_neg hboot

theorem exec_rcIdleStop_of_idle {t : Time} {s : State} (hpwr : s.hth.pwr = .sleep) (hidle : s.busy = false)
    (hcrystal : s.hth.onRc = false) (hlong : s.hth.lastActivity + 50 * ms ≤ t) :
    exec (.rcIdleStop t) s = .next { s.at t with hth := { s.hth with rcRun := false } } := by
  have hidle' : (s.at t).busy = false := hidle
  exact if_pos ⟨hpwr, by simp [hidle'], by simp [hcrystal], Nat.le_trans hlong (Nat.le_max_right ..)⟩

theorem exec_rcIdleStop_of_early {t : Time} {s : State} (hearly : max s.now t < s.hth.lastActivity + 50 * ms) :
    exec (.rcIdleStop t) s = .next (s.at t) :=
  if_neg fun h => Nat.not_le.2 hearly h.2.2.2

/-! ## The switched rails -/

theorem exec_pwrGoodCheck_of_good (t : Time) (r : Option (Fin 13)) (f : BitVec 4) {s : State}
    (hboot : s.hth.boot = .rails) :
    exec (.pwrGoodCheck t true r f) s = .next (domainsUp f (s.at t)) :=
  (if_neg (not_not_intro hboot)).trans (if_pos rfl)

theorem exec_pwrGoodCheck_of_first_failure (t : Time) (r : Option (Fin 13)) (f : BitVec 4) {s : State}
    (hboot : s.hth.boot = .rails) (hfirst : s.hth.railRetried = false) :
    exec (.pwrGoodCheck t false r f) s = .next { s.at t with hth := { s.hth with
      boot := .retryWait, pwrEn := 0, railRetried := true, railRetryDue := some (max s.now t + 100 * ms) } } :=
  (if_neg (not_not_intro hboot)).trans ((if_neg Bool.false_ne_true).trans (if_neg (by simp [hfirst])))

theorem exec_pwrSequenceRetry_of_due {t d : Time} {s : State} (hboot : s.hth.boot = .retryWait)
    (hdue : s.hth.railRetryDue = some d) (hd : d ≤ t) :
    exec (.pwrSequenceRetry t) s
      = .next { s.at t with hth := { s.hth with boot := .rails, pwrEn := 7, railRetryDue := none } } := by
  show execPwrSequenceRetry t s = _
  rw [execPwrSequenceRetry, State_at_hth, hdue]
  exact if_pos ⟨hboot, Nat.le_trans hd (Nat.le_max_right ..)⟩

/-- The discharge over, a wake that waits raises the rails, and without one they stay down. -/
theorem exec_railDischargeDone_of_discharge (t : Time) {s : State} (hboot : s.hth.boot = .discharge) :
    exec (.railDischargeDone t) s =
      let down : State := { s.at t with hth := { s.hth with boot := .off, dischargeDue := none, wakeWaiting := false } }
      .next (if s.hth.wakeWaiting then railsUp down else down) :=
  if_neg (not_not_intro hboot)

/-! ## The supply monitors -/

/-- An excursion that a working monitor sees, of a device out of reset hold. -/
theorem exec_supplyMonitorExcursion_of_watched (t : Time) {r : Fin 13} (beyond6 : Bool) (p : Pins) (v : Verify)
    {s : State} (hboot : s.hth.boot ≠ .hold) (hwatched : railWatched s r = true) :
    exec (.supplyMonitorExcursion t r beyond6 p v) s =
      if !beyond6 then .next (railWarn r (s.at t))
      else if r.val < 2 then .next (coldStart p v (s.at t))
      else if s.thm.supplyFault &&& railBit r ≠ 0 then .next (railWarn r (s.at t))
      else .next (railFault r (railWarn r (s.at t))) :=
  if_neg (by
    have : railWatched (s.at t) r = true := hwatched
    simp [hboot, this])

theorem exec_pwrGoodLoss_of_fastUp (t : Time) {s : State} (hup : s.fastUp = true) :
    exec (.pwrGoodLoss t) s = .next ((List.finRange 13).foldl (fun a r =>
      if r.val < 2 ∨ a.thm.supplyFault &&& railBit r ≠ 0 then a else railFault r (railWarn r a)) (s.at t)) :=
  if_neg (by
    have : (s.at t).fastUp = true := hup
    simp [this])

/-- Settles O10: the oscillators, the rails and the monitors, row by row. -/
theorem oscillatorsAndRails : Obligations.OscillatorsAndRails := by
  refine ⟨fun t s => exec_xtalStartTimeout_of_crystal t, fun _ _ => rfl, fun t k s => exec_rcTrim_of_both_running t k,
    fun t s => exec_rcIdleStop_of_idle, fun t s => exec_rcIdleStop_of_early,
    fun t r f s => exec_pwrGoodCheck_of_good t r f,
    fun t r f s => exec_pwrGoodCheck_of_first_failure t r f, fun t d s => exec_pwrSequenceRetry_of_due, ?wakeWaits,
    ?noWake, ?warn, ?alwaysOn, ?switched, fun _ _ _ => rfl, fun t s => exec_pwrGoodLoss_of_fastUp t⟩
  case wakeWaits =>
    intro t s hboot hwaits
    rw [exec_railDischargeDone_of_discharge t hboot]
    exact congrArg _ (if_pos hwaits)
  case noWake =>
    intro t s hboot hnone
    rw [exec_railDischargeDone_of_discharge t hboot]
    exact congrArg _ (if_neg (by simp [hnone]))
  case warn =>
    intro t r p v s hboot hwatched
    exact exec_supplyMonitorExcursion_of_watched t false p v hboot hwatched
  case alwaysOn =>
    intro t r p v s hboot hwatched hr
    exact (exec_supplyMonitorExcursion_of_watched t true p v hboot hwatched).trans (if_pos hr)
  case switched =>
    intro t r p v s hr hboot hwatched hfirst
    exact (exec_supplyMonitorExcursion_of_watched t true p v hboot hwatched).trans
      ((if_neg (Nat.not_lt.2 hr)).trans (if_neg (not_not_intro hfirst)))

end Sys2Proof.Machine
end

section
/-! SUPPORT. CAN FD (R28, R89-R93): the frame of a whole packet, the receive buffer, the frame of events, and
bus-off. -/

namespace Sys2Proof.Machine

/-! ## Reception -/

/-- Bus activity leaves a free value in the error-passive bit, and nothing else (log 24). -/
theorem canErrors_eq (s : State) :
    canErrors s = { s with free := s.free + 1, hst := { s.hst with errPassive := s.fresh.1 % 2 == 1 } } := rfl

theorem canBuffer_canRx (f : CanFrame) (s : State) : (canBuffer f s).hst.canRx =
    if s.hst.canRx.length < 16 then s.hst.canRx ++ [f] else s.hst.canRx := rfl

/-- A frame that the acceptance filter passes reaches an empty receive buffer, and is taken out at once (R28, R89). -/
theorem exec_canFrameReceive_of_empty_buffer (t : Time) (i : Word) {d : List Byte} {s : State}
    (hhears : hearthHears 2 s = true) (hbus : s.hst.busOff = false) (hd : d ≠ [])
    (hident : i = s.hth.can[(1 : Fin 4)] ∨ i = s.hth.can[(3 : Fin 4)]) (hempty : s.hst.canRx = []) :
    exec (.canFrameReceive t i true d) s = .next (canTake ⟨i, true, d⟩ { wakeHearth (canErrors (s.at t)) with
      hst := { (canErrors (s.at t)).hst with canRx := [] } }) := by
  have hhears' : hearthHears 2 (canErrors (s.at t)) = true := hhears
  have hbus' : (canErrors (s.at t)).hst.busOff = false := hbus
  have hpass : ¬((!hearthHears 2 (canErrors (s.at t))) = true ∨ (!true) = true
      ∨ (canErrors (s.at t)).hst.busOff = true ∨ d = []
      ∨ (!(i == s.hth.can[(1 : Fin 4)] || i == s.hth.can[(3 : Fin 4)])) = true) := by
    obtain h | h := hident
    · simp [hhears', hbus', hd, h]
    · simp [hhears', hbus', hd, h]
  refine (if_neg hpass).trans ?_
  have hbuffer : (canBuffer ⟨i, true, d⟩ (wakeHearth (canErrors (s.at t)))).hst.canRx = [⟨i, true, d⟩] := by
    rw [canBuffer_canRx]
    show (if s.hst.canRx.length < 16 then s.hst.canRx ++ _ else _) = _
    rw [hempty]
    rfl
  rw [canDrain, hbuffer]
  rfl

/-- A frame with FIRST and LAST set carries its packet whole (R90). -/
theorem canTake_of_single {f : CanFrame} {b : List Byte} {s : State} (hsafety : f.ident ≠ s.hth.can[1])
    (hdata : f.data = 0xC0 :: b) (hnone : s.hst.reCmd = {}) (hsync : byteAt b 0 = 0xA5) :
    canTake f s = canPacket false b b.length (setReasm false {} s) := by
  have hcmd : (f.ident == s.hth.can[1]) = false := beq_eq_false_iff_ne.2 hsafety
  have hseg : byteAt f.data 0 = 0xC0 := by rw [hdata]; rfl
  have hclosed : (reasm false s).opened = false := by rw [show reasm false s = s.hst.reCmd from rfl, hnone]
  have hbody : f.data.drop 1 = b := by rw [hdata]; rfl
  have hjoin : canJoin false true true 0 b s = canPacket false b b.length (setReasm false {} s) :=
    (if_neg fun h => h.2.2 hsync).trans (if_pos rfl)
  simp [canTake, hcmd, hseg, hclosed, hbody, bit, hjoin]

theorem canPacket_of_padded {b : List Byte} (s : State) (hhead : 6 ≤ b.length) (hlen : 10 + le16 b 4 ≤ b.length) :
    canPacket false b b.length s = packetIn .canCmd (b.take (10 + le16 b 4)) s :=
  if_pos ⟨hhead, hlen, by omega⟩

theorem exec_canReassemblyTimeout_of_late {t : Time} {x : Bool} {s : State} (hopen : (reasm x s).opened = true)
    (hlate : (reasm x s).last + 10 * ms < t) : exec (.canReassemblyTimeout t x) s = .next (abandon x (s.at t)) := by
  have hat : reasm x (s.at t) = reasm x s := by cases x <;> rfl
  show execCanReassemblyTimeout t x s = _
  rw [execCanReassemblyTimeout, hat]
  exact if_pos ⟨hopen, Nat.lt_of_lt_of_le hlate (Nat.le_max_right ..)⟩

/-! ## Sending and bus-off (R93, R481, R543) -/

theorem exec_canFrameSent_of_busOff (t : Time) {s : State} (h : s.hst.busOff = true) :
    exec (.canFrameSent t) s = .next (canErrors (s.at t)) :=
  if_pos h

/-- With nothing queued no frame goes onto the bus. -/
theorem canChoose_of_empty {s : State} (hevents : s.evt.canFrames = []) (hsafety : s.hst.canSafetyTx = [])
    (hreplies : s.hst.canCmdTx = []) : canChoose s = .none := by
  simp [canChoose, hevents, hsafety, hreplies]

/-- The last event frame has been sent, and no reply waits. -/
theorem exec_canFrameSent_of_event (t : Time) {f : List Rec} {s : State} (hbus : s.hst.busOff = false)
    (hwire : s.hst.canWire = .event) (hevents : s.evt.canFrames = [f]) (hsafety : s.hst.canSafetyTx = [])
    (hreplies : s.hst.canCmdTx = []) :
    exec (.canFrameSent t) s = .next { canErrors (s.at t) with
      evt := { s.evt with canFrames := [] },
      hst := { (canErrors (s.at t)).hst with
        rotCan := 0, canWire := .none, canOut := (s.hth.can[(5 : Fin 6)], eventFrame f) :: s.hst.canOut } } := by
  have hup : ¬(canErrors (s.at t)).hst.busOff = true := ne_true_of_eq_false hbus
  have hw : (if (canErrors (s.at t)).hst.canWire = .none then canChoose (canErrors (s.at t))
      else (canErrors (s.at t)).hst.canWire) = .event := by
    rw [canErrors_eq, State_at_hst, hwire, if_neg (by decide)]
  have hframe : canFrameOf .event (canErrors (s.at t)) = [(s.hth.can[(5 : Fin 6)], eventFrame f)] := by
    show (s.evt.canFrames.take 1).map _ = _
    rw [hevents]
    rfl
  show execCanFrameSent t s = _
  simp only [execCanFrameSent, if_neg hup, hw, hframe]
  rw [canChoose_of_empty]
  · simp [canErrors_eq, hevents]
  · simp [canErrors_eq, hevents]
  · exact hsafety
  · exact hreplies

theorem exec_canBusOff_of_on (t : Time) {s : State} (hboot : s.hth.boot ≠ .hold) :
    exec (.canBusOff t) s = .next (raise evHstCanBusoff 0 { canErrors (s.at t) with
      hst := { (canErrors (s.at t)).hst with busOff := true, canWire := .none } }) :=
  if_neg hboot

/-- Settles O16: reception, the buffer, the reassembly's time-out, and sending on and off the bus. -/
theorem canFdFrames : Obligations.CanFdFrames := by
  refine ⟨?single, canBuffer_canRx, fun t x s => exec_canReassemblyTimeout_of_late,
    fun t s h => ⟨_, exec_canFrameSent_of_busOff t h⟩,
    fun t f s hbus hwire hevents hsafety hreplies =>
      ⟨_, exec_canFrameSent_of_event t hbus hwire hevents hsafety hreplies⟩,
    fun t s h => ⟨_, exec_canBusOff_of_on t h⟩, fun t s => ⟨_, rfl⟩⟩
  case single =>
    intro t b s hhears hbus hdiffer hclosed hempty hhead hsync hlen
    refine ⟨(s.at t).fresh.1 % 2 == 1, ?_⟩
    rw [exec_canFrameReceive_of_empty_buffer t _ hhears hbus (by simp) (.inr rfl) hempty,
      canTake_of_single (b := b) (fun h => hdiffer h.symm) rfl (by exact hclosed) hsync,
      canPacket_of_padded _ hhead hlen]
    rfl

end Sys2Proof.Machine
end

section
/-! SUPPORT. The rows that a wipe sets going (R49 step 9, R57, R493): a commit, a Sheaf load, a swap of banks and the
start-up record leave the records of the Hearth, the host interfaces and the Granary as they are. -/

namespace Sys2Proof.Machine

/-! ## The compositor, the colour banks and the Sheafs -/

@[simp] theorem setCmp_base (f : Cmp → Cmp) (s : State) : (setCmp f s).base = s.base := rfl
@[simp] theorem setThr_base (f : Thr → Thr) (s : State) : (setThr f s).base = s.base := rfl
@[simp] theorem setLoop_base (n : Fin 64) (f : Loop → Loop) (s : State) : (setLoop n f s).base = s.base := rfl

@[simp] theorem sheafValidated_base (d : Word) (flagged : Bool) (e : Fin 4) (s : State) :
    (sheafValidated d flagged e s).base = s.base := by
  rw [sheafValidated]
  split
  · exact setThrE_base ..
  · rfl

@[simp] theorem commitArm_base (f : Flags) (n : Nat) (b : Bool) (s : State) : (commitArm f n b s).base = s.base := by
  unfold commitArm
  extract_lets apply s0 s1 snap
  have hs0 : s0.base = s.base := forEng_proj State.base _ (fun e a => by split <;> rfl) s
  have hs1 : s1.base = s0.base := forEng_proj State.base _ (fun e a => sheafValidated_base ..) s0
  exact (setCmp_base ..).trans (hs1.trans hs0)

@[simp] theorem commitLocal_base (rq : Req) (s : State) : (commitLocal rq s).1.base = s.base := by
  unfold commitLocal
  extract_lets f
  split
  · rfl
  · split
    · rfl
    · split
      · rfl
      · exact commitArm_base ..

@[simp] theorem startRecompile_base (e : Fin 4) (m n r : Nat) (s : State) :
    (startRecompile e m n r s).base = s.base := by
  unfold startRecompile
  extract_lets old
  clear_value old
  split
  · rfl
  · exact setThrE_base ..

@[simp] theorem rateEvents_base (x : Nat × Bool × Bool × Bool) (s : State) : (rateEvents x s).base = s.base := by
  simp only [rateEvents, setThr_base, raiseIf_base]

@[simp] theorem reassess_base (f : Nat) (s : State) : (reassess f s).base = s.base := by
  unfold reassess
  extract_lets x b
  clear_value b x
  exact (forEng_proj State.base _ (fun e a => startRecompile_base ..) _).trans (rateEvents_base ..)

@[simp] theorem rateAccept_base (p n r : Nat) (a : Option Nat) (s : State) : (rateAccept p n r a s).base = s.base := by
  unfold rateAccept
  extract_lets b s1 soon
  split
  · exact reassess_base ..
  · rfl

/-! ## The barrier of a forwarded commit (R446, R448) -/

@[simp] theorem sendMsg_base (m : BrgMsg) (s : State) : (sendMsg m s).base = s.base := rfl

@[simp] theorem barrierDecide_base (s : State) : (barrierDecide s).base = s.base := by
  rw [barrierDecide]
  split
  · rfl
  · split
    · rfl
    · split
      · split
        · exact rateAccept_base ..
        · rfl
      · rw [barrierCancels]
        split <;> rfl

@[simp] theorem barrierStart_base (rq : Req) (n : Nat) (r : Option (Nat × Nat × Nat)) (s : State) :
    (barrierStart rq n r s).base = s.base := by
  unfold barrierStart
  extract_lets named no a x s1
  have hs1 : s1.base = s.base := foldl_proj State.base _ (fun _ _ => sendMsg_base ..) _ _
  split
  · exact (barrierDecide_base s1).trans hs1
  · exact hs1

@[simp] theorem commitForwarded_base (rq : Req) (s : State) : (commitForwarded rq s).1.base = s.base := by
  unfold commitForwarded
  extract_lets f t
  have harmed : ∀ n, (if namesSelf t then commitArm f n true s
      else setCmp (fun c => { c with phase := .barrier }) s).base = s.base := by
    intro n
    split
    · exact commitArm_base ..
    · rfl
  split
  · rfl
  · split
    · rfl
    · split
      · rfl
      · exact (barrierStart_base ..).trans (harmed _)

@[simp] theorem commitRun_base (rq : Req) (s : State) : (commitRun rq s).1.base = s.base := by
  rw [commitRun]
  split
  · rfl
  · split
    · exact commitForwarded_base ..
    · split
      · rfl
      · exact commitLocal_base ..

@[simp] theorem sheafLoadRun_base (rq : Req) (s : State) : (sheafLoadRun rq s).1.base = s.base := by
  unfold sheafLoadRun
  extract_lets e r t sh
  split
  · rfl
  · split
    · rfl
    · exact setThrE_base ..

@[simp] theorem loopSwapRun_base (rq : Req) (s : State) : (loopSwapRun rq s).1.base = s.base := by
  unfold loopSwapRun
  extract_lets n l
  split
  · rfl
  · split
    · rfl
    · split
      · exact setLoop_base ..
      · exact setLoop_base ..

end Sys2Proof.Machine
end

section
/-! SUPPORT. The fast domains start (R49 steps 5 to 9, R51, R57): once they are on, nothing that reaching READY or
STANDBY sets going switches them off or writes to the HBM. -/

namespace Sys2Proof.Machine

/-! ## What the wipe leaves -/

/-- How far the fast domains have come up, and the bytes of the HBM. -/
def State.wiped (s : State) : Boot × List Host.Cell := (s.hth.boot, s.grn.hbm)

theorem wiped_of_base {s x : State} (h : x.base = s.base) : x.wiped = s.wiped := by
  rw [State.wiped, hth_of_base h, grn_of_base h]
  rfl

theorem setHth_wiped {f : Hth → Hth} (s : State) (h : ∀ x, (f x).boot = x.boot) : (setHth f s).wiped = s.wiped :=
  congrArg (·, s.grn.hbm) (h s.hth)

theorem setGrn_wiped {f : Grn → Grn} (s : State) (h : ∀ x, (f x).hbm = x.hbm) : (setGrn f s).wiped = s.wiped :=
  congrArg (s.hth.boot, ·) (h s.grn)

theorem setHst_wiped (f : Hst → Hst) (s : State) : (setHst f s).wiped = s.wiped := rfl

theorem setIng_wiped (i : Ing) (s : State) : State.wiped { s with ing := i } = s.wiped := rfl

theorem boot_of_wiped {m : List Host.Cell} {s : State} (h : s.wiped = (.on, m)) : s.hth.boot = .on := congrArg (·.1) h

/-! ## The start-up record applies (R57) -/

theorem judgeReduced_base (fresh : Bool) (e : Fin 4) (old new : Sheaf) (s : State) :
    (judgeReduced fresh e old new s).base = s.base := by
  unfold judgeReduced
  split
  · exact raiseIf_base ..
  · rfl

theorem startupSheaf_base (r : Startup) (e : Fin 4) (s : State) : (startupSheaf r e s).base = s.base := by
  unfold startupSheaf
  split
  · rfl
  · split
    · exact (judgeReduced_base ..).trans (setThrE_base ..)
    · rfl

theorem warpFallback_base (e : Fin 4) (s : State) : (warpFallback e s).base = s.base := by
  unfold warpFallback
  extract_lets dir bad new
  exact foldl_proj State.base _ (fun _ _ => raise_base ..) _ _

theorem initBudget_wiped (s : State) : (initBudget s).wiped = s.wiped := by
  unfold initBudget
  extract_lets f x y b
  clear_value b
  rfl

theorem startupApply_wiped (s : State) : (startupApply s).wiped = s.wiped := by
  unfold startupApply
  extract_lets s1 s2 s3 s4
  have hs1 : s1.wiped = s.wiped := by
    dsimp only [s1]
    split
    · rfl
    · exact wiped_of_base (raiseIf_base ..)
  have hs2 : s2.wiped = s.wiped := (initBudget_wiped s1).trans hs1
  clear_value s2
  have hs3 : s3.wiped = s2.wiped := by
    dsimp only [s3]
    split
    · exact wiped_of_base (forEng_proj State.base _ (fun e a => startupSheaf_base ..) _)
    · rfl
  clear_value s3
  have hs4 : s4.wiped = s3.wiped := by
    dsimp only [s4]
    split
    · refine forEng_proj State.wiped _ (fun e a => ?_) _
      split <;> rfl
    · rfl
  clear_value s4
  calc (forEng warpFallback s4).wiped = s4.wiped :=
        wiped_of_base (forEng_proj State.base _ (fun e a => warpFallback_base ..) _)
    _ = s.wiped := hs4.trans (hs3.trans hs2)

/-! ## READY and STANDBY are reached -/

theorem cmdDone_wiped (k : PendKey) (st : Status) (s : State) : (cmdDone k st s).wiped = s.wiped := by
  rw [cmdDone]
  split
  · rfl
  · dsimp only
    split <;> rfl

theorem journalAbandon_wiped (s : State) : (journalAbandon s).wiped = s.wiped := by
  rw [journalAbandon]
  split
  · rfl
  · rw [saveDone]
    split
    · exact cmdDone_wiped ..
    · rfl

theorem readyReached_wiped (leaving : PState) (s : State) : (readyReached leaving s).wiped = s.wiped := by
  unfold readyReached
  split
  · exact wiped_of_base ((judgeHolder_base _).trans (forEng_proj State.base _ engineDark_base s))
  · extract_lets s1
    have hs1 : s1.wiped = s.wiped := setHth_wiped _ (by intro _; rfl)
    refine (wiped_of_base ((portsFollow_base _).trans (mirrorEnable_base _))).trans ?_
    split
    · exact (wiped_of_base ((servoStart_base _).trans (enginesStart_base ..))).trans hs1
    · exact hs1

/-- The engines go dark and stop, and with them the Servo. -/
theorem enginesStop_base (s : State) :
    (servoStop (forEng (fun e a => linkOff e (scanOff e a)) (allDark s))).base = s.base := by
  rw [servoStop_base, forEng_proj State.base _ fun e a => (linkOff_base ..).trans (scanOff_base ..), allDark_base]

theorem standbyReached_wiped (s : State) : (standbyReached s).wiped = s.wiped := by
  rw [standbyReached]
  refine (wiped_of_base ((judgeHolder_base _).trans (portsFollow_base _))).trans ?_
  refine (setHth_wiped _ (by intro _; rfl)).trans ?_
  rw [setIng_wiped, wiped_of_base (sliceAbandon_base _), journalAbandon_wiped, pcieDown, setHst_wiped,
    wiped_of_base (allPlls_pllOff_base _)]
  refine (setGrn_wiped _ (by intro _; rfl)).trans ?_
  rw [wiped_of_base (enginesStop_base _), wiped_of_base (abortCommit_base s)]

theorem stateReached_wiped {p : PState} (leaving : PState) (s : State) (hp : p = .ready ∨ p = .standby) :
    (stateReached leaving p s).wiped = s.wiped := by
  obtain rfl | rfl := hp
  · exact readyReached_wiped leaving s
  · exact standbyReached_wiped s

/-! ## The deferred commands run (R493) -/

theorem trainSettle_wiped (s : State) : (trainSettle s).wiped = s.wiped := by
  rw [trainSettle]
  split
  · exact (cmdDone_wiped ..).trans (setGrn_wiped _ (by intro _; rfl))
  · rfl

theorem memTrainRun_wiped (rq : Req) (s : State) : (memTrainRun rq s).1.wiped = s.wiped := by
  unfold memTrainRun
  extract_lets named
  split
  · rfl
  · have hretrain : ∀ (a : State) (c : Fin 64), (retrain c a).wiped = a.wiped := fun _ _ => rfl
    exact (setGrn_wiped _ (by intro _; rfl)).trans (foldl_proj State.wiped _ hretrain _ _)

theorem runDeferred_wiped (lit : Bool) (s : State) : (runDeferred lit s).wiped = s.wiped := by
  unfold runDeferred
  extract_lets one
  have hone : ∀ (x : State) (rq : Req), (one x rq).wiped = x.wiped := by
    intro x rq
    dsimp only [one]
    split
    · exact cmdDone_wiped ..
    · have hrun : ∀ a : Ans, a.1.wiped = x.wiped →
          (if a.2.1 = .pending then a.1 else cmdDone (reqKey rq) a.2.1 a.1).wiped = x.wiped := by
        intro a ha
        split
        · exact ha
        · exact (cmdDone_wiped ..).trans ha
      refine hrun _ ?_
      split
      · exact wiped_of_base (commitRun_base ..)
      · exact wiped_of_base (sheafLoadRun_base ..)
      · exact wiped_of_base (loopSwapRun_base ..)
      · exact memTrainRun_wiped ..
  exact (trainSettle_wiped _).trans ((foldl_proj State.wiped one hone _ _).trans (setHst_wiped ..))

/-! ## The transition goes on or ends -/

theorem linkTimer_wiped (leaving target : PState) (s : State) : (linkTimer leaving target s).wiped = s.wiped := by
  rw [linkTimer]
  split
  · rfl
  · split <;> rfl

section
variable {m : List Host.Cell} {s : State} (h : s.wiped = (.on, m))
include h

/-- With the fast domains on a step does not power them up again. -/
theorem stepBegins_wiped (leaving stepTo : PState) : (stepBegins leaving stepTo s).wiped = (.on, m) := by
  obtain ⟨hboot, -⟩ | ⟨b, hbase⟩ := stepBegins_cases leaving stepTo s
  · exact absurd (boot_of_wiped h) hboot
  · exact (Prod.ext (congrArg (·.1.boot) hbase) (congrArg (·.2.2.hbm) hbase) : _ = s.wiped).trans h

theorem goOn_wiped (t : Trans) (p : PState) : (goOn t p s).wiped = (.on, m) := by
  refine stepBegins_wiped ((linkTimer_wiped ..).trans ?_) ..
  exact (setHth_wiped _ (by intro _; rfl)).trans h

theorem startTrans_wiped (p : PState) (c : Nat) (k : Option PendKey) : (startTrans p c k s).wiped = (.on, m) :=
  goOn_wiped h ..

theorem riseActs_wiped (ev : HeldEv) : (riseActs ev s).wiped = (.on, m) := by
  unfold riseActs
  extract_lets ign s1 target
  have hs1 : s1.wiped = (.on, m) := by
    dsimp only [s1]
    split <;> exact h
  clear_value s1
  split
  · exact hs1
  · split
    · exact hs1
    · split
      · exact hs1
      · refine startTrans_wiped ?_ ..
        show State.wiped (if _ then _ else _) = _
        split <;> exact hs1

theorem ignOffActs_wiped : (ignOffActs s).wiped = (.on, m) := by
  rw [ignOffActs]
  split
  · exact h
  · split
    · exact h
    · split
      · exact h
      · split
        · exact h
        · exact startTrans_wiped h ..

theorem recover_wiped : (recover s).wiped = (.on, m) := by
  unfold recover
  extract_lets cool
  have hcool : (cool s).wiped = (.on, m) :=
    (wiped_of_base ((forEng_proj State.base _ (fun e a => releaseCause_base ..) _).trans (setThm_base ..))).trans h
  clear_value cool
  split
  · refine (allPlls_proj State.wiped _ (fun p a => ?_) _).trans ((setGrn_wiped _ (by intro _; rfl)).trans hcool)
    split
    · exact wiped_of_base (pllOn_base ..)
    · rfl
  · split
    · split
      · exact h
      · exact startTrans_wiped hcool ..
    · split <;> exact h

theorem heldActs_wiped (ev : HeldEv) : (heldActs ev s).wiped = (.on, m) := by
  cases ev with
  | ignRise => exact riseActs_wiped h _
  | wakeRise => exact riseActs_wiped h _
  | ignOff => exact ignOffActs_wiped h
  | quenchRecovered => exact recover_wiped h

theorem transEnds_wiped (t : Trans) (p : PState) (st : Status) : (transEnds t p st s).wiped = (.on, m) := by
  unfold transEnds
  extract_lets held s1 s2
  have hs1 : s1.wiped = (.on, m) := h
  clear_value s1
  have hs2 : s2.wiped = (.on, m) := by
    dsimp only [s2]
    split
    · exact (cmdDone_wiped ..).trans hs1
    · exact hs1
  clear_value s2 held
  split
  · exact heldActs_wiped hs2 _
  · exact hs2

/-- Reaching READY or STANDBY, and all that follows, leaves the fast domains on and the HBM as it is. -/
theorem stepDone_wiped {t : Trans} (ht : t.stepTo = .ready ∨ t.stepTo = .standby) :
    (stepDone t s).wiped = (.on, m) := by
  unfold stepDone
  extract_lets p quench last s0 s1 lit refused s2
  have hs0 : s0.wiped = (.on, m) := by
    dsimp only [s0]
    split <;> exact h
  clear_value s0
  have hpass : (passState p s0).wiped = (.on, m) := (setHth_wiped _ (by intro _; rfl)).trans hs0
  have hs1 : s1.wiped = (.on, m) := (stateReached_wiped _ _ ht).trans hpass
  clear_value s1
  have hs2 : s2.wiped = (.on, m) := by
    dsimp only [s2]
    split
    · exact (runDeferred_wiped ..).trans hs1
    · exact hs1
  clear_value s2 refused
  split
  · exact hs2
  · split
    · exact transEnds_wiped hs2 ..
    · split
      · exact transEnds_wiped hs2 ..
      · exact goOn_wiped hs2 ..

end

end Sys2Proof.Machine
end

section
/-! SUPPORT. Main firmware, HBM training, the wipe and the activation of a pending image (R49 steps 5 to 9, R51, R397,
R476). -/

namespace Sys2Proof.Machine

/-! ## Main firmware (R51, R474, R476) -/

theorem exec_firmwareVerifyComplete_of_verified (t : Time) {v : Verify} {s : State} (hboot : s.hth.boot = .loading)
    (hfirst : s.hth.fwDone = false) (hverified : bootVerifies s true v = true) :
    exec (.firmwareVerifyComplete t v) s = .next (stepSix (measure (bootSlot s.flash true)
      (firmwareRuns s.flash.mainPending v.version v.svn (s.at t)))) :=
  (if_neg (by simp [hboot, hfirst])).trans (if_pos hverified)

/-- The active image does not verify, and no pending one is there to fall back from. -/
theorem exec_firmwareVerifyComplete_of_none (t : Time) {v : Verify} {s : State} (hboot : s.hth.boot = .loading)
    (hfirst : s.hth.fwDone = false) (hrefused : bootVerifies s true v = false)
    (hpending : s.flash.mainPending = false) :
    exec (.firmwareVerifyComplete t v) s = .next (firmwareMissing (s.at t)) := by
  refine (if_neg (by simp [hboot, hfirst])).trans ((if_neg (ne_true_of_eq_false hrefused)).trans ?_)
  simp only [State_at_flash, hpending, Bool.false_eq_true, if_false]

theorem measure_base (i : Option Image) (s : State) : (measure i s).base = s.base := by
  unfold measure
  split
  · rfl
  · rfl

/-- Without main firmware the device enters SAFE with cause 0x23 (R51). -/
theorem firmwareMissing_hth {s : State} (hoff : s.hth.pwr ≠ .off) (hsafe : s.hth.pwr ≠ .safe) :
    (firmwareMissing s).hth.pwr = .safe ∧ (firmwareMissing s).hth.cause = 0x23 := by
  unfold firmwareMissing
  extract_lets s1
  have hs1 : s1.hth.pwr = s.hth.pwr := by
    dsimp only [s1]
    rw [hth_of_base (measure_base ..)]
    rfl
  clear_value s1
  have hstop : (forEng (fun e a => linkOff e (scanOff e a)) (allPlls pllOff s1)).hth.pwr = s.hth.pwr := by
    rw [← hs1, hth_of_base ((forEng_proj State.base _ (fun e a => (linkOff_base ..).trans (scanOff_base ..)) _).trans
      (allPlls_pllOff_base s1))]
  exact enterSafe_hth 0x23 (hstop ▸ hoff) (hstop ▸ hsafe)

theorem exec_mainFirmwareWatchdog_of_running (t : Time) {s : State} (hruns : s.hth.fwRuns = true)
    (htrial : s.sec.mainTrial = false) :
    exec (.mainFirmwareWatchdog t) s
      = .next (enterSafe 0x24 { s.at t with hth := { s.hth with fwRuns := false } }) := by
  refine (if_neg (by simp [hruns])).trans ?_
  simp only [State_at_sec, htrial, Bool.false_eq_true, if_false]
  rfl

/-! ## HBM (R49, R53) -/

theorem exec_hbmTrainingComplete_of_all_trained (t : Time) (q : List (Nat × Int)) {s : State}
    (hboot : s.hth.boot = .loading) (hfirst : s.hth.trainDone = false) :
    exec (.hbmTrainingComplete t [] q) s = .next (forceTaps 2 q
      { s.at t with hth := { s.hth with trainDone := true }, grn := { s.grn with sound := true } }) :=
  if_neg (by simp [hboot, hfirst])

/-- The wipe leaves zeros, and the fast domains are on, whatever state is reached with it. -/
theorem exec_chaffWipeComplete_of_loaded (t : Time) {s : State} (hboot : s.hth.boot = .loading)
    (hfw : s.hth.fwDone = true) (htrain : s.hth.trainDone = true) :
    ∃ x, exec (.chaffWipeComplete t) s = .next x ∧ x.wiped = (.on, []) := by
  have hguard : ¬((s.at t).hth.boot ≠ .loading ∨ (!(s.at t).hth.fwDone) = true
      ∨ (!(s.at t).hth.trainDone) = true) := by
    simp [hboot, hfw, htrain]
  show ∃ x, execChaffWipeComplete t s = .next x ∧ _
  unfold execChaffWipeComplete
  extract_lets r s1 s2
  rw [if_neg hguard]
  have hs2 : s2.wiped = (.on, []) := startupApply_wiped s1
  clear_value s2
  split
  · split
    · next ht => exact ⟨_, rfl, stepDone_wiped hs2 ht⟩
    · exact ⟨_, rfl, hs2⟩
  · exact ⟨_, rfl, hs2⟩

/-! ## Activation (R397, R476) -/

/-- A pending image has run 10 s without a watchdog expiry. -/
theorem exec_firmwareActivation_of_ran {t a : Time} {s : State} (hsince : s.hth.runSince = some a)
    (hran : a + 10 * sec ≤ t) (htrial : s.sec.mainTrial = true) :
    exec (.firmwareActivation t) s = .next
      (if (writeRefused (s.at t)).isSome then svnLater (activate (s.at t)) else svnRaise (activate (s.at t))) := by
  have hten : a + 10 * sec ≤ (s.at t).now := Nat.le_trans hran (Nat.le_max_right ..)
  show execFirmwareActivation t s = _
  simp only [execFirmwareActivation, State_at_hth, State_at_sec, hsince, htrial, hten, decide_true, Bool.or_true,
    Bool.and_true, if_true]
  rfl

/-- The image on trial becomes the active one, and its SVN the least that starts. -/
theorem svnRaise_activate_of_mainTrial {s : State} (hmain : s.sec.mainTrial = true) (hpatch : s.sec.patchTrial = false)
    (hsvn : s.sec.svnPatch = false) :
    svnRaise (activate s) = { s with
      flash := { s.flash with mainActive := other s.flash.mainActive, mainPending := false },
      sec := { s.sec with mainTrial := false, svnMain := false, svnRetry := none },
      otp := { s.otp with svnMinMain := max s.otp.svnMinMain s.hth.mainSvn } } := by
  simp [svnRaise, activate, setSec, hmain, hpatch, hsvn]

theorem exec_svnMinWriteRetry_of_due {t d : Time} (ok : Bool) {s : State} (hdue : s.sec.svnRetry = some d)
    (hd : d ≤ t) :
    exec (.svnMinWriteRetry t ok) s = .next
      (if (writeRefused (s.at t)).isSome || !ok then svnLater (s.at t) else svnRaise (s.at t)) := by
  have hlate : ¬(s.at t).now < d := Nat.not_lt.2 (Nat.le_trans hd (Nat.le_max_right ..))
  show execSvnMinWriteRetry t ok s = _
  rw [execSvnMinWriteRetry, State_at_sec, hdue]
  dsimp only
  rw [if_neg hlate, apply_ite Host.Outcome.next]

/-- Settles O11: the firmware, the training and the wipe, then the activation of an image. -/
theorem fastDomainsStart : Obligations.FastDomainsStart := by
  refine ⟨fun t v s => exec_firmwareVerifyComplete_of_verified t, ?missing, ?trained, ?wiped,
    fun t s => exec_mainFirmwareWatchdog_of_running t, ?activated, ?refused, ?retried, ?failed⟩
  case missing =>
    intro t v s hboot hfirst hrefused hpending hoff hsafe
    obtain ⟨hpwr, hcause⟩ := firmwareMissing_hth (s := s.at t) hoff hsafe
    exact ⟨_, exec_firmwareVerifyComplete_of_none t hboot hfirst hrefused hpending, hcause, hpwr⟩
  case trained =>
    intro t s q hboot hfirst
    exact ⟨_, exec_hbmTrainingComplete_of_all_trained t q hboot hfirst, rfl, rfl, hboot⟩
  case wiped =>
    intro t s hboot hfw htrain
    obtain ⟨x, hx, hwiped⟩ := exec_chaffWipeComplete_of_loaded t hboot hfw htrain
    exact ⟨x, hx, congrArg (·.2) hwiped, congrArg (·.1) hwiped⟩
  case activated =>
    intro t a s hsince hran hmain hpatch hsvn haccepted
    rw [exec_firmwareActivation_of_ran hsince hran hmain, haccepted,
      svnRaise_activate_of_mainTrial (s := s.at t) hmain hpatch hsvn]
    rfl
  case refused =>
    intro t a s st hsince hran hmain hrefused
    rw [exec_firmwareActivation_of_ran hsince hran hmain, hrefused]
    rfl
  case retried =>
    intro t d s hdue hd haccepted
    rw [exec_svnMinWriteRetry_of_due true hdue hd, haccepted]
    rfl
  case failed =>
    intro t d s hdue hd
    rw [exec_svnMinWriteRetry_of_due false hdue hd, Bool.not_false, Bool.or_true]
    rfl

end Sys2Proof.Machine
end

section
/-! SUPPORT. Reference edges, coasting and TIMING_PROFILE (R334, R335, R337, R338, R345, R515). -/

namespace Sys2Proof.Machine

/-! ## Reference edges and their loss -/

/-- An edge reaches its aligner: the fast domains are up, and the frame aligner also needs FRAME_REF_IN selected and the
cold start ended (R50). -/
theorem exec_referenceEdge_of_heard (t : Time) {a : Aligner} {s : State} (hup : s.fastUp = true)
    (hframe : a = .frame → wfl s.tng.config 30 2 = 1 ∧ coldStarts s = false) :
    exec (.referenceEdge t a) s = .next (refEdge a (s.at t)) := by
  have hup' : (s.at t).fastUp = true := hup
  refine if_neg ?_
  rintro (hdown | ⟨ha, hsel | hcold⟩)
  · simp [hup'] at hdown
  · exact hsel (hframe ha).1
  · exact ne_true_of_eq_false (hframe ha).2 hcold

theorem exec_referenceEdge_of_unheard (t : Time) {a : Aligner} {s : State}
    (h : s.fastUp = false ∨ (a = .frame ∧ (wfl s.tng.config 30 2 ≠ 1 ∨ coldStarts s = true))) :
    exec (.referenceEdge t a) s = .next (s.at t) :=
  if_pos (h.imp_left fun hdown => by
    have hdown' : (s.at t).fastUp = false := hdown
    simp [hdown'])

/-- A locked aligner ignores an edge outside a sixteenth of the period (R334). -/
theorem refEdge_of_locked_unfit {a : Aligner} {p : Time} {s : State} (hlocked : (aligner a s).st = .locked)
    (hedge : (aligner a s).edge = some p) (hunfit : edgeFits (refPeriod a s) (s.now - p) 16 = false) :
    refEdge a s = edgeSpurious a s := by
  simp only [refEdge, hlocked, hedge, hunfit, Bool.not_false, if_true, true_or]

theorem exec_referenceLoss_of_frame_due {t p : Time} {s : State} (hup : s.fastUp = true)
    (hlocked : s.tng.frm.st = .locked) (hedge : s.tng.frm.edge = some p)
    (hlate : 3 * refPeriod .frame (s.at t) ≤ 2 * (max s.now t - p)) :
    exec (.referenceLoss t .frame) s = .next (loseRef .frame (s.at t)) := by
  have hup' : (s.at t).fastUp = true := hup
  have halign : aligner .frame (s.at t) = s.tng.frm := rfl
  show execReferenceLoss t .frame s = _
  simp [execReferenceLoss, halign, hup', hedge, hasRef, hlocked, hlate]

theorem exec_referenceLoss_of_untracked (t : Time) {a : Aligner} {s : State} (h : hasRef (aligner a (s.at t)) = false) :
    exec (.referenceLoss t a) s = .next (s.at t) :=
  if_neg (by simp [h])

theorem exec_holdoverLongExpiry_of_due {t d : Time} {s : State} (hlost : s.tng.frm.lostAt = some d)
    (hcoasting : s.tng.frm.st = .coasting) (hd : d + sec ≤ t) (hfirst : s.tng.frm.long = false) :
    exec (.holdoverLongExpiry t .frame) s = .next (raise evTngHoldoverLong (alNo .frame) { s.at t with
      tng := { s.tng with frm := { s.tng.frm with long := true } } }) := by
  have halign : aligner .frame (s.at t) = s.tng.frm := rfl
  show execHoldoverLongExpiry t .frame s = _
  rw [execHoldoverLongExpiry, halign, hlost]
  exact if_pos ⟨hcoasting, Nat.le_trans hd (Nat.le_max_right ..), by simp [hfirst]⟩

/-! ## TIMING_PROFILE (R345, R515) -/

/-- A request that is granted and admitted for this device is answered by its body. -/
theorem exec_timingProfile_of_serves (t : Time) {rq : Req} {s x : State} {st : Status} {b : List Byte}
    (h : serves 0x38 rq (s.at t) = true) (hbody : timingProfileBody rq (takeReq rq (s.at t)) = (x, st, b)) :
    exec (.timingProfile t rq) s = .next (finishReply rq st b x) := by
  show execTimingProfile t rq s = _
  rw [execTimingProfile, serve_of_serves _ h, hbody]

/-- RATE on a device that is not a manager, for itself. -/
theorem rateBody_of_accepted {rq : Req} {s : State} (hlocal : rqForward rq = false) (hrole : s.hth.role ≠ 1)
    (hfields : rateFieldsOk rq.payload = true) (haccepted : rateRefused s false (le32 rq.payload 4) = none) :
    rateBody rq s = (rateAccept (byteAt rq.payload 1) (le16 rq.payload 2) (le32 rq.payload 4) none s, .ok, []) := by
  simp [rateBody, profileRate, hlocal, hrole, hfields, haccepted]

/-- A ramp that cannot begin at the next frame start is only set (R344). -/
theorem rateAccept_of_late {p n r : Nat} {s : State} (h : s.tng.frameAt + s.tng.framePeriod < s.now + 200 * us) :
    rateAccept p n r none s = { s with tng := { s.tng with bellows := some {
      f1 := s.tng.rate, f2 := r, profile := p, n := n, j := 0, accepted := s.now, applyAt := none } } } :=
  if_neg (by simpa using h)

/-- ENGINE with KIND 0 takes an engine out of use. -/
theorem profileEngine_of_unused {p : List Byte} {e : Fin 4} {s : State} (hengine : byteAt p 1 = e.val)
    (hkind : byteAt p 2 = 0) (hzero : zeroAt p 3 1 = true) (haccepted : engineRefused s e {} = none) :
    profileEngine p s = (engineSet e {} s, .ok, []) := by
  have he : Fin.ofNat 4 (byteAt p 1) = e := by
    rw [hengine]
    exact Fin.ofNat_val_eq_self e
  have hlt : ¬4 ≤ byteAt p 1 := by omega
  simp only [profileEngine, he, hkind, hlt, hzero, haccepted]
  rfl

theorem timingProfileBody_of_unknown {rq : Req} (s : State) (h : 3 ≤ byteAt rq.payload 0) :
    timingProfileBody rq s = (s, .badParam, []) := by
  unfold timingProfileBody
  split
  · omega
  · omega
  · omega
  · rfl

/-- Settles O32: the aligner's edges and losses, then the operations of TIMING_PROFILE. -/
theorem referencesAndTimingProfiles : Obligations.ReferencesAndTimingProfiles := by
  refine ⟨fun t a s => exec_referenceEdge_of_heard t, fun t a s => exec_referenceEdge_of_unheard t,
    fun a p s => refEdge_of_locked_unfit, fun t p s => exec_referenceLoss_of_frame_due,
    fun t a s => exec_referenceLoss_of_untracked t, fun t d s => exec_holdoverLongExpiry_of_due, ?rate,
    fun p n r s => rateAccept_of_late, ?engine, ?unknown⟩
  case rate =>
    intro t rq s hs hop hfields hrole haccepted
    obtain ⟨-, -, -, -, -, hlocal⟩ := (serves_iff ..).1 hs
    refine exec_timingProfile_of_serves t hs ?_
    rw [timingProfileBody, hop]
    exact rateBody_of_accepted hlocal hrole hfields haccepted
  case engine =>
    intro t rq e s hs hop hengine hkind hzero haccepted
    refine exec_timingProfile_of_serves t hs ?_
    rw [timingProfileBody, hop]
    exact profileEngine_of_unused hengine hkind hzero haccepted
  case unknown =>
    intro t rq s hs hop
    exact exec_timingProfile_of_serves t hs (timingProfileBody_of_unknown _ hop)

end Sys2Proof.Machine
end

section
/-! SUPPORT. The queue of commands and model time (spec/95_what_each_step_holds.md): every command keeps them
(log 1, log 2). -/

namespace Sys2Proof.Machine

/-- Whatever command runs keeps what its meaning keeps: the queue behind it, the direction of time, OTP and the
canonical form of the memory. -/
theorem exec_keeps {r s : State} (h : Keeps r s) : ∀ c : Instr, KeepsO r (exec c s)
  | .powerOn .. => execPowerOn_keeps h | .reset .. => execReset_keeps h | .delayedReset .. => execDelayedReset_keeps h
  | .ignRise .. => execIgnRise_keeps h | .ignFall .. => execIgnFall_keeps h
  | .ignOffDelayExpiry .. => execIgnOffDelayExpiry_keeps h | .wakeRise .. => execWakeRise_keeps h
  | .estopAssert .. => execEstopAssert_keeps h | .xtalStartTimeout .. => execXtalStartTimeout_keeps h
  | .xtalReturn .. => execXtalReturn_keeps h | .rcTrim .. => execRcTrim_keeps h
  | .rcIdleStop .. => execRcIdleStop_keeps h | .transitionComplete .. => execTransitionComplete_keeps h
  | .quenchRecovery .. => execQuenchRecovery_keeps h | .pcieLinkUp .. => execPcieLinkUp_keeps h
  | .pwrGoodCheck .. => execPwrGoodCheck_keeps h | .pwrSequenceRetry .. => execPwrSequenceRetry_keeps h
  | .pwrGoodLoss .. => execPwrGoodLoss_keeps h | .railDischargeDone .. => execRailDischargeDone_keeps h
  | .hbmTrainingComplete .. => execHbmTrainingComplete_keeps h
  | .chaffWipeComplete t => @execChaffWipeComplete_keeps r s t h
  | .firmwareVerifyComplete .. => execFirmwareVerifyComplete_keeps h
  | .mainFirmwareWatchdog .. => execMainFirmwareWatchdog_keeps h
  | .firmwareActivation .. => execFirmwareActivation_keeps h | .spiWritePacket .. => execSpiWritePacket_keeps h
  | .spiReadReply .. => execSpiReadReply_keeps h | .spiReadStatus .. => execSpiReadStatus_keeps h
  | .mbxDoorbell .. => execMbxDoorbell_keeps h | .mbxStatusClear .. => execMbxStatusClear_keeps h
  | .canFrameReceive .. => execCanFrameReceive_keeps h | .canReassemblyTimeout .. => execCanReassemblyTimeout_keeps h
  | .canFrameSent .. => execCanFrameSent_keeps h | .canBusOff .. => execCanBusOff_keeps h
  | .canBusOffRecovery .. => execCanBusOffRecovery_keeps h | .replyCacheExpiry .. => execReplyCacheExpiry_keeps h
  | .forwardTimeout .. => execForwardTimeout_keeps h | .nop .. => execNop_keeps h
  | .identify .. => execIdentify_keeps h | .status .. => execStatus_keeps h
  | .stateRequest .. => execStateRequest_keeps h | .eventRead .. => execEventRead_keeps h
  | .eventClear .. => execEventClear_keeps h | .eventRoute .. => execEventRoute_keeps h
  | .paramRead .. => execParamRead_keeps h | .paramWrite .. => execParamWrite_keeps h
  | .layerDefine .. => execLayerDefine_keeps h | .layerShadow .. => execLayerShadow_keeps h
  | .commit .. => execCommit_keeps h | .commitStatus .. => execCommitStatus_keeps h
  | .anvilClaim .. => execAnvilClaim_keeps h | .anvilRequest .. => execAnvilRequest_keeps h
  | .anvilVerifyRead .. => execAnvilVerifyRead_keeps h | .sheafLoad .. => execSheafLoad_keeps h
  | .warpLoad .. => execWarpLoad_keeps h | .gamutLoad .. => execGamutLoad_keeps h
  | .lightLevel .. => execLightLevel_keeps h | .lampFunctionSet .. => execLampFunctionSet_keeps h
  | .loopConfigure .. => execLoopConfigure_keeps h | .loopBankWrite .. => execLoopBankWrite_keeps h
  | .loopBankSwap .. => execLoopBankSwap_keeps h | .loopMode .. => execLoopMode_keeps h
  | .traceArm .. => execTraceArm_keeps h | .traceRead .. => execTraceRead_keeps h
  | .timingProfile .. => execTimingProfile_keeps h | .memTrain .. => execMemTrain_keeps h
  | .memStatus .. => execMemStatus_keeps h | .thermalPolicy .. => execThermalPolicy_keeps h
  | .calControl .. => execCalControl_keeps h | .calRead .. => execCalRead_keeps h | .bistRun .. => execBistRun_keeps h
  | .bistResult .. => execBistResult_keeps h | .linkTopology .. => execLinkTopology_keeps h
  | .attestChallenge .. => execAttestChallenge_keeps h | .lifecycleAdvance .. => execLifecycleAdvance_keeps h
  | .limitedSettingWrite .. => execLimitedSettingWrite_keeps h | .firmwareLoad .. => execFirmwareLoad_keeps h
  | .cmpFenceWrite .. => execCmpFenceWrite_keeps h | .swtRetry .. => execSwtRetry_keeps h
  | .scnRestart .. => execScnRestart_keeps h | .emitReset .. => execEmitReset_keeps h
  | .tripReset .. => execTripReset_keeps h | .srvLoopFlagClear .. => execSrvLoopFlagClear_keeps h
  | .evtLatchedClear .. => execEvtLatchedClear_keeps h | .thrSheafDataHiRead .. => execThrSheafDataHiRead_keeps h
  | .frgDerateDataWrite .. => execFrgDerateDataWrite_keeps h | .counterClear .. => execCounterClear_keeps h
  | .registerWrite .. => execRegisterWrite_keeps h | .bar2Write .. => execBar2Write_keeps h
  | .bar2Read .. => execBar2Read_keeps h | .frameStart .. => execFrameStart_keeps h
  | .slotEpoch .. => execSlotEpoch_keeps h | .lightWindowOpen .. => execLightWindowOpen_keeps h
  | .bandLoadDeadline .. => execBandLoadDeadline_keeps h
  | .cornerTurnHalfComplete .. => execCornerTurnHalfComplete_keeps h
  | .sheafRecompileComplete .. => execSheafRecompileComplete_keeps h | .servoTick .. => execServoTick_keeps h
  | .loopSampleDeadline .. => execLoopSampleDeadline_keeps h | .referenceEdge .. => execReferenceEdge_keeps h
  | .referenceLoss .. => execReferenceLoss_keeps h | .holdoverLongExpiry .. => execHoldoverLongExpiry_keeps h
  | .pllLossOfLock .. => execPllLossOfLock_keeps h | .pllRelockAttemptExpiry .. => execPllRelockAttemptExpiry_keeps h
  | .pllRelock .. => execPllRelock_keeps h | .safePllAttempt .. => execSafePllAttempt_keeps h
  | .returnStatusFrame .. => execReturnStatusFrame_keeps h
  | .returnLaneBlockLockLoss .. => execReturnLaneBlockLockLoss_keeps h
  | .statusFrameMissing .. => execStatusFrameMissing_keeps h
  | .linkBringupStepTimeout .. => execLinkBringupStepTimeout_keeps h
  | .linkSoakComplete .. => execLinkSoakComplete_keeps h | .laneCorrSecond .. => execLaneCorrSecond_keeps h
  | .pickoffEdge .. => execPickoffEdge_keeps h | .predictedEdgeMissed .. => execPredictedEdgeMissed_keeps h
  | .scanStartTimeout .. => execScanStartTimeout_keeps h | .amplitudeSample .. => execAmplitudeSample_keeps h
  | .verticalDeviationTimeout .. => execVerticalDeviationTimeout_keeps h | .rowStart .. => execRowStart_keeps h
  | .flyback .. => execFlyback_keeps h | .emissionSample .. => execEmissionSample_keeps h
  | .derateRecompute .. => execDerateRecompute_keeps h | .pdFaultCount .. => execPdFaultCount_keeps h
  | .matrixFrameStart .. => execMatrixFrameStart_keeps h | .matrixRowSlot .. => execMatrixRowSlot_keeps h
  | .columnOvervoltageCount .. => execColumnOvervoltageCount_keeps h | .nonceExpiry .. => execNonceExpiry_keeps h
  | .claimLockoutExpiry .. => execClaimLockoutExpiry_keeps h | .ownerTimeout .. => execOwnerTimeout_keeps h
  | .frameVerdict .. => execFrameVerdict_keeps h | .cameraFrame .. => execCameraFrame_keeps h
  | .cameraTimeout .. => execCameraTimeout_keeps h | .glyphReloadComplete .. => execGlyphReloadComplete_keeps h
  | .estimateHoldExpiry .. => execEstimateHoldExpiry_keeps h | .gamutHoldTimeout .. => execGamutHoldTimeout_keeps h
  | .colourSensorReading .. => execColourSensorReading_keeps h
  | .colourSensorTimeout .. => execColourSensorTimeout_keeps h | .dpFrameComplete .. => execDpFrameComplete_keeps h
  | .dpLinkLoss .. => execDpLinkLoss_keeps h | .dpStaleTimeout .. => execDpStaleTimeout_keeps h
  | .refreshInterval t c ok => @execRefreshInterval_keeps r s t c ok h | .parityError .. => execParityError_keeps h
  | .eccError .. => execEccError_keeps h | .retrainComplete .. => execRetrainComplete_keeps h
  | .dieSensorSample .. => execDieSensorSample_keeps h | .dieSensorReading .. => execDieSensorReading_keeps h
  | .stackSensorReading .. => execStackSensorReading_keeps h
  | .stackSensorTimeout .. => execStackSensorTimeout_keeps h
  | .stackLevelDwellExpiry .. => execStackLevelDwellExpiry_keeps h | .ntcReading .. => execNtcReading_keeps h
  | .sensorSuspectExpiry .. => execSensorSuspectExpiry_keeps h | .levelDwellExpiry .. => execLevelDwellExpiry_keeps h
  | .throttleHoldExpiry .. => execThrottleHoldExpiry_keeps h | .throttleStep .. => execThrottleStep_keeps h
  | .quenchRampStep .. => execQuenchRampStep_keeps h
  | .supplyMonitorExcursion .. => execSupplyMonitorExcursion_keeps h
  | .processMonitorMeasure .. => execProcessMonitorMeasure_keeps h
  | .temperMeasurementWindow .. => execTemperMeasurementWindow_keeps h | .temperMove .. => execTemperMove_keeps h
  | .journalWriteStart .. => execJournalWriteStart_keeps h
  | .journalWriteComplete .. => execJournalWriteComplete_keeps h | .journalRetry .. => execJournalRetry_keeps h
  | .marchSliceStart .. => execMarchSliceStart_keeps h | .marchSliceComplete .. => execMarchSliceComplete_keeps h
  | .marchSliceAbort .. => execMarchSliceAbort_keeps h | .passLimitExpiry .. => execPassLimitExpiry_keeps h
  | .repairRecordWrite .. => execRepairRecordWrite_keeps h | .timeMarkReceive .. => execTimeMarkReceive_keeps h
  | .refclkMismatchCount .. => execRefclkMismatchCount_keeps h
  | .delayReqReceive _ _ t1 => execDelayReqReceive_keeps (t1 := t1) h
  | .delayRespReceive .. => execDelayRespReceive_keeps h | .delayMeasureTimer .. => execDelayMeasureTimer_keeps h
  | .enumReceive .. => execEnumReceive_keeps h | .brugoCmdReceive .. => execBrugoCmdReceive_keeps h
  | .brugoReplyReceive .. => execBrugoReplyReceive_keeps h | .brugoEventReceive .. => execBrugoEventReceive_keeps h
  | .anvilMirrorSend .. => execAnvilMirrorSend_keeps h | .anvilMirrorReceive .. => execAnvilMirrorReceive_keeps h
  | .mirrorMissingCount .. => execMirrorMissingCount_keeps h
  | .brugoStatusReceive .. => execBrugoStatusReceive_keeps h | .barrierPrepare .. => execBarrierPrepare_keeps h
  | .barrierVote .. => execBarrierVote_keeps h | .barrierApply .. => execBarrierApply_keeps h
  | .barrierAck .. => execBarrierAck_keeps h | .barrierCancel .. => execBarrierCancel_keeps h
  | .barrierDecisionDeadline .. => execBarrierDecisionDeadline_keeps h
  | .barrierAckDeadline .. => execBarrierAckDeadline_keeps h | .flitResendTimeout .. => execFlitResendTimeout_keeps h
  | .brugoPortSilence .. => execBrugoPortSilence_keeps h | .brugoPortUp .. => execBrugoPortUp_keeps h
  | .memberStatusTimeout .. => execMemberStatusTimeout_keeps h | .managerLoss .. => execManagerLoss_keeps h
  | .eventGatherExpiry .. => execEventGatherExpiry_keeps h | .starvationExpiry .. => execStarvationExpiry_keeps h
  | .powerLoss .. => execPowerLoss_keeps h | .supplyMonitorRecovery .. => execSupplyMonitorRecovery_keeps h
  | .returnLaneBlockLock .. => execReturnLaneBlockLock_keeps h
  | .brugoCodewordLockLoss .. => execBrugoCodewordLockLoss_keeps h | .dpLinkLock .. => execDpLinkLock_keeps h
  | .estimateValidTimeout .. => execEstimateValidTimeout_keeps h | .bistRunComplete .. => execBistRunComplete_keeps h
  | .otpWriteComplete .. => execOtpWriteComplete_keeps h
  | .bootFlashWriteComplete .. => execBootFlashWriteComplete_keeps h
  | .svnMinWriteRetry .. => execSvnMinWriteRetry_keeps h

/-- A step keeps the state that its command was taken off. -/
theorem step_keeps {s x : State} {c : Instr} {r : List Instr} (hpending : s.pending = c :: r)
    (hstep : step s = .next x) : Keeps { s with pending := r } x := by
  have h := exec_keeps (Keeps.refl { s with pending := r }) c
  rwa [← step_of_pending_cons hpending, hstep] at h

/-- Settles O4: what a step keeps holds the rest of the queue and the direction of time. -/
theorem queueRunsInOrder : Obligations.QueueRunsInOrder := by
  intro s x c r hpending hstep
  have h := step_keeps hpending hstep
  exact ⟨h.pending, h.now⟩

end Sys2Proof.Machine
end

section
/-! SUPPORT. Command packets (R63): the packet that is taken in, the request that joins the queue, and the rows of quad
SPI (R82-R85). -/

namespace Sys2Proof.Machine

/-! ## Arrival (R63) -/

/-- A packet that is whole and whose CRC is right goes to the request checks. -/
theorem packetIn_of_whole {p : Port} {b : List Byte} {s : State} (hsync : byteAt b 0 = 0xA5)
    (hlen : b.length = 10 + le16 b 4) (hlimit : le16 b 4 ≤ portLimit p)
    (hcrc : crc32c (b.take (6 + le16 b 4)) = leNat (slice b (6 + le16 b 4) 4)) :
    packetIn p b s = arrive { port := p, opcode := byteAt b 1, tag := b.getD 2 0, flags := b.getD 3 0,
                              payload := slice b 6 (le16 b 4), crc := leNat (slice b (6 + le16 b 4) 4),
                              at' := s.now } s := by
  have hsome : ¬b.isEmpty = true := by
    rw [List.isEmpty_iff_length_eq_zero]
    omega
  have hfits : ¬(b.length ≠ 10 + le16 b 4 ∨ b.length < 10 ∨ portLimit p < le16 b 4) := by omega
  simp only [packetIn, hsome, hsync, hfits, hcrc, ne_eq, not_true_eq_false, Bool.false_eq_true, if_false]

/-- With no tag outstanding a request is neither a copy nor a clash of tags: steps 8 to 10 alone can refuse it. -/
theorem takeUp_of_accepted {rq : Req} {s : State} (houtst : s.hst.outst = []) (hfree : longBlocked s rq = false)
    (hadmitted : admission s rq = none) : takeUp rq s = enqueue rq s := by
  simp [takeUp, houtst, hfree, hadmitted]

theorem arrive_of_accepted {rq : Req} {s : State} (hflags : flagCheck s rq = none)
    (hop : opcodes.contains rq.opcode = true) (hlen : lenOk rq = true) (hnew : keptReply rq s = none)
    (houtst : s.hst.outst = []) (hfree : longBlocked s rq = false) (hadmitted : admission s rq = none) :
    arrive rq s = enqueue rq s := by
  have htake := takeUp_of_accepted houtst hfree hadmitted
  have hcopy : reqOutst rq s.hst = none := by rw [reqOutst, houtst]; rfl
  rw [arrive, hflags, hop, hlen, hnew, hcopy, htake]
  exact ite_self _

/-! ## Writing on quad SPI (R82, R84) -/

/-- What the Hearth hears does not depend on the time (R36). -/
theorem heard_at {s : State} {n : Nat} (t : Time) (h : hearthHears n s = true) :
    ¬(!hearthHears n (s.at t)) = true := by
  have hat : hearthHears n (s.at t) = true := h
  simp [hat]

/-- WRITE_PACKET on a free front end, which is then busy for a free time within 200 us (log 23). -/
theorem exec_spiWritePacket_of_free (t : Time) (b : List Byte) {s : State} (hhears : hearthHears 3 s = true)
    (hfree : rxBusy (s.at t) = false) :
    exec (.spiWritePacket t 0x02 b) s = .next (packetIn .spi b { s.at t with
      free := s.free + 1, hth := { s.hth with rcRun := true, lastActivity := max s.now t },
      hst := { s.hst with spiBusyUntil := some (max s.now t + Config.freeValue s.free % (200 * us + 1)) } }) :=
  (if_neg (heard_at t hhears)).trans ((if_pos rfl).trans (if_neg (ne_true_of_eq_false hfree)))

theorem exec_spiWritePacket_of_busy (t : Time) (b : List Byte) {s : State} (hhears : hearthHears 3 s = true)
    (hbusy : rxBusy (s.at t) = true) :
    exec (.spiWritePacket t 0x02 b) s = .next (raise evHstSpiOverrun 0 (wakeHearth (s.at t))) :=
  (if_neg (heard_at t hhears)).trans ((if_pos rfl).trans (if_pos hbusy))

theorem exec_spiWritePacket_of_unknown (t : Time) {c : Nat} (b : List Byte) {s : State}
    (hhears : hearthHears 3 s = true) (hwrite : c ≠ 0x02) (hreply : c ≠ 0x0B) (hstatus : c ≠ 0x05) :
    exec (.spiWritePacket t c b) s = .next (raise evHstFramingErr 0 (wakeHearth (s.at t))) :=
  (if_neg (heard_at t hhears)).trans ((if_neg hwrite).trans (if_neg (not_or.2 ⟨hreply, hstatus⟩)))

/-! ## Reading on quad SPI (R83, R85) -/

/-- READ_REPLY with a reply waiting: its bytes, then zeros; read to its end it leaves the queue. -/
theorem exec_spiReadReply_of_waiting (t : Time) (n : Nat) {b : List Byte} {q : List (List Byte)} {s : State}
    (hhears : hearthHears 3 s = true) (hwaits : s.hst.spiReplies = b :: q) :
    exec (.spiReadReply t n) s = .next { wakeHearth (s.at t) with hst := { s.hst with
      spiOut := b.take n ++ List.replicate (n - b.length) 0,
      spiReplies := if b.length ≤ n then q else b :: q } } := by
  refine (if_neg (heard_at t hhears)).trans ?_
  have hq : (wakeHearth (s.at t)).hst.spiReplies = b :: q := hwaits
  dsimp only
  rw [hq]
  rfl

theorem exec_spiReadReply_of_none (t : Time) (n : Nat) {s : State} (hhears : hearthHears 3 s = true)
    (hnone : s.hst.spiReplies = []) :
    exec (.spiReadReply t n) s = .next { wakeHearth (s.at t) with
      hst := { s.hst with spiOut := List.replicate n 0 } } := by
  refine (if_neg (heard_at t hhears)).trans ?_
  dsimp only
  split
  · rfl
  · next hwaits => exact (List.cons_ne_nil _ _ (hwaits.symm.trans hnone)).elim

theorem exec_spiReadStatus_of_heard (t : Time) {s : State} (hhears : hearthHears 3 s = true) :
    exec (.spiReadStatus t) s = .next { wakeHearth (s.at t) with
      hst := { s.hst with spiOut := [BitVec.ofNat 8 (spiStatus (s.at t))] } } :=
  if_neg (heard_at t hhears)

/-- Settles O14: writing, arrival, then the two reads. -/
theorem spiPacketsAndReplies : Obligations.SpiPacketsAndReplies := by
  refine ⟨?written, fun t b s => exec_spiWritePacket_of_busy t b, fun t c b s => exec_spiWritePacket_of_unknown t b,
    fun p b s => packetIn_of_whole, fun rq s => arrive_of_accepted, ?readOut, ?readPart,
    fun t n s => exec_spiReadReply_of_none t n,
    fun t s h => ⟨_, exec_spiReadStatus_of_heard t h, BitVec.toNat_ofNat ..⟩⟩
  case written =>
    intro t b s hhears hfree
    exact ⟨_, Nat.le_of_lt_succ (Nat.mod_lt _ (Nat.succ_pos _)), exec_spiWritePacket_of_free t b hhears hfree⟩
  case readOut =>
    intro t n b q s hhears hwaits hlen
    rw [exec_spiReadReply_of_waiting t n hhears hwaits, List.take_of_length_le hlen, if_pos hlen]
    rfl
  case readPart =>
    intro t n b q s hhears hwaits hlen
    rw [exec_spiReadReply_of_waiting t n hhears hwaits, if_neg (Nat.not_le.2 hlen), Nat.sub_eq_zero_of_le hlen.le,
      List.replicate_zero, List.append_nil, ← hwaits]
    rfl

end Sys2Proof.Machine
end

section
/-! SUPPORT. The interpreter and its answers (R60, R66, R71-R75, R80): which request is granted, when a row's command
runs, what a reply makes of the queues, and the time-outs of kept replies and forwarded requests. -/

namespace Sys2Proof.Machine

/-! ## The request that is granted (R73-R75) -/

theorem firstOf_mem {ptr : Nat} {l : List Req} {g : Req} (h : firstOf ptr l = some g) : g ∈ l := by
  refine List.foldlRecOn (motive := fun o => ∀ g, o = some g → g ∈ l) l _ (by simp) ?_ g h
  intro o ho r hr g hg
  split at hg
  · exact Option.some.inj hg ▸ hr
  · split at hg
    · exact Option.some.inj hg ▸ hr
    · exact ho g hg

theorem exists_firstOf {ptr : Nat} {l : List Req} (h : l ≠ []) : ∃ g, firstOf ptr l = some g := by
  obtain ⟨x, l, rfl⟩ := List.exists_cons_of_ne_nil h
  rw [firstOf, List.foldl_cons]
  refine List.foldlRecOn (motive := fun o => ∃ g, o = some g) l _ ⟨x, rfl⟩ ?_
  rintro _ ⟨g, rfl⟩ r -
  dsimp only
  split
  · exact ⟨r, rfl⟩
  · exact ⟨g, rfl⟩

theorem granted_mem {h : Hst} {g : Req} (hg : granted h = some g) : g ∈ h.requests := by
  rw [granted] at hg
  split at hg
  · next hsafety => exact Option.some.inj hg ▸ (List.mem_filter.1 (firstOf_mem hsafety)).1
  · exact (List.mem_filter.1 (firstOf_mem hg)).1

/-- Safety-channel requests go before all others (R75). -/
theorem granted_of_safety_waits {h : Hst} {r : Req} (hr : r ∈ h.requests) (hsafety : rqSafety r = true) :
    ∃ g, granted h = some g ∧ g ∈ h.requests ∧ rqSafety g = true := by
  have hwaits : h.requests.filter rqSafety ≠ [] := List.ne_nil_of_mem (List.mem_filter.2 ⟨hr, hsafety⟩)
  obtain ⟨g, hg⟩ := exists_firstOf (ptr := h.rotSafety) hwaits
  exact ⟨g, by rw [granted, hg], List.mem_filter.1 (firstOf_mem hg)⟩

/-- A request whose transport waits for a forwarded one is not granted (R73). -/
theorem grantedNow_mem {s : State} {g : Req} (h : grantedNow s = some g) :
    g ∈ s.hst.requests ∧ transportWaits s g = false := by
  obtain ⟨hmem, hfree⟩ := List.mem_filter.1 (granted_mem h)
  exact ⟨hmem, by simpa using hfree⟩

/-! ## When a row's command runs (R63, R72, R73) -/

theorem serve_of_not_granted {op : Nat} (body : Req → State → Ans) {rq : Req} {s : State}
    (h : rq.opcode ≠ op ∨ s.hth.boot = .hold ∨ (s.hst.requests.contains rq = true ∧ grantedNow s ≠ some rq)) :
    serve op body rq s = s := by
  rw [serve]
  split
  · rfl
  · next hserved =>
    obtain ⟨hop, hboot⟩ := not_or.1 hserved
    obtain ⟨hwaits, hother⟩ := (h.resolve_left hop).resolve_left hboot
    simp only [hwaits, if_true]
    exact if_neg hother

/-- The granted request is executed, off the queue. -/
theorem serve_of_granted {op : Nat} (body : Req → State → Ans) {rq : Req} {s : State} (hop : rq.opcode = op)
    (hboot : s.hth.boot ≠ .hold) (hwaits : s.hst.requests.contains rq = true) (hgranted : grantedNow s = some rq) :
    serve op body rq s = execute rq body (takeReq rq s) := by
  rw [serve, if_neg (not_or.2 ⟨not_not_intro hop, hboot⟩)]
  simp only [hwaits, if_true]
  exact if_pos hgranted

theorem execute_of_refused {rq : Req} (body : Req → State → Ans) {st : Status} {s : State}
    (h : admission s rq = some st) : execute rq body s = finishReply rq st [] s := by
  rw [execute, h]

/-! ## Time-outs (R72, R80) -/

/-- A forwarded request whose one device did not answer ends with TIMEOUT. -/
theorem worstStatus_timeout {n : Nat} (h : n < 8) : worstStatus [(n, Status.timeout.code)] = .timeout := by
  have hall : ∀ k : Fin 8, worstStatus [(k.val, Status.timeout.code)] = .timeout := by decide
  exact hall ⟨n, h⟩

theorem relayReply_of_empty {f : Fwd} {st : Status} {s : State} (hpayload : f.payload = []) (hriders : f.riders = []) :
    relayReply f st s = finishReply f.rq st [] s := by
  simp [relayReply, hpayload, hriders]

/-- A forwarded request of one device, with nothing relayed back, is answered with its status. -/
theorem finishFwd_of_empty {f : Fwd} {st : Status} {s : State} (hstatus : worstStatus f.status = st)
    (hst : st ≠ .pending) (hpayload : f.payload = []) (hriders : f.riders = []) (hop : f.rq.opcode ≠ 0x38)
    (hone : rqTarget f.rq ≠ 15) :
    finishFwd f s = finishReply f.rq st [] { s with brg := { s.brg with fwds := s.brg.fwds.erase f } } := by
  simp only [finishFwd, hstatus, if_neg hop, if_neg hone, if_neg hst]
  exact relayReply_of_empty hpayload hriders

theorem exec_forwardTimeout_of_early {t : Time} {s : State} (h : ∀ f ∈ s.brg.fwds, max s.now t < f.due) :
    exec (.forwardTimeout t) s = .next (s.at t) := by
  have hnone : ((s.at t).brg.fwds.filter fun f => decide (f.due ≤ (s.at t).now)) = [] :=
    List.filter_eq_nil_iff.2 fun f hf => by simpa using h f hf
  show execForwardTimeout t s = _
  rw [execForwardTimeout]
  simp only [hnone, List.foldl_nil]

/-- The one request that waits is due: its devices are answered for, and it is finished. -/
theorem exec_forwardTimeout_of_due {t : Time} {f : Fwd} {s : State} (hone : s.brg.fwds = [f]) (hdue : f.due ≤ t) :
    exec (.forwardTimeout t) s =
      .next (finishFwd (timeoutFwd f) { s.at t with brg := { s.brg with fwds := [] } }) := by
  have hall : ((s.at t).brg.fwds.filter fun f => decide (f.due ≤ (s.at t).now)) = [f] := by
    have hnow : f.due ≤ (s.at t).now := Nat.le_trans hdue (Nat.le_max_right ..)
    rw [State_at_brg, hone]
    exact List.filter_cons_of_pos (decide_eq_true hnow)
  show execForwardTimeout t s = _
  rw [execForwardTimeout]
  dsimp only
  rw [hall, List.foldl_cons, List.foldl_nil]
  simp only [State_at_brg, hone, List.erase_cons_head]

/-- Settles O17: the grant, the rows whose command does not run, and the two time-outs. -/
theorem requestQueueDiscipline : Obligations.RequestQueueDiscipline := by
  refine ⟨fun h r => granted_of_safety_waits, fun s g => grantedNow_mem, fun op body rq s => serve_of_not_granted body,
    ?refused, ?kept, fun t s => exec_forwardTimeout_of_early, ?timeout⟩
  case refused =>
    intro op body rq st s hop hboot hwaits hgranted hrefused
    rw [serve_of_granted body hop hboot hwaits hgranted, execute_of_refused body hrefused]
  case kept =>
    intro t s
    exact ⟨_, rfl, fun k => by simp⟩
  case timeout =>
    intro t f n s hfwds hdue hwaiting hstatus hn hpayload hriders hop hone
    have hworst : worstStatus (timeoutFwd f).status = .timeout := by
      rw [timeoutFwd, hstatus, hwaiting]
      exact worstStatus_timeout hn
    rw [exec_forwardTimeout_of_due hfwds hdue,
      finishFwd_of_empty (f := timeoutFwd f) hworst (by decide) hpayload hriders hop hone]
    rfl

/-! ## Answers (R60, R66, R71, R72, R498) -/

theorem leBytes_length (k n : Nat) : (leBytes k n).length = k := by
  induction k generalizing n with
  | zero => rfl
  | succ k ih => rw [leBytes, List.length_cons, ih]

theorem statusReply_length (s : State) : (statusReply s).length = 16 := by
  simp [statusReply, leBytes_length]

/-- A reply behind which no record rides (R81). -/
theorem buildReply_of_no_records (p : Port) (op : Nat) (tag : Byte) (st : Status) (pl : List Byte) {e : Evt}
    (h : (e.recs.filter fun r => r.piggy) = []) :
    buildReply p op tag st pl e = (replyPacket op tag st.code pl, e) := by
  simp [buildReply, piggyFit, h]

theorem deliver_spi_of_room (b : List Byte) {s : State} (h : s.hst.spiReplies.length < 8) :
    deliver .spi b s = { s with hst := { s.hst with spiReplies := s.hst.spiReplies ++ [b] } } := by
  refine if_neg ?_
  rw [List.length_append, List.length_singleton]
  omega

@[simp] theorem canLost_pend (n : Nat) (x : Option CanTx) (s : State) : (canLost n x s).hst.pend = s.hst.pend := by
  cases x with
  | none => rfl
  | some r => rfl

@[simp] theorem deliver_pend (p : Port) (b : List Byte) (s : State) : (deliver p b s).hst.pend = s.hst.pend := by
  cases p with
  | spi =>
    rw [deliver]
    split <;> rfl
  | mbx k =>
    rw [deliver]
    split <;> rfl
  | canCmd => exact canLost_pend ..
  | canSafety => exact canLost_pend ..
  | brugo => rfl

theorem deliverAll_pend (l : List Port) (b : List Byte) (s : State) : (deliverAll l b s).hst.pend = s.hst.pend :=
  foldl_proj (fun a => a.hst.pend) _ (fun _ _ => deliver_pend ..) l s

/-- A command that answers PENDING is pending. -/
theorem reqKey_mem_endReply_pend (rq : Req) (b : List Byte × Evt) (s : State) :
    reqKey rq ∈ (endReply rq .pending b s).hst.pend := by
  rw [endReply]
  split
  · rw [deliverAll_pend]
    exact List.mem_append_right _ (List.mem_singleton_self _)
  · exact List.mem_append_right _ (List.mem_singleton_self _)

/-- With REPLY = 0 an OK goes out on no transport of the host's (R66). -/
theorem wantsReply_ok_of_no_reply {rq : Req} (hflag : bit rq.flags.toNat 0 = false) (hport : rq.port ≠ .brugo) :
    wantsReply rq .ok = false := by
  simp [wantsReply, hflag, hport]

/-- A reply that is not wanted reaches no queue, and takes no record with it. -/
theorem finishReply_of_unwanted {rq : Req} {st : Status} (pl : List Byte) (s : State)
    (h : wantsReply rq st = false) :
    (finishReply rq st pl s).hst.spiReplies = s.hst.spiReplies ∧ (finishReply rq st pl s).evt = s.evt := by
  simp [finishReply, endReply, h]

/-- A reply without copies on quad SPI, with room in its queue. -/
theorem finishReply_spi {rq : Req} {st : Status} (pl : List Byte) {s : State} (hport : rq.port = .spi)
    (hst : st ≠ .pending) (hwanted : wantsReply rq st = true) (hcopies : reqOutst rq s.hst = none)
    (hrecs : (s.evt.recs.filter fun r => r.piggy) = []) (hroom : s.hst.spiReplies.length < 8) :
    ∃ k, finishReply rq st pl s = { s with hst := { s.hst with
      outst := dropOutst .spi rq.tag s.hst.outst, kept := keepReply s.hst.kept k,
      spiReplies := s.hst.spiReplies ++ [replyPacket rq.opcode rq.tag st.code pl] } } := by
  refine ⟨{ port := .spi, tag := rq.tag, opcode := rq.opcode, crc := rq.crc,
            bytes := replyPacket rq.opcode rq.tag st.code pl, at' := s.now }, ?_⟩
  rw [finishReply, if_pos hwanted, buildReply_of_no_records _ _ _ _ _ hrecs, endReply, if_pos hwanted]
  simp only [hcopies, hport, if_neg hst]
  exact deliver_spi_of_room _ hroom

/-- Settles O19: STATUS, then the ways an answer leaves. -/
theorem statusAndAnswers : Obligations.StatusAndAnswers := by
  refine ⟨?status, statusReply_length, fun rq st pl s => finishReply_spi pl, ?unwanted,
    fun rq pl s => reqKey_mem_endReply_pend ..⟩
  case status =>
    intro t rq s hserves
    exact congrArg Host.Outcome.next (serve_of_serves statusBody hserves)
  case unwanted =>
    intro rq pl s hflag hport
    exact finishReply_of_unwanted pl s (wantsReply_ok_of_no_reply hflag hport)

end Sys2Proof.Machine
end

section
/-! SUPPORT. Messages on Brugo Link (R79, R437, R439-R441, R443, R447, R453, R457): a first copy for the device reaches
what acts on it, and what each message makes of the records of the manager or of a worker. -/

namespace Sys2Proof.Machine

/-! ## Operations that leave a record as it is -/

@[simp] theorem raiseIf_brg (c : Bool) (id d : Nat) (s : State) : (raiseIf c id d s).brg = s.brg := by
  cases c <;> rfl

@[simp] theorem raiseIf_anv (c : Bool) (id d : Nat) (s : State) : (raiseIf c id d s).anv = s.anv := by
  cases c <;> rfl

/-- The ports are judged again: ACTIVE and TOPO alone follow. -/
theorem portsJudge_brg (s : State) : ∃ a t, (portsJudge s).brg = { s.brg with active := a, topo := t } := by
  rw [portsJudge]
  split
  · dsimp only
    split <;> exact ⟨_, _, rfl⟩
  · exact ⟨_, _, rfl⟩

/-- New shared values: a light level among them goes to the Forge. -/
theorem shareApply_brg (v : Shared) (s : State) : (shareApply v s).brg = { s.brg with shared := v } := by
  rw [shareApply, setBrg_brg]
  split
  · split <;> rfl
  · rfl

/-- The holder of the telltales is judged: neither the function states nor the owner's staleness change. -/
theorem judgeHolder_shown (s : State) : (judgeHolder s).anv.states = s.anv.states ∧
    (judgeHolder s).anv.ownerStale = s.anv.ownerStale ∧ (judgeHolder s).brg = s.brg := by
  rw [judgeHolder]
  dsimp only
  split
  · exact ⟨rfl, rfl, rfl⟩
  · rw [raiseIf_anv, raiseIf_brg]
    exact ⟨rfl, rfl, rfl⟩

/-! ## A first copy for this device (R439, R441) -/

/-- A flit that was taken has changed the ports' acknowledgements and the two records of messages, and nothing else. -/
theorem flitTaken_eq (f : Flit) (s : State) :
    ∃ p q l, flitTaken f s = { s with brg := { s.brg with ports := p, seen := q, forwarded := l } } := by
  rw [flitTaken, forwardFlit]
  dsimp only
  split <;> exact ⟨_, _, _, rfl⟩

theorem flitTaken_hth (f : Flit) (s : State) : (flitTaken f s).hth = s.hth := by
  obtain ⟨p, q, l, h⟩ := flitTaken_eq f s
  rw [h]

theorem flitTaken_refuse (f : Flit) (s : State) : (flitTaken f s).brg.refuse = s.brg.refuse := by
  obtain ⟨p, q, l, h⟩ := flitTaken_eq f s
  rw [h]

theorem forMe_flitTaken (f : Flit) (s : State) : forMe f (flitTaken f s) = forMe f s := by
  obtain ⟨p, q, l, h⟩ := flitTaken_eq f s
  rw [h]
  rfl

/-- What `hears` says, part by part. -/
theorem hears_iff (role : Nat) (f : Flit) (s : State) : hears role f s = true ↔
    s.hth.role = role ∧ role ≠ 0 ∧ s.brg.ports[f.port].st = .up ∧ firstCopy f s = true ∧ forMe f s = true := by
  simp [hears, and_assoc]

theorem flitTaken_role {role : Nat} {f : Flit} {s : State} (h : hears role f s = true) :
    (flitTaken f s).hth.role = role := by
  obtain ⟨hrole, -, -, -, -⟩ := (hears_iff ..).1 h
  rw [flitTaken_hth, hrole]

/-- A flit that is heard is acted on. -/
theorem receive_of_hears {role : Nat} {f : Flit} {s : State} (open' : Bool) (act : State → State)
    (h : hears role f s = true) : receive open' f act s = act (flitTaken f s) := by
  obtain ⟨hrole, hnone, hup, hfirst, hme⟩ := (hears_iff ..).1 h
  have htaken : ¬(s.hth.role = 0 ∨ (!(s.brg.ports[f.port].st == .up
      || (open' && s.brg.ports[f.port].st == .training))) = true) := by
    rintro (hstandalone | hdown)
    · exact hnone (hrole.symm.trans hstandalone)
    · simp only [hup, beq_self_eq_true, Bool.true_or, Bool.not_true, Bool.false_eq_true] at hdown
  have hact : (if forMe f (flitTaken f s) = true then act (flitTaken f s) else flitTaken f s) = act (flitTaken f s) :=
    if_pos ((forMe_flitTaken f s).trans hme)
  rw [receive, if_neg htaken]
  simp only [hfirst, Bool.not_true, Bool.false_eq_true, if_false]
  exact hact

/-- A message that one role acts on, and another device leaves alone. -/
theorem receive_of_role {role : Nat} {f : Flit} {s : State} (open' : Bool) (act other : State → State)
    (h : hears role f s = true) :
    receive open' f (fun a => if a.hth.role = role then act a else other a) s = act (flitTaken f s) :=
  (receive_of_hears open' _ h).trans (if_pos (flitTaken_role h))

theorem exec_enumReceive_of_worker (t : Time) {f : Flit} (m : EnumMsg) {s : State} (h : hears 2 f s = true) :
    exec (.enumReceive t f m) s = .next (enumWorker f m (flitTaken f (s.at t))) := by
  have hheard : hears 2 f (s.at t) = true := h
  have hrole : ¬(flitTaken f (s.at t)).hth.role = 1 := by
    rw [flitTaken_role hheard]
    decide
  exact congrArg Host.Outcome.next ((receive_of_hears true _ hheard).trans (if_neg hrole))

/-- A mark on a worker that does not refuse marks (R442). -/
theorem exec_timeMarkReceive_of_accepting (t : Time) {f : Flit} (m : TimeMark) {s : State} (h : hears 2 f s = true)
    (hrefuse : s.brg.refuse = false) :
    exec (.timeMarkReceive t f m) s = .next (markAccept f m (flitTaken f (s.at t))) := by
  have hheard : hears 2 f (s.at t) = true := h
  have hrefuse' : (flitTaken f (s.at t)).brg.refuse = false := (flitTaken_refuse ..).trans hrefuse
  exact congrArg Host.Outcome.next ((receive_of_hears false _ hheard).trans
    (if_pos ⟨flitTaken_role hheard, by rw [hrefuse']; rfl⟩))

theorem exec_timeMarkReceive_of_refusing (t : Time) {f : Flit} (m : TimeMark) {s : State} (h : hears 2 f s = true)
    (hrefuse : s.brg.refuse = true) : exec (.timeMarkReceive t f m) s = .next (flitTaken f (s.at t)) := by
  have hheard : hears 2 f (s.at t) = true := h
  have hrefuse' : (flitTaken f (s.at t)).brg.refuse = true := (flitTaken_refuse ..).trans hrefuse
  exact congrArg Host.Outcome.next ((receive_of_hears false _ hheard).trans
    (if_neg fun hc => by simp [hrefuse'] at hc))

/-! ## Numbers of workers (R437) -/

/-- Fewer than seven workers leave a number free. -/
theorem exists_freeNumber {l : List Worker} (h : l.length < 7) : ∃ n, freeNumber l = some n := by
  by_contra hnone
  have hall : (List.range 8).drop 1 ⊆ l.map (·.number) := by
    intro n hn
    have hfind := List.find?_eq_none.1 (Option.eq_none_iff_forall_ne_some.2 (not_exists.1 hnone)) n hn
    simpa using hfind
  have hlen := (List.subperm_of_subset (by decide) hall).length_le
  rw [List.length_map] at hlen
  exact Nat.not_lt.2 hlen h

theorem freeNumber_spec {l : List Worker} {n : Nat} (h : freeNumber l = some n) :
    1 ≤ n ∧ n ≤ 7 ∧ ∀ w ∈ l, w.number ≠ n := by
  have hrange : ∀ k ∈ (List.range 8).drop 1, 1 ≤ k ∧ k ≤ 7 := by decide
  obtain ⟨hlow, hhigh⟩ := hrange n (List.mem_of_find?_eq_some h)
  have hfree := List.find?_some h
  exact ⟨hlow, hhigh, by simpa using hfree⟩

/-- A worker that the manager does not know gets the free number. -/
theorem enumManager_workers_of_new {f : Flit} {m : EnumMsg} {n : Nat} {s : State} (hworker : m.isManager = false)
    (hnew : (s.brg.workers.find? fun w => w.uid == m.uid) = none) (hfree : freeNumber s.brg.workers = some n) :
    (enumManager f m s).brg.workers = s.brg.workers ++ [⟨m.uid, n, f.port, false, false, s.now, 256, 0⟩] := by
  rw [enumManager, if_neg (ne_true_of_eq_false hworker)]
  simp only [hnew, hfree, raiseIf_brg]
  rfl

/-- A worker takes its number from a manager, while it has none yet. -/
theorem enumWorker_brg {f : Flit} {m : EnumMsg} {s : State} (hmanager : m.isManager = true)
    (hfirst : s.brg.manager = none) (hlow : 1 ≤ m.number) (hhigh : m.number ≤ 7) :
    (enumWorker f m s).brg.devnum = m.number ∧ (enumWorker f m s).brg.manager = some m.uid ∧
    (enumWorker f m s).brg.numbered = true := by
  have htakes : ¬((!m.isManager) = true ∨ (!true) = true ∨ m.number = 0 ∨ 7 < m.number) := by
    rw [hmanager]
    rintro (h | h | h | h)
    · exact absurd h (by decide)
    · exact absurd h (by decide)
    · omega
    · omega
  simp only [enumWorker, hfirst]
  rw [if_neg htakes]
  obtain ⟨a, t, hports⟩ := portsJudge_brg (setPort f.port (fun x => { x with hops := some (f.hops + 1) })
    (setBrg (fun b => { b with manager := some m.uid, devnum := m.number, numbered := true }) s))
  rw [hports]
  exact ⟨rfl, rfl, rfl⟩

/-! ## Replies and STATUS of workers (R79, R447) -/

/-- The first of two workers that a forwarded request waits for has replied. -/
theorem replyTake_of_two_waiting {n k : Nat} {b : List Byte} {f : Fwd} {s : State} (hfwds : s.brg.fwds = [f])
    (hwaiting : f.waiting = [n, k]) (hop : f.rq.opcode = byteAt b 1) (htag : f.rq.tag = b.getD 2 0) :
    ∃ g, (replyTake n b s).brg.fwds = [g] ∧ g.waiting = [k] ∧ g.status = f.status ++ [(n, byteAt b 3 % 128)] := by
  have hfind : (s.brg.fwds.find? fun f =>
      f.waiting.contains n && f.rq.opcode == byteAt b 1 && f.rq.tag == b.getD 2 0) = some f := by
    rw [hfwds]
    exact List.find?_cons_of_pos (by simp [hwaiting, hop, htag])
  have hleft : f.waiting.erase n = [k] := by rw [hwaiting, List.erase_cons_head]
  rw [replyTake, hfind]
  simp only [hleft, List.isEmpty_cons, Bool.false_eq_true, if_false, setBrg_brg, hfwds, List.map_cons, List.map_nil,
    if_true]
  exact ⟨_, rfl, rfl, rfl⟩

theorem setWorker_workers_of_one {n : Nat} {w : Worker} {s : State} (f : Worker → Worker)
    (hone : s.brg.workers = [w]) (hn : w.number = n) : (setWorker n f s).brg.workers = [f w] := by
  simp [setWorker, hone, hn]

/-- A worker whose aligner is locked is a member from now on. -/
theorem statusTake_of_aligned {n : Nat} {m : WorkerStatus} {w : Worker} {s : State} (hone : s.brg.workers = [w])
    (hn : w.number = n) (haligned : m.alignerOk = true) :
    ∃ v, (statusTake n m s).brg.workers = [v] ∧ v.number = n ∧ v.member = true ∧ v.lastStatus = s.now := by
  have hfind : (s.brg.workers.find? fun w => w.number == n) = some w := by
    rw [hone]
    exact List.find?_cons_of_pos (beq_iff_eq.2 hn)
  have hseen := setWorker_workers_of_one
    (fun w => { w with lastStatus := s.now, throttle := m.throttle, cmpSeq := m.cmpSeq }) hone hn
  simp only [statusTake, hfind, haligned, Bool.not_true, Bool.false_eq_true, if_false]
  split
  · next hmember => exact ⟨_, hseen, hn, hmember, rfl⟩
  · rw [raiseIf_brg]
    exact ⟨_, setWorker_workers_of_one _ hseen hn, hn, rfl, rfl⟩

/-! ## Forwarded events (R457): no raise touches their queue -/

theorem Evt.pushFrame_fwd (e : Evt) : e.pushFrame.1.fwd = e.fwd := by
  rw [Evt.pushFrame]
  split <;> rfl

theorem Evt.msixSend_fwd (g : Nat) (e : Evt) : (e.msixSend g).fwd = e.fwd := by
  rw [Evt.msixSend]
  split <;> rfl

theorem Evt.actBrugo_fwd (c : EvCtx) (e : Evt) (r : Rec) : (Evt.actBrugo c e r).fwd = e.fwd := by
  rw [Evt.actBrugo]
  split <;> rfl

theorem Evt.actCan_fwd (c : EvCtx) (e : Evt) (r : Rec) : (Evt.actCan c e r).1.fwd = e.fwd := by
  unfold Evt.actCan
  extract_lets e1
  split
  · exact Evt.pushFrame_fwd _
  · rfl

theorem Evt.act_fwd (c : EvCtx) (e : Evt) (r : Rec) (m : Nat) : (Evt.act c e r m).1.fwd = e.fwd := by
  simp only [Evt.act, apply_ite Prod.fst, apply_ite Evt.fwd, Evt.actCan_fwd, Evt.actBrugo_fwd, Evt.msixSend_fwd,
    ite_self]

theorem Evt.raiseAux_fwd (c : EvCtx) (n : Nat) (e : Evt) (id d sev : Nat) :
    (Evt.raiseAux c n e id d sev).fwd = e.fwd := by
  induction n generalizing e id d sev with
  | zero => rfl
  | succ n ih =>
    have hafter : ∀ p : Evt × Bool,
        (if p.2 = true then Evt.raiseAux c n p.1 evEvtCanDropped 1 1 else p.1).fwd = p.1.fwd := by
      intro p
      split
      · exact ih ..
      · rfl
    rw [Evt.raiseAux]
    split
    · dsimp only
      split
      · split
        · exact (ih ..).trans ((hafter _).trans (Evt.act_fwd ..))
        · exact (hafter _).trans (Evt.act_fwd ..)
      · split
        · exact (hafter _).trans (Evt.act_fwd ..)
        · exact (hafter _).trans (Evt.act_fwd ..)
    · rfl

theorem raiseIf_fwd (c : Bool) (id d : Nat) (s : State) : (raiseIf c id d s).evt.fwd = s.evt.fwd := by
  cases c with
  | false => rfl
  | true => exact Evt.raiseAux_fwd ..

/-- The forwarded queue holds 64 records. -/
theorem fwdPush_fwd_length (n : Nat) (r : EvRec) (s : State) : (fwdPush n r s).evt.fwd.length ≤ 64 := by
  unfold fwdPush
  extract_lets x q old s1 s2 tag
  have hfwd : s2.evt.fwd.length ≤ 64 := by
    rw [show s2.evt.fwd = q.drop (q.length - 64) from raiseIf_fwd .., List.length_drop]
    omega
  clear_value s2
  split
  · split <;> exact hfwd
  · exact hfwd

/-! ## The mirror and the marks (R443, R453) -/

theorem setFnState_shown (n st : Nat) (s : State) :
    (setFnState n st s).anv.states = upd s.anv.states (Fin.ofNat 256 n) (BitVec.ofNat 2 st) ∧
    (setFnState n st s).brg = s.brg := by
  rw [setFnState]
  dsimp only
  split
  · split <;> exact ⟨rfl, rfl⟩
  · exact ⟨rfl, rfl⟩

/-- The functions below `k` have taken their states. -/
theorem foldl_setFnState_states (g : Nat → Nat) (i : Fin 256) (s : State) {k : Nat} (hk : k ≤ 256) :
    ((List.range k).foldl (fun a n => setFnState n (g n) a) s).anv.states[i]
      = if i.val < k then BitVec.ofNat 2 (g i.val) else s.anv.states[i] := by
  induction k with
  | zero => rfl
  | succ k ih =>
    rw [List.range_succ, List.foldl_append, List.foldl_cons, List.foldl_nil, (setFnState_shown ..).1]
    by_cases hi : i.val = k
    · have hix : Fin.ofNat 256 k = i := by rw [← hi]; exact Fin.ofNat_val_eq_self i
      rw [hix, upd_self, if_pos (by omega), hi]
    · have hix : Fin.ofNat 256 k ≠ i := by
        intro h
        apply hi
        rw [← h, Fin.val_ofNat]
        omega
      rw [upd_other _ _ _ _ hix, ih (by omega)]
      exact if_congr (by omega) rfl rfl

/-- The owner's staleness follows, and the function states stand. -/
theorem workerStale_shown (b : Bool) (s : State) : (workerStale b s).anv.states = s.anv.states ∧
    (workerStale b s).anv.ownerStale = b ∧ (workerStale b s).brg = s.brg := by
  rw [workerStale]
  split
  · next h => exact ⟨rfl, h.symm, rfl⟩
  · obtain ⟨hstates, hstale, hbrg⟩ := judgeHolder_shown
      (raiseIf b evAnvOwnerStale 0 (setAnv (fun a => { a with ownerStale := b }) s))
    rw [hstates, hstale, hbrg, raiseIf_anv, raiseIf_brg]
    exact ⟨rfl, rfl, rfl⟩

theorem mirrorTake_shown (m : Mirror) (i : Fin 256) (s : State) :
    (mirrorTake m s).anv.states[i] = BitVec.ofNat 2 (m.states.getD i.val 0) ∧
    (mirrorTake m s).brg.mirror = some m ∧ (mirrorTake m s).anv.ownerStale = m.ownerStale := by
  rw [mirrorTake]
  obtain ⟨hstates, hstale, hbrg⟩ := workerStale_shown m.ownerStale
    ((List.range 256).foldl (fun a n => setFnState n (m.states.getD n 0) a)
      (setBrg (fun b => { b with mirror := some m, mirrorMiss := 0 }) s))
  refine ⟨?_, ?_, hstale⟩
  · rw [hstates, foldl_setFnState_states (fun n => m.states.getD n 0) i _ (Nat.le_refl 256), if_pos i.isLt]
  · rw [hbrg, foldl_proj State.brg _ fun a n => (setFnState_shown ..).2]
    rfl

/-- After a mark the worker counts the manager's frames, and has its manager. -/
theorem markAccept_brg (f : Flit) (m : TimeMark) (s : State) :
    (markAccept f m s).brg.frame = m.frame ∧ (markAccept f m s).brg.mgrLost = false := by
  unfold markAccept
  extract_lets edge bad old s1 s2
  have hs2 : s2.brg.frame = m.frame ∧ s2.brg.mgrLost = false := ⟨rfl, rfl⟩
  clear_value s2
  split
  · rw [shareApply_brg]
    exact hs2
  · exact hs2

/-- Settles O56: what is heard reaches its action, on the manager and on a worker; then what each action does. -/
theorem messagesOfManagerAndWorker : Obligations.MessagesOfManagerAndWorker := by
  refine ⟨fun t f m s h => congrArg Host.Outcome.next (receive_of_role (s := s.at t) true _ _ h),
    fun t f m s h => congrArg Host.Outcome.next (receive_of_role (s := s.at t) false _ _ h),
    fun t f l s h => congrArg Host.Outcome.next (receive_of_role (s := s.at t) false _ _ h),
    fun t f b s h => congrArg Host.Outcome.next (receive_of_role (s := s.at t) false _ _ h),
    ?numbered, fun n r s _ => fwdPush_fwd_length n r s,
    fun n k b f s hfwds hwaiting _ => replyTake_of_two_waiting hfwds hwaiting, fun n m w s => statusTake_of_aligned,
    fun t f m s => exec_enumReceive_of_worker t m, fun f m s => enumWorker_brg,
    fun t f b s h => congrArg Host.Outcome.next (receive_of_role (s := s.at t) false _ _ h),
    fun t f m s => exec_timeMarkReceive_of_accepting t m, fun t f m s => exec_timeMarkReceive_of_refusing t m,
    fun t f m s h => congrArg Host.Outcome.next (receive_of_role (s := s.at t) false _ _ h),
    fun m i s _ => mirrorTake_shown m i s, markAccept_brg⟩
  case numbered =>
    intro f m s hworker hnew _ hroom _
    obtain ⟨n, hfree⟩ := exists_freeNumber hroom
    obtain ⟨hlow, hhigh, hunused⟩ := freeNumber_spec hfree
    refine ⟨n, hlow, hhigh, hunused, ?_⟩
    rw [enumManager_workers_of_new hworker hnew hfree, List.map_append]
    rfl

end Sys2Proof.Machine
end

section
/-! SUPPORT. Layer descriptors and the shadow commands (R98, R99, R505, R506): what replacing a field of a descriptor
does to its bits and fields, then what the two commands answer. -/

namespace Sys2Proof.Machine

/-! ## Fields of numbers and of descriptors -/

/-- A number with a field replaced is its part above the field, the new field and its part below. -/
theorem setFld_eq (n lo w v : Nat) :
    setFld n lo w v = 2 ^ lo * (2 ^ w * (n / 2 ^ lo / 2 ^ w) + v % 2 ^ w) + n % 2 ^ lo := by
  have hn : 2 ^ lo * (2 ^ w * (n / 2 ^ lo / 2 ^ w) + fld n lo w) + n % 2 ^ lo = n := by
    rw [fld, Nat.div_add_mod, Nat.div_add_mod]
  rw [Nat.mul_add] at hn
  rw [setFld, Nat.mul_add, Nat.mul_comm (fld n lo w), Nat.mul_comm (v % 2 ^ w)]
  omega

theorem testBit_setFld (n lo w v i : Nat) :
    (setFld n lo w v).testBit i = if lo ≤ i ∧ i < lo + w then v.testBit (i - lo) else n.testBit i := by
  rw [setFld_eq, Nat.testBit_two_pow_mul_add _ (Nat.mod_lt _ (Nat.two_pow_pos _)),
    Nat.testBit_two_pow_mul_add _ (Nat.mod_lt _ (Nat.two_pow_pos _)), Nat.testBit_div_two_pow,
    Nat.testBit_div_two_pow, Nat.testBit_mod_two_pow, Nat.testBit_mod_two_pow]
  by_cases hlow : i < lo
  · rw [if_pos hlow, if_neg (by omega), decide_eq_true hlow, Bool.true_and]
  · by_cases hin : i - lo < w
    · rw [if_neg hlow, if_pos hin, if_pos (by omega), decide_eq_true hin, Bool.true_and]
    · rw [if_neg hlow, if_neg hin, if_neg (by omega)]
      congr 1
      omega

theorem testBit_lyr (d : Layer) (lo w i : Nat) :
    (lyr d lo w).testBit i = (decide (i < w) && d.getLsbD (lo + i)) := by
  rw [lyr, fld, Nat.testBit_mod_two_pow, Nat.testBit_div_two_pow, BitVec.testBit_toNat, Nat.add_comm]

theorem lyr_congr {d x : Layer} {lo w : Nat} (h : ∀ i < w, d.getLsbD (lo + i) = x.getLsbD (lo + i)) :
    lyr d lo w = lyr x lo w := by
  refine Nat.eq_of_testBit_eq fun i => ?_
  rw [testBit_lyr, testBit_lyr]
  by_cases hi : i < w
  · rw [h i hi]
  · simp [hi]

/-- Replacing a field replaces its bits and no other. -/
theorem getLsbD_lySet (d : Layer) (lo w v : Nat) {i : Nat} (hi : i < 256) :
    (lySet d lo w v).getLsbD i = if lo ≤ i ∧ i < lo + w then v.testBit (i - lo) else d.getLsbD i := by
  rw [lySet, BitVec.getLsbD_ofNat, testBit_setFld, BitVec.testBit_toNat, decide_eq_true hi, Bool.true_and]

theorem getLsbD_lySet_outside (d : Layer) {lo w : Nat} (v : Nat) {i : Nat} (hi : i < 256)
    (h : i < lo ∨ lo + w ≤ i) : (lySet d lo w v).getLsbD i = d.getLsbD i := by
  rw [getLsbD_lySet _ _ _ _ hi, if_neg (by omega)]

theorem lyr_lySet_self (d : Layer) {lo w : Nat} (v : Nat) (h : lo + w ≤ 256) :
    lyr (lySet d lo w v) lo w = v % 2 ^ w := by
  refine Nat.eq_of_testBit_eq fun i => ?_
  rw [testBit_lyr, Nat.testBit_mod_two_pow]
  by_cases hi : i < w
  · rw [getLsbD_lySet _ _ _ _ (by omega), if_pos (by omega), Nat.add_sub_cancel_left]
  · simp [hi]

theorem lyr_lySet_other (d : Layer) {lo w a k : Nat} (v : Nat) (hin : a + k ≤ 256)
    (h : a + k ≤ lo ∨ lo + w ≤ a) : lyr (lySet d lo w v) a k = lyr d a k :=
  lyr_congr fun _ _ => getLsbD_lySet_outside d v (by omega) (by omega)

/-- The field checks of R99 read neither the opacity nor the destination: bits 56 to 119 are free. -/
theorem lyFieldsOk_congr {d x : Layer} (h : ∀ i < 256, (i < 56 ∨ 120 ≤ i) → d.getLsbD i = x.getLsbD i) :
    lyFieldsOk d = lyFieldsOk x := by
  have hfield : ∀ lo w, lo + w ≤ 56 ∨ (120 ≤ lo ∧ lo + w ≤ 256) → lyr d lo w = lyr x lo w :=
    fun lo w hlo => lyr_congr fun i _ => h (lo + i) (by omega) (by omega)
  have hsource : lySource d = lySource x := hfield 49 2 (by decide)
  have hblend : lyBlend d = lyBlend x := hfield 41 2 (by decide)
  have htransfer : lyTransfer d = lyTransfer x := hfield 39 2 (by decide)
  have hprims : lyPrims d = lyPrims x := hfield 37 2 (by decide)
  have hmatrix : lyMatrix d = lyMatrix x := hfield 35 2 (by decide)
  have hwidth : lySrcW d = lySrcW x := hfield 134 14 (by decide)
  have hheight : lySrcH d = lySrcH x := hfield 120 14 (by decide)
  have haddr : lyAddr d = lyAddr x := hfield 192 32 (by decide)
  have hformat : lyFormat d = lyFormat x := hfield 51 5 (by decide)
  simp only [lyFieldsOk, lyIsDp, hfield 0 32 (by decide), hsource, hblend, htransfer, hprims, hmatrix, hwidth, hheight,
    haddr, hformat]

/-! ## The bytes of a request -/

theorem byteAt_lt (l : List Byte) (i : Nat) : byteAt l i < 256 := (l.getD i 0).isLt

/-- A served request is answered by what its body answers. -/
theorem serve_of_answer {op : Nat} {body : Req → State → Ans} {rq : Req} {s x : State} {st : Status} {b : List Byte}
    (h : serves op rq s = true) (hbody : body rq (takeReq rq s) = (x, st, b)) :
    serve op body rq s = finishReply rq st b x := by
  rw [serve_of_serves body h, hbody]

/-! ## LAYER_DEFINE (R99, R505) -/

theorem layerDefineBody_of_ok {rq : Req} {n : Fin 16} {d : Layer} {s : State} (hn : byteAt rq.payload 0 = n.val)
    (hzero : zeroAt rq.payload 1 3 = true) (hd : leNat (slice rq.payload 4 32) = d.toNat)
    (hok : lyFieldsOk d = true) : layerDefineBody rq s = (setShadow n d s, .ok, []) := by
  simp only [layerDefineBody, hn, hzero, hd, BitVec.ofNat_toNat, BitVec.setWidth_eq, hok, Fin.ofNat_val_eq_self]
  exact if_neg (by simp)

theorem layerDefineBody_of_bad {rq : Req} {s : State}
    (h : 16 ≤ byteAt rq.payload 0 ∨ zeroAt rq.payload 1 3 = false ∨
      lyFieldsOk (BitVec.ofNat 256 (leNat (slice rq.payload 4 32))) = false) :
    layerDefineBody rq s = (s, .badParam, []) :=
  if_pos (by simpa using h)

theorem exec_layerDefine_of_answer (t : Time) {rq : Req} {s x : State} {st : Status} {b : List Byte}
    (h : serves 0x10 rq (s.at t) = true) (hbody : layerDefineBody rq (takeReq rq (s.at t)) = (x, st, b)) :
    exec (.layerDefine t rq) s = .next (finishReply rq st b x) :=
  congrArg Host.Outcome.next (serve_of_answer h hbody)

/-! ## LAYER_SHADOW (R99, R506) -/

/-- GROUPS = ALPHA. -/
theorem layerShadowBody_of_alpha {rq : Req} {n : Fin 16} {s : State} (hn : byteAt rq.payload 0 = n.val)
    (hgroup : byteAt rq.payload 1 = 4) (hhead : zeroAt rq.payload 2 2 = true) (htail : zeroAt rq.payload 17 3 = true)
    (hok : lyFieldsOk s.cmp.shadow[n] = true) :
    layerShadowBody rq s = (setShadow n (lySet s.cmp.shadow[n] 56 8 (byteAt rq.payload 16)) s, .ok, []) := by
  have hfields : lyFieldsOk (lySet s.cmp.shadow[n] 56 8 (byteAt rq.payload 16)) = true :=
    (lyFieldsOk_congr fun i hi hout => getLsbD_lySet_outside _ _ hi (by omega)).trans hok
  have h0 : bit 4 0 = false := by decide
  have h1 : bit 4 1 = false := by decide
  have h2 : bit 4 2 = true := by decide
  have hlt : ¬16 ≤ n.val := Nat.not_le.2 n.isLt
  simp only [layerShadowBody, hn, hgroup, h0, h1, h2, Fin.ofNat_val_eq_self, if_true, Bool.false_eq_true, if_false]
  exact if_neg (by simp [-Fin.getElem_fin, hlt, hhead, htail, hfields])

/-- GROUPS = POSITION. -/
theorem layerShadowBody_of_position {rq : Req} {n : Fin 16} {s : State} (hn : byteAt rq.payload 0 = n.val)
    (hgroup : byteAt rq.payload 1 = 2) (hhead : zeroAt rq.payload 2 2 = true) (htail : zeroAt rq.payload 17 3 = true)
    (hx : le16 rq.payload 12 < 16384) (hy : le16 rq.payload 14 < 16384) (hok : lyFieldsOk s.cmp.shadow[n] = true) :
    layerShadowBody rq s = (setShadow n
      (lySet (lySet s.cmp.shadow[n] 106 14 (le16 rq.payload 12)) 92 14 (le16 rq.payload 14)) s, .ok, []) := by
  have hfields :
      lyFieldsOk (lySet (lySet s.cmp.shadow[n] 106 14 (le16 rq.payload 12)) 92 14 (le16 rq.payload 14)) = true :=
    (lyFieldsOk_congr fun i hi hout => (getLsbD_lySet_outside _ _ hi (by omega)).trans
      (getLsbD_lySet_outside _ _ hi (by omega))).trans hok
  have h0 : bit 2 0 = false := by decide
  have h1 : bit 2 1 = true := by decide
  have h2 : bit 2 2 = false := by decide
  have hlt : ¬16 ≤ n.val := Nat.not_le.2 n.isLt
  simp only [layerShadowBody, hn, hgroup, h0, h1, h2, Fin.ofNat_val_eq_self, if_true, Bool.false_eq_true, if_false]
  exact if_neg (by simp [-Fin.getElem_fin, hlt, hhead, htail, hfields, hx, hy])

theorem exec_layerShadow_of_answer (t : Time) {rq : Req} {s x : State} {st : Status} {b : List Byte}
    (h : serves 0x11 rq (s.at t) = true) (hbody : layerShadowBody rq (takeReq rq (s.at t)) = (x, st, b)) :
    exec (.layerShadow t rq) s = .next (finishReply rq st b x) :=
  congrArg Host.Outcome.next (serve_of_answer h hbody)

/-- Settles O23: the two answers of LAYER_DEFINE, then the bits that each group of LAYER_SHADOW leaves alone. -/
theorem layerDefineAndShadow : Obligations.LayerDefineAndShadow := by
  refine ⟨fun t rq n d s h hn hzero hd hok => exec_layerDefine_of_answer t h (layerDefineBody_of_ok hn hzero hd hok),
    fun t rq s h hbad => exec_layerDefine_of_answer t h (layerDefineBody_of_bad hbad), ?alpha, ?position⟩
  case alpha =>
    intro t rq n s h hn hgroup hhead htail hok
    refine ⟨_, exec_layerShadow_of_answer t h (layerShadowBody_of_alpha hn hgroup hhead htail hok), ?opacity, ?rest⟩
    case opacity => exact (lyr_lySet_self _ _ (by decide)).trans (Nat.mod_eq_of_lt (byteAt_lt ..))
    case rest => exact fun i hi hout => getLsbD_lySet_outside _ _ hi (by omega)
  case position =>
    intro t rq n s h hn hgroup hhead htail hx hy hok
    refine ⟨_, exec_layerShadow_of_answer t h (layerShadowBody_of_position hn hgroup hhead htail hx hy hok),
      ?left, ?top, ?rest⟩
    case left =>
      calc lyr _ 106 14 = lyr (lySet _ 106 14 (le16 rq.payload 12)) 106 14 :=
            lyr_lySet_other _ _ (by decide) (by decide)
        _ = le16 rq.payload 12 := (lyr_lySet_self _ _ (by decide)).trans (Nat.mod_eq_of_lt hx)
    case top => exact (lyr_lySet_self _ _ (by decide)).trans (Nat.mod_eq_of_lt hy)
    case rest =>
      exact fun i hi hout => (getLsbD_lySet_outside _ _ hi (by omega)).trans
        (getLsbD_lySet_outside _ _ hi (by omega))

end Sys2Proof.Machine
end

section
/-! SUPPORT. Fences and the not-ready rule (R116-R119): when a buffer is ready, and what one layer makes of a frame
start in each of its cases. -/

namespace Sys2Proof.Machine

/-! ## Fences (R116, R117) -/

theorem writeFence_fence_self (n : Fin 16) (v : Word) (s : State) : (writeFence n v s).cmp.fence[n] = v :=
  upd_self ..

theorem writeFence_fence_other {n m : Fin 16} (v : Word) (s : State) (h : m ≠ n) :
    (writeFence n v s).cmp.fence[m] = s.cmp.fence[m] :=
  upd_other _ _ _ _ h.symm

theorem exec_cmpFenceWrite_of_linkUp (t : Time) (n : Fin 16) (v : Word) {s : State} (h : s.hst.linkUp = true) :
    exec (.cmpFenceWrite t n v) s = .next (writeFence n v (s.at t)) :=
  if_pos (c := (s.at t).hst.linkUp = true) h

theorem exec_cmpFenceWrite_of_linkDown (t : Time) (n : Fin 16) (v : Word) {s : State} (h : s.hst.linkUp = false) :
    exec (.cmpFenceWrite t n v) s = .next (s.at t) :=
  if_neg (c := (s.at t).hst.linkUp = true) (ne_true_of_eq_false h)

/-- The most significant bit of the difference is its sign. -/
theorem fenceReady_iff (v : Word) (fence : Nat) :
    fenceReady v fence = true ↔ 0 ≤ (v - BitVec.ofNat 32 fence).toInt := by
  rw [fenceReady, beq_iff_eq, BitVec.msb_eq_false_iff_two_mul_lt, BitVec.toInt_pos_iff]

theorem sampledFence_of_earlier {n : Fin 16} {s : State} (h : s.cmp.fenceAt[n] < s.now) :
    sampledFence s n = s.cmp.fence[n] :=
  if_neg fun hsame => Nat.ne_of_lt h hsame.1

theorem layerReady_of_hbm (s : State) (n : Fin 16) {d : Layer} (h : lyIsDp d = false) :
    layerReady s n d = fenceReady (sampledFence s n) (lyFence d) :=
  if_neg (ne_true_of_eq_false h)

/-- Settles O24: a write by the link and by PARAM_WRITE is one update; readiness is the sign of a difference. -/
theorem fencesMakeBuffersReady : Obligations.FencesMakeBuffersReady := by
  refine ⟨?link, ?param, ?ready, fun t n v s => exec_cmpFenceWrite_of_linkDown t n v, ?sign⟩
  case link =>
    intro t n v s hup
    exact ⟨_, exec_cmpFenceWrite_of_linkUp t n v hup, writeFence_fence_self n v (s.at t),
      fun m => writeFence_fence_other v (s.at t), rfl, rfl, rfl, rfl, rfl⟩
  case param =>
    intro n v s
    exact ⟨_, paramWrite_fence n v s, writeFence_fence_self n v s, fun m => writeFence_fence_other v s, rfl, rfl⟩
  case ready =>
    intro n d s hhbm hearlier
    rw [layerReady_of_hbm s n hhbm, sampledFence_of_earlier hearlier, fenceReady_iff]
  case sign =>
    intro v f
    rw [fenceReady_iff, BitVec.ofNat_toNat, BitVec.setWidth_eq]

/-! ## What a layer shows -/

@[simp] theorem setShown_evt (n : Fin 16) (o : Option Shown) (b : Bool) (s : State) :
    (setShown n o b s).evt = s.evt := rfl

@[simp] theorem setShown_notReady (n : Fin 16) (o : Option Shown) (b : Bool) (s : State) :
    (setShown n o b s).cmp.notReady = s.cmp.notReady := rfl

@[simp] theorem setShown_shown_self (n : Fin 16) (o : Option Shown) (b : Bool) (s : State) :
    (setShown n o b s).cmp.shown[n] = o :=
  upd_self ..

@[simp] theorem setShown_transparent_self (n : Fin 16) (o : Option Shown) (b : Bool) (s : State) :
    (setShown n o b s).cmp.transparent.getLsbD n.val = b := by
  have hbit : (BitVec.ofNat 16 (2 ^ n.val)).getLsbD n.val = true := by
    rw [BitVec.getLsbD_ofNat, Nat.testBit_two_pow_self, decide_eq_true n.isLt, Bool.true_and]
  cases b with
  | true => exact (BitVec.getLsbD_or ..).trans (by rw [hbit, Bool.or_true])
  | false => exact (BitVec.getLsbD_and ..).trans (by rw [BitVec.getLsbD_not, hbit, Bool.not_true, Bool.and_false,
      Bool.and_false])

/-- A release changes the release registers alone. -/
theorem releaseBuf_eq (n : Fin 16) (o : Option Shown) (s : State) :
    ∃ r, releaseBuf n o s = { s with cmp := { s.cmp with release := r } } := by
  unfold releaseBuf
  split
  · split
    · exact ⟨_, rfl⟩
    · exact ⟨s.cmp.release, rfl⟩
  · exact ⟨s.cmp.release, rfl⟩

@[simp] theorem releaseBuf_evt (n : Fin 16) (o : Option Shown) (s : State) : (releaseBuf n o s).evt = s.evt := by
  obtain ⟨r, h⟩ := releaseBuf_eq n o s
  rw [h]

@[simp] theorem releaseBuf_notReady (n : Fin 16) (o : Option Shown) (s : State) :
    (releaseBuf n o s).cmp.notReady = s.cmp.notReady := by
  obtain ⟨r, h⟩ := releaseBuf_eq n o s
  rw [h]

/-! ## One layer at a frame start (R118) -/

theorem layerFrame_of_disabled {n : Fin 16} {s : State} (h : lyEnable s.cmp.live[n] = false) :
    layerFrame n s = setShown n none true (releaseBuf n s.cmp.shown[n] s) :=
  if_pos (by rw [h]; rfl)

theorem layerFrame_of_ready {n : Fin 16} {s : State} (henabled : lyEnable s.cmp.live[n] = true)
    (hready : layerReady s n s.cmp.live[n] = true) :
    ∃ x, layerFrame n s = setShown n (some (shownOf s s.cmp.live[n])) false x ∧
      x.cmp.notReady = s.cmp.notReady := by
  refine ⟨_, (if_neg (by rw [henabled]; decide)).trans (if_pos hready), ?_⟩
  simp only [apply_ite State.cmp, apply_ite Cmp.notReady, releaseBuf_notReady, ite_self]

/-- The state in which layer `n` has been counted as not ready, and the event raised. -/
def notReadyCounted (n : Fin 16) (s : State) : State :=
  raise evCmpLayerNotReady (2 ^ n.val) { s with cmp := { s.cmp with
    notReady := updWith s.cmp.notReady n (satInc 16) } }

theorem notReadyCounted_notReady (n : Fin 16) (s : State) :
    (notReadyCounted n s).cmp.notReady[n] = satInc 16 s.cmp.notReady[n] :=
  updWith_self ..

theorem notReadyCounted_evt (n : Fin 16) (s : State) :
    (notReadyCounted n s).evt = (raise evCmpLayerNotReady (2 ^ n.val) s).evt := rfl

theorem layerFrame_of_dropped {n : Fin 16} {s : State} (henabled : lyEnable s.cmp.live[n] = true)
    (hready : layerReady s n s.cmp.live[n] = false) (hretain : lyRetain s.cmp.live[n] = false) :
    layerFrame n s = setShown n none true (releaseBuf n s.cmp.shown[n] (notReadyCounted n s)) :=
  (if_neg (by rw [henabled]; decide)).trans
    ((if_neg (ne_true_of_eq_false hready)).trans (if_pos (by rw [hretain]; rfl)))

/-- With RETAIN set the layer keeps its previous buffer, and shows it if the descriptor can read it. -/
theorem layerFrame_of_retained {n : Fin 16} {s : State} (henabled : lyEnable s.cmp.live[n] = true)
    (hready : layerReady s n s.cmp.live[n] = false) (hretain : lyRetain s.cmp.live[n] = true) :
    ∃ hidden, layerFrame n s = setShown n s.cmp.shown[n] hidden (notReadyCounted n s) ∧
      (hidden = false ↔ ∃ b, s.cmp.shown[n] = some b ∧ b.format = (shownOf s s.cmp.live[n]).format ∧
        b.srcW = lySrcW s.cmp.live[n] ∧ b.srcH = lySrcH s.cmp.live[n]) := by
  have hframe : layerFrame n s = _ := (if_neg (by rw [henabled]; decide)).trans
    ((if_neg (ne_true_of_eq_false hready)).trans (if_neg (by rw [hretain]; decide)))
  rw [hframe]
  split
  · next b hold => exact ⟨_, by rw [hold]; rfl, by simp [hold, and_assoc]⟩
  · next hold => exact ⟨true, by rw [hold]; rfl, by simp [hold]⟩

/-- Settles O25: a layer that is ready, one that is not with RETAIN clear and set, and one that is not enabled. -/
theorem notReadyRule : Obligations.NotReadyRule := by
  refine ⟨?ready, ?notReady, ?disabled⟩
  case ready =>
    intro n s henabled hready
    obtain ⟨x, hframe, hcount⟩ := layerFrame_of_ready henabled hready
    rw [hframe]
    exact ⟨setShown_shown_self .., setShown_transparent_self .., hcount⟩
  case notReady =>
    intro n s henabled hready
    cases hretain : lyRetain s.cmp.live[n] with
    | false =>
      rw [layerFrame_of_dropped henabled hready hretain]
      rw [setShown_notReady, releaseBuf_notReady, notReadyCounted_notReady, setShown_evt, releaseBuf_evt,
        notReadyCounted_evt, setShown_transparent_self]
      exact ⟨rfl, rfl, by simp, fun h => absurd h (by decide)⟩
    | true =>
      obtain ⟨hidden, hframe, hhidden⟩ := layerFrame_of_retained henabled hready hretain
      rw [hframe, setShown_notReady, notReadyCounted_notReady, setShown_transparent_self, setShown_shown_self]
      exact ⟨rfl, rfl, hhidden.trans (and_iff_right rfl).symm, fun _ => rfl⟩
  case disabled =>
    intro n s hdisabled
    rw [layerFrame_of_disabled hdisabled]
    exact ⟨setShown_shown_self .., setShown_transparent_self ..⟩

end Sys2Proof.Machine
end

section
/-! SUPPORT. The DP inputs (R101, R102, R120, R366, R546): the answers of their four rows, with the fast domains up and
down. -/

namespace Sys2Proof.Machine

@[simp] theorem fastUp_at (s : State) (t : Time) : (s.at t).fastUp = s.fastUp := rfl

/-! ## A lock (R102) -/

/-- A stream within 16.0 GB/s of stored rate. -/
theorem exec_dpLinkLock_of_stored (t : Time) (i : Fin 2) (r : Nat) (d : Bool) {w h f : Nat} {c : DpColour} {s : State}
    (hup : s.fastUp = true) (hrate : w * h * f * dpBytes c ≤ 16000000000 * 1000) :
    exec (.dpLinkLock t i r d w h f c) s = .next (judgeDp i (setDp i (fun x => { x with
      locked := true, rate := r, dsc := d, w := w, h := h, col := c, tooFast := false }) (s.at t))) := by
  show execDpLinkLock t i r d w h f c s = _
  simp only [execDpLinkLock, fastUp_at, hup, decide_eq_false (Nat.not_lt.2 hrate), Bool.not_true, Bool.false_eq_true,
    if_false]

/-- A stream beyond 16.0 GB/s of stored rate. -/
theorem exec_dpLinkLock_of_tooFast (t : Time) (i : Fin 2) (r : Nat) (d : Bool) {w h f : Nat} {c : DpColour} {s : State}
    (hup : s.fastUp = true) (hrate : 16000000000 * 1000 < w * h * f * dpBytes c) :
    exec (.dpLinkLock t i r d w h f c) s = .next (raise evIngDpLost (2 ^ i.val) (setDp i (fun x => { x with
      locked := true, rate := r, dsc := d, w := w, h := h, col := c, tooFast := true, wasReady := false })
        (s.at t))) := by
  show execDpLinkLock t i r d w h f c s = _
  simp only [execDpLinkLock, fastUp_at, hup, decide_eq_true hrate, Bool.not_true, Bool.false_eq_true, if_true, if_false]

/-! ## A complete frame (R101, R120, R366) -/

/-- A locked stream within the limit: its frame is stored, or had a failed write. -/
theorem exec_dpFrameComplete_of_locked (t : Time) {i : Fin 2} (p : List Nat) {s : State} (hup : s.fastUp = true)
    (hlocked : s.ing.dp[i].locked = true) (hslow : s.ing.dp[i].tooFast = false) :
    exec (.dpFrameComplete t ⟨i, p⟩) s =
      if s.ing.dp[i].bad = true then .next (setDp i (fun x => { x with bad := false }) (s.at t))
      else .next (judgeDp i (setDp i (fun x => { x with
        frameAt := some (max s.now t), stale := false, newest := dpFree s i,
        bufs := upd x.bufs (dpFree s i) (some (x.w, x.col)) })
          (setGrn (fun g => g.store (dpAddr i (dpFree s i)) (dpFrameBytes s.ing.dp[i] p)) (s.at t)))) :=
  if_neg (by simp [-Fin.getElem_fin, hup, hlocked, hslow])

theorem exec_dpFrameComplete_of_fastDown (t : Time) (f : DpFrame) {s : State} (h : s.fastUp = false) :
    exec (.dpFrameComplete t f) s = .next (s.at t) :=
  if_pos (.inl (by simp [h]))

/-! ## Loss of lock and of frames (R120) -/

theorem exec_dpLinkLoss_of_fastUp (t : Time) (i : Fin 2) {s : State} (h : s.fastUp = true) :
    exec (.dpLinkLoss t i) s = .next (judgeDp i (setDp i (fun x => { x with locked := false }) (s.at t))) :=
  if_neg (by simp [h])

theorem exec_dpLinkLoss_of_fastDown (t : Time) (i : Fin 2) {s : State} (h : s.fastUp = false) :
    exec (.dpLinkLoss t i) s = .next (s.at t) :=
  if_pos (by simp [h])

theorem exec_dpStaleTimeout_of_due {t a : Time} {i : Fin 2} {s : State} (hup : s.fastUp = true)
    (hframe : s.ing.dp[i].frameAt = some a) (hdue : a + s.ing.dpStale.toNat * ms ≤ t) :
    exec (.dpStaleTimeout t i) s = .next (judgeDp i (setDp i (fun x => { x with stale := true }) (s.at t))) := by
  have hpast : a + s.ing.dpStale.toNat * ms ≤ max s.now t := Nat.le_trans hdue (Nat.le_max_right ..)
  show execDpStaleTimeout t i s = _
  simp only [execDpStaleTimeout, State_at_ing, State_at_now, hframe, fastUp_at, hup]
  exact if_neg (by simp [hpast])

theorem exec_dpStaleTimeout_of_fastDown (t : Time) (i : Fin 2) {s : State} (h : s.fastUp = false) :
    exec (.dpStaleTimeout t i) s = .next (s.at t) :=
  if_pos (.inl (by simp [h]))

/-! ## Readiness is judged (R546) -/

/-- Judging an input notes whether it is ready; the rest is an event. -/
theorem judgeDp_ing (i : Fin 2) (s : State) : (judgeDp i s).ing =
    { s.ing with dp := updWith s.ing.dp i fun d => { d with wasReady := dpReady s i } } := by
  rw [judgeDp]
  dsimp only
  split
  · exact raise_ing ..
  · split
    · exact raise_ing ..
    · rfl

theorem judgeDp_wasReady (i : Fin 2) (s : State) : (judgeDp i s).ing.dp[i].wasReady = dpReady s i := by
  rw [judgeDp_ing, updWith_self]

/-- Settles O26: one lemma for each row and for each answer it can give. -/
theorem dpInputs : Obligations.DpInputs :=
  ⟨fun t i r _ _ _ _ d _ => exec_dpLinkLock_of_stored t i r d,
    fun t i r _ _ _ _ d _ => exec_dpLinkLock_of_tooFast t i r d,
    fun _ => rfl,
    fun t _ p _ hup hlocked hslow hgood =>
      (exec_dpFrameComplete_of_locked t p hup hlocked hslow).trans (if_neg (ne_true_of_eq_false hgood)),
    fun t _ p _ hup hlocked hslow hbad =>
      (exec_dpFrameComplete_of_locked t p hup hlocked hslow).trans (if_pos hbad),
    fun t i _ => exec_dpLinkLoss_of_fastUp t i,
    fun _ _ _ _ => exec_dpStaleTimeout_of_due,
    fun t i _ _ h => ⟨exec_dpFrameComplete_of_fastDown t _ h, exec_dpLinkLoss_of_fastDown t i h,
      exec_dpStaleTimeout_of_fastDown t i h⟩,
    judgeDp_wasReady⟩

end Sys2Proof.Machine
end

section
/-! SUPPORT. COMMIT and COMMIT_STATUS (R109-R114, R493, R507, R508): what arming makes of the composition's record, and
the answers of the two commands. -/

namespace Sys2Proof.Machine

/-! ## A commit is armed (R111) -/

@[simp] theorem gamutValidated_cmp (b : GamutBank) (e : Fin 4) (s : State) : (gamutValidated b e s).cmp = s.cmp :=
  setClw_cmp ..

@[simp] theorem sheafValidated_cmp (d : Word) (flagged : Bool) (e : Fin 4) (s : State) :
    (sheafValidated d flagged e s).cmp = s.cmp := by
  rw [sheafValidated]
  split
  · exact setThrE_cmp ..
  · rfl

/-- The composition's record after arming: the snapshot is that of the shadow, and the live set stays. -/
theorem commitArm_cmp (f : Flags) (frames : Nat) (inBarrier : Bool) (s : State) :
    ∃ z, (commitArm f frames inBarrier s).cmp = { s.cmp with
        armed := some z, seq := (s.cmp.seq + 1) % 65536, phase := if inBarrier then .barrier else .armed,
        applyFrame := (s.cmp.frameCount + frames) % 2 ^ 32 } ∧
      z.layers = s.cmp.shadow ∧ z.canvas = s.cmp.canvasSh ∧ z.accepted = s.now ∧ z.inBarrier = inBarrier := by
  unfold commitArm
  extract_lets apply s0 s1 snap
  have hs0 : s0.cmp = s.cmp := forEng_proj State.cmp _ (fun e a => by
    split
    · exact gamutValidated_cmp ..
    · rfl) s
  have hs1 : s1.cmp = s.cmp := (forEng_proj State.cmp _ (fun e a => sheafValidated_cmp ..) s0).trans hs0
  refine ⟨snap, ?_, rfl, rfl, rfl, rfl⟩
  rw [setCmp_cmp, hs1]

/-! ## A local COMMIT (R109, R113, R507) -/

section
variable {rq : Req} {s : State} (hpre : commitPre rq s = none)
include hpre

theorem commitLocal_of_armed {z : Snapshot} (hz : s.cmp.armed = some z) : commitLocal rq s = (s, .busy, []) := by
  simp only [commitLocal, hpre, hz, Option.isSome_some, if_true, deny]

theorem commitLocal_of_reject {r : Reject} (hfree : s.cmp.armed = none)
    (hreject : commitReject (commitFlags rq.payload) s = some r) :
    commitLocal rq s =
      ({ s with cmp := { s.cmp with result := 2, rejection := r.bytes } }, .commitRejected, r.bytes) := by
  have hidle : ¬s.cmp.armed.isSome = true := by simp [hfree]
  simp only [commitLocal, hpre, if_neg hidle, hreject]
  rfl

theorem commitLocal_of_valid (hfree : s.cmp.armed = none)
    (hvalid : commitReject (commitFlags rq.payload) s = none) :
    ∃ x, x = commitArm (commitFlags rq.payload) (framesUntil s (200 * us)) false s ∧
      commitLocal rq s = (x, .ok, leBytes 2 x.cmp.seq ++ leBytes 4 x.cmp.applyFrame) := by
  refine ⟨_, rfl, ?_⟩
  simp only [commitLocal, hpre, hfree, Option.isSome_none, Bool.false_eq_true, if_false, hvalid]

/-- Outside STANDBY, for this device and with no barrier, a COMMIT is a local one. -/
theorem commitBody_of_local (hpwr : s.hth.pwr ≠ .standby) (hlocal : rqForward rq = false)
    (hbarrier : s.brg.barrier = none) : commitBody rq s = commitLocal rq s := by
  simp only [commitBody, hpre, deferrable, if_neg hpwr, commitRun, hlocal, hbarrier, Bool.false_and,
    Bool.false_eq_true, if_false, Option.isSome_none]

/-- In STANDBY a COMMIT waits for READY (R493). -/
theorem commitBody_of_standby (hpwr : s.hth.pwr = .standby) :
    commitBody rq s = ({ s with hst := { s.hst with deferred := s.hst.deferred ++ [rq] } }, .pending, []) := by
  simp only [commitBody, hpre, deferrable, if_pos hpwr]

end

theorem exec_commit_of_answer (t : Time) {rq : Req} {s x : State} {st : Status} {b : List Byte}
    (h : serves 0x12 rq (s.at t) = true) (hbody : commitBody rq (takeReq rq (s.at t)) = (x, st, b)) :
    exec (.commit t rq) s = .next (finishReply rq st b x) :=
  congrArg Host.Outcome.next (serve_of_answer h hbody)

/-- A COMMIT that is served in LIT or READY with no barrier is answered by its local meaning. -/
theorem exec_commit_of_local (t : Time) {rq : Req} {s x : State} {st : Status} {b : List Byte}
    (h : serves 0x12 rq (s.at t) = true) (hpre : commitPre rq s = none) (hpwr : s.hth.pwr = .lit ∨ s.hth.pwr = .ready)
    (hbarrier : s.brg.barrier = none) (hanswer : commitLocal rq (takeReq rq (s.at t)) = (x, st, b)) :
    exec (.commit t rq) s = .next (finishReply rq st b x) := by
  obtain ⟨-, -, -, -, -, hlocal⟩ := (serves_iff ..).1 h
  have hup : s.hth.pwr ≠ .standby := by
    intro hstandby
    rw [hstandby] at hpwr
    exact absurd hpwr (by decide)
  exact exec_commit_of_answer t h ((commitBody_of_local (s := takeReq rq (s.at t)) hpre hup hlocal hbarrier).trans
    hanswer)

/-! ## COMMIT_STATUS (R114, R508) -/

theorem exec_commitStatus_of_serves (t : Time) {rq : Req} {s : State} (h : serves 0x13 rq (s.at t) = true) :
    exec (.commitStatus t rq) s = .next (finishReply rq .ok (leBytes 4 (commitState s) ++ leBytes 4 s.cmp.applyFrame
      ++ s.cmp.rejection ++ s.brg.lastStatuses.map (BitVec.ofNat 8)) (takeReq rq (s.at t))) :=
  congrArg Host.Outcome.next (serve_of_answer (body := commitStatusBody) h rfl)

/-- Settles O27: the four answers of COMMIT, and COMMIT_STATUS. -/
theorem commitIsAcceptedAndReported : Obligations.CommitIsAcceptedAndReported := by
  refine ⟨?accepted, ?rejected, ?busy, ?pending, fun t rq s => exec_commitStatus_of_serves t⟩
  case accepted =>
    intro t rq s h hpre hpwr hbarrier hfree hvalid
    obtain ⟨x, hx, hanswer⟩ := commitLocal_of_valid (s := takeReq rq (s.at t)) hpre hfree hvalid
    obtain ⟨z, hcmp, hlayers, hcanvas, haccepted, hlocal⟩ :=
      commitArm_cmp (commitFlags rq.payload) (framesUntil (takeReq rq (s.at t)) (200 * us)) false (takeReq rq (s.at t))
    refine ⟨x, exec_commit_of_local t h hpre hpwr hbarrier hanswer, ?_⟩
    rw [hx, hcmp]
    exact ⟨rfl, rfl, rfl, rfl, z, rfl, hlayers, hcanvas, haccepted, hlocal⟩
  case rejected =>
    intro t rq r s h hpre hpwr hbarrier hfree hreject
    exact exec_commit_of_local t h hpre hpwr hbarrier
      (commitLocal_of_reject (s := takeReq rq (s.at t)) hpre hfree hreject)
  case busy =>
    intro t rq z s h hpre hpwr hbarrier hz
    exact exec_commit_of_local t h hpre hpwr hbarrier (commitLocal_of_armed (s := takeReq rq (s.at t)) hpre hz)
  case pending =>
    intro t rq s h hpre hpwr
    exact exec_commit_of_answer t h (commitBody_of_standby (s := takeReq rq (s.at t)) hpre hpwr)

end Sys2Proof.Machine
end

section
/-! SUPPORT. Who carries the telltales (R145, R148) and the verdict on each frame (R141, R144): what judging the holder,
a failed verification and a step of probation make of the Anvil's record, and the answers of FRAME_VERDICT. -/

namespace Sys2Proof.Machine

/-! ## The fallback conditions (R145) -/

theorem fallback_ne_zero_of_verifyFailed {s : State} (h : s.anv.verifyFailed = true) : fallback s ≠ 0 := by
  simp only [fallback, h, if_true]
  split <;> decide

theorem fallback_ne_zero_of_ownerStale {s : State} (h : s.anv.ownerStale = true) : fallback s ≠ 0 := by
  simp only [fallback, h, if_true]
  split
  · decide
  · split <;> decide

/-- Judging the holder changes the four fields that name it, and the events. -/
theorem judgeHolder_eq (s : State) : ∃ h r p n e, judgeHolder s = { s with
    anv := { s.anv with holderMatrix := h, reason := r, probation := p, probCount := n }, evt := e } := by
  rw [judgeHolder]
  dsimp only
  split
  · exact ⟨_, _, _, _, _, rfl⟩
  · cases s.anv.holderMatrix <;> exact ⟨_, _, _, _, _, rfl⟩

theorem judgeHolder_anv_of_fallback {s : State} (h : fallback s ≠ 0) : (judgeHolder s).anv =
    { s.anv with holderMatrix := true, reason := fallback s, probation := false, probCount := 0 } := by
  rw [judgeHolder]
  dsimp only
  rw [if_neg h, raiseIf_anv, setAnv_anv]

theorem judgeHolder_anv_of_none {s : State} (h : fallback s = 0) : (judgeHolder s).anv = { s.anv with
    reason := 0, probation := s.anv.holderMatrix,
    probCount := if s.anv.holderMatrix && s.anv.probation then s.anv.probCount else 0 } := by
  rw [judgeHolder]
  dsimp only
  rw [if_pos h, setAnv_anv]

/-- A failed verification is a fallback condition: the matrix takes the telltales (R144, R145). -/
theorem verifyFail_anv (cause engine : Nat) (s : State) : ∃ n r, (verifyFail cause engine s).anv = { s.anv with
    lastFail := cause, failsInLit := n, verifyFailed := true, holderMatrix := true, reason := r,
    probation := false, probCount := 0 } := by
  rw [verifyFail, judgeHolder_anv_of_fallback (fallback_ne_zero_of_verifyFailed (by rw [raise_anv, setAnv_anv]))]
  exact ⟨_, _, rfl⟩

/-! ## Probation (R148) -/

/-- A frame without a FAIL counts for nothing but probation. -/
theorem probationStep_anv (s : State) : ∃ p n h, (probationStep s).anv =
    { s.anv with probation := p, probCount := n, holderMatrix := h } := by
  rw [probationStep]
  split
  · exact ⟨_, _, _, rfl⟩
  · split <;> exact ⟨_, _, _, rfl⟩

theorem probationStep_anv_of_eighth {s : State} (hprobation : s.anv.probation = true) (h : 7 ≤ s.anv.probCount) :
    (probationStep s).anv = { s.anv with probation := false, probCount := 0, holderMatrix := false } := by
  rw [probationStep, if_neg (by simp [hprobation]), if_pos (Nat.succ_le_succ h), raise_anv, setAnv_anv]

theorem probationStep_anv_of_earlier {s : State} (hprobation : s.anv.probation = true) (h : s.anv.probCount < 7) :
    (probationStep s).anv = { s.anv with probCount := s.anv.probCount + 1 } := by
  rw [probationStep, if_neg (by simp [hprobation]), if_neg (by omega), setAnv_anv]

/-! ## FRAME_VERDICT (R141, R144) -/

@[simp] theorem recordVerdict_anv (v : Nat) (s : State) : (recordVerdict v s).anv =
    { s.anv with verdict := v, verdictFrame := (s.cmp.frameCount + (2 ^ 32 - 1)) % 2 ^ 32 } := rfl

/-- The state in which a frame's fault has been counted, before verification is judged. -/
def faultCounted (s : State) : State :=
  setAnv (fun a => { a with failRun := min 15 (a.failRun + 1), probation := false, probCount := 0 }) (recordVerdict 2 s)

section
variable (t : Time) (m : List Meas) {s : State}

theorem exec_frameVerdict_of_not_lit (h : s.hth.pwr ≠ .lit) : exec (.frameVerdict t m) s = .next (s.at t) :=
  if_pos (by simpa using h)

section
variable (hlit : s.hth.pwr = .lit)
include hlit

theorem exec_frameVerdict_of_nothing_on (hoff : s.anv.onEnded = false) :
    exec (.frameVerdict t m) s = .next (probationStep (recordVerdict 0 (s.at t))) :=
  (if_neg (by simp [hlit])).trans (if_pos (by simp [hoff]))

variable (hon : s.anv.onEnded = true)
include hon

theorem exec_frameVerdict_of_pass (hpass : frameFault (s.at t) m = none) :
    exec (.frameVerdict t m) s
      = .next (probationStep (setAnv (fun a => { a with failRun := 0 }) (recordVerdict 1 (s.at t)))) := by
  refine (if_neg (by simp [hlit])).trans ((if_neg (by simp [hon])).trans ?_)
  rw [hpass]

/-- A fault fails verification when the run of faults has reached FAIL_FRAMES. -/
theorem exec_frameVerdict_of_fault {c e : Nat} (hfault : frameFault (s.at t) m = some (c, e)) :
    exec (.frameVerdict t m) s =
      if wfl s.anv.verifyConfig 4 2 ≤ min 15 (s.anv.failRun + 1) then .next (verifyFail c e (faultCounted (s.at t)))
      else .next (faultCounted (s.at t)) := by
  refine (if_neg (by simp [hlit])).trans ((if_neg (by simp [hon])).trans ?_)
  rw [hfault]
  rfl

end
end

/-- Settles O46: the holder with and without a condition, the steps of probation, then the four answers of
FRAME_VERDICT. -/
theorem telltalesAndVerdicts : Obligations.TelltalesAndVerdicts := by
  refine ⟨?condition, ?noCondition, ?eighth, ?earlier, fun t m s => exec_frameVerdict_of_not_lit t m, ?nothingOn,
    ?pass, ?fault⟩
  case condition =>
    intro s h
    rw [judgeHolder_anv_of_fallback h]
    exact ⟨rfl, rfl, rfl⟩
  case noCondition =>
    intro s h
    rw [judgeHolder_anv_of_none h]
    exact ⟨rfl, rfl, rfl⟩
  case eighth =>
    intro s hprobation hcount
    rw [probationStep_anv_of_eighth hprobation hcount.ge]
    exact ⟨rfl, rfl⟩
  case earlier =>
    intro s hprobation hcount
    rw [probationStep_anv_of_earlier hprobation hcount]
    exact ⟨rfl, rfl⟩
  case nothingOn =>
    intro t m s hlit hoff
    refine ⟨_, exec_frameVerdict_of_nothing_on t m hlit hoff, ?_⟩
    obtain ⟨p, n, h, hanv⟩ := probationStep_anv (recordVerdict 0 (s.at t))
    rw [hanv]
    exact ⟨rfl, rfl, rfl⟩
  case pass =>
    intro t m s hlit hon hpass
    refine ⟨_, exec_frameVerdict_of_pass t m hlit hon hpass, ?_⟩
    obtain ⟨p, n, h, hanv⟩ :=
      probationStep_anv (setAnv (fun a => { a with failRun := 0 }) (recordVerdict 1 (s.at t)))
    rw [hanv]
    exact ⟨rfl, rfl, rfl⟩
  case fault =>
    intro t m c e s hlit hon hfault
    rw [exec_frameVerdict_of_fault t m hlit hon hfault]
    split
    · next hrun =>
      obtain ⟨n, r, hanv⟩ := verifyFail_anv c e (faultCounted (s.at t))
      refine ⟨_, rfl, ?_⟩
      rw [hanv]
      exact ⟨rfl, rfl, rfl, fun _ => ⟨rfl, rfl, rfl⟩, fun hshort => absurd hrun (Nat.not_le_of_lt hshort)⟩
    · next hshort => exact ⟨_, rfl, rfl, rfl, rfl, fun hrun => absurd hrun hshort, fun _ => rfl⟩

end Sys2Proof.Machine
end

section
/-! SUPPORT. Owner sessions (R128, R131, R132, R138, R509): the answers of ANVIL_CLAIM and of the Anvil's timers. -/

namespace Sys2Proof.Machine

/-! ## What is still valid (R132) -/

theorem validNonce_of_early {s : State} {n : List Byte} {d : Time} (h : s.anv.nonce = some (n, d)) (hd : s.now < d) :
    validNonce s = some n := by
  simp only [validNonce, h, if_pos hd]

theorem validNonce_of_late {s : State} {n : List Byte} {d : Time} (h : s.anv.nonce = some (n, d)) (hd : ¬s.now < d) :
    validNonce s = none := by
  simp only [validNonce, h, if_neg hd]

theorem lockedOut_of_lockout {s : State} {d : Time} (h : s.anv.lockout = some d) :
    lockedOut s = decide (s.now < d) := by
  simp only [lockedOut, h]

/-! ## ANVIL_CLAIM (R131, R132, R509) -/

theorem exec_anvilClaim_of_answer (t : Time) {rq : Req} {s x : State} {st : Status} {b : List Byte}
    (h : serves 0x18 rq (s.at t) = true) (hbody : anvilClaimBody rq (takeReq rq (s.at t)) = (x, st, b)) :
    exec (.anvilClaim t rq) s = .next (finishReply rq st b x) :=
  congrArg Host.Outcome.next (serve_of_answer h hbody)

section
variable {rq : Req} {s : State} (hrole : s.hth.role ≠ 2) (hzero : zeroAt rq.payload 1 3 = true)
include hrole hzero

section
variable (hstep : byteAt rq.payload 0 = 0) (hlen : rq.payload.length = 4)
include hstep hlen

theorem anvilClaimBody_of_denied (h : ownerKey s = none ∨ lockedOut s = true) :
    anvilClaimBody rq s = (s, .deniedOwner, []) := by
  simp only [anvilClaimBody, if_neg hrole, hzero, hstep, hlen]
  cases hkey : ownerKey s with
  | none => simp [deny]
  | some k =>
    have hlocked : lockedOut s = true := h.resolve_left (by simp [hkey])
    simp [hlocked, deny]

/-- STEP 0 hands out a NONCE. -/
theorem anvilClaimBody_of_first {k : List Byte} (hkey : ownerKey s = some k) (hopen : lockedOut s = false) :
    anvilClaimBody rq s = ({ s with
      free := s.free + 1, anv := { s.anv with nonce := some (leBytes 8 s.fresh.1, s.now + sec) } }, .ok,
      leBytes 8 s.fresh.1) := by
  simp only [anvilClaimBody, if_neg hrole, hzero, hstep, hlen, hkey, hopen]
  rfl

end

/-- STEP 1 with its MAC opens a session. -/
theorem anvilClaimBody_of_second {k n : List Byte} (hstep : byteAt rq.payload 0 = 1) (hlen : rq.payload.length = 12)
    (hkey : ownerKey s = some k) (hopen : lockedOut s = false) (hnonce : validNonce s = some n)
    (hmac : slice rq.payload 4 8 = mac8 k (s.otp.uidBytes ++ n ++ leBytes 1 (ownerCode rq.port))) :
    anvilClaimBody rq s =
      ({ s with anv := { s.anv with session := some ⟨n, rq.port⟩, lastSeq := 0, claimFails := 0 } }, .ok, []) := by
  simp only [anvilClaimBody, if_neg hrole, hzero, hstep, hlen, hkey, hopen, hnonce, hmac]
  rfl

end

/-- A fourth refusal in a row locks claims out (R132). -/
theorem claimRefused_of_fourth {s : State} (h : s.anv.claimFails = 3) : claimRefused s =
    (raise evAnvClaimLockout 0 { s with anv := { s.anv with claimFails := 0, lockout := some (s.now + 10 * sec) } },
      .deniedOwner, []) := by
  rw [claimRefused, h]
  rfl

/-! ## The Anvil's timers (R128, R132, R138) -/

theorem exec_nonceExpiry_of_nonce (t : Time) {n : List Byte} {d : Time} {s : State} (h : s.anv.nonce = some (n, d)) :
    exec (.nonceExpiry t) s = .next { s.at t with
      anv := { s.anv with nonce := if max s.now t < d then some (n, d) else none } } := by
  by_cases hd : max s.now t < d
  · have hvalid : validNonce (s.at t) = some n := validNonce_of_early h hd
    rw [if_pos hd, ← h]
    exact congrArg Host.Outcome.next (if_pos (by rw [hvalid]; rfl))
  · have hgone : validNonce (s.at t) = none := validNonce_of_late h hd
    rw [if_neg hd]
    exact congrArg Host.Outcome.next (if_neg (by rw [hgone]; decide))

theorem exec_claimLockoutExpiry_of_lockout (t : Time) {d : Time} {s : State} (h : s.anv.lockout = some d) :
    exec (.claimLockoutExpiry t) s = .next { s.at t with
      anv := { s.anv with lockout := if max s.now t < d then some d else none } } := by
  have hlocked : lockedOut (s.at t) = decide (max s.now t < d) := lockedOut_of_lockout h
  by_cases hd : max s.now t < d
  · rw [if_pos hd, ← h]
    exact congrArg Host.Outcome.next (if_pos (hlocked.trans (decide_eq_true hd)))
  · rw [if_neg hd]
    exact congrArg Host.Outcome.next (if_neg (by rw [hlocked, decide_eq_false hd]; decide))

theorem exec_ownerTimeout_of_due {t d : Time} {s : State} (hdue : s.anv.ownerDue = some d) (hd : d ≤ t)
    (hrole : s.hth.role ≠ 2) :
    exec (.ownerTimeout t) s = .next (judgeHolder (raise evAnvOwnerStale 0 { s.at t with
      anv := { s.anv with ownerDue := none, ownerStale := true } })) := by
  show execOwnerTimeout t s = _
  simp only [execOwnerTimeout, State_at_anv, State_at_now, State_at_hth, hdue]
  exact if_pos ⟨Nat.le_trans hd (Nat.le_max_right ..), hrole⟩

theorem exec_ownerTimeout_of_worker (t : Time) {s : State} (hrole : s.hth.role = 2) :
    exec (.ownerTimeout t) s = .next (s.at t) := by
  show execOwnerTimeout t s = _
  rw [execOwnerTimeout]
  split
  · exact if_neg fun h => h.2 hrole
  · rfl

/-- Settles O44: the answers of ANVIL_CLAIM, then its timers. -/
theorem anvilClaimsAndTimers : Obligations.AnvilClaimsAndTimers := by
  refine ⟨?denied, ?first, ?second, ?fourth, fun t _ _ _ => exec_nonceExpiry_of_nonce t,
    fun t _ _ => exec_claimLockoutExpiry_of_lockout t, fun _ _ _ => exec_ownerTimeout_of_due,
    fun t _ => exec_ownerTimeout_of_worker t, fun _ _ => rfl, ?stale⟩
  case denied =>
    intro t rq s h hrole hzero hstep hlen hno
    exact exec_anvilClaim_of_answer t h (anvilClaimBody_of_denied (s := takeReq rq (s.at t)) hrole hzero hstep hlen hno)
  case first =>
    intro t rq k s h hrole hzero hstep hlen hkey hopen
    exact ⟨_, leBytes_length .., exec_anvilClaim_of_answer t h
      (anvilClaimBody_of_first (s := takeReq rq (s.at t)) hrole hzero hstep hlen hkey hopen)⟩
  case second =>
    intro t d rq k n s h hrole hzero hstep hlen hkey hopen hnonce hearly hmac
    have hvalid : validNonce (takeReq rq (s.at t)) = some n := validNonce_of_early hnonce hearly
    exact exec_anvilClaim_of_answer t h
      (anvilClaimBody_of_second (s := takeReq rq (s.at t)) hrole hzero hstep hlen hkey hopen hvalid hmac)
  case fourth =>
    intro s h
    rw [claimRefused_of_fourth h]
    exact ⟨rfl, rfl⟩
  case stale =>
    intro t d s hdue hd hrole
    refine ⟨_, exec_ownerTimeout_of_due hdue hd hrole, ?_⟩
    rw [judgeHolder_anv_of_fallback (fallback_ne_zero_of_ownerStale rfl)]
    exact ⟨rfl, rfl, rfl⟩

end Sys2Proof.Machine
end

section
/-! SUPPORT. ANVIL_REQUEST and ANVIL_VERIFY_READ (R134, R135, R510, R511): what an accepted request makes of the state,
the length of the device MAC, and the answers of the two commands. -/

namespace Sys2Proof.Machine

/-! ## A MAC under a key of no bytes -/

@[simp] theorem xorBytes_nil (a : List Byte) : xorBytes a [] = [] := List.zipWith_nil_right

theorem aesRounds_nil (n : Nat) (rc : Byte) : aesRounds n rc [] [] = [] := by
  induction n generalizing rc with
  | zero => rfl
  | succ n ih =>
    have hkey : nextKey rc [] = [] := rfl
    rw [aesRounds, hkey, xorBytes_nil, ih]

theorem aes128_nil (b : List Byte) : aes128 [] b = [] := by
  rw [aes128, xorBytes_nil, aesRounds_nil]

theorem cmacChain_nil (k1 k2 : List Byte) (n : Nat) (m : List Byte) : cmacChain [] k1 k2 n [] m = [] := by
  induction n generalizing m with
  | zero => rfl
  | succ n ih =>
    rw [cmacChain]
    split
    · exact aes128_nil _
    · rw [aes128_nil, ih]

/-- Under a key of no bytes every MAC has no bytes: adding the key to a block cuts it to the key's length. -/
theorem mac8_nil (msg : List Byte) : mac8 [] msg = [] := by
  rw [mac8, cmac, cmacChain]
  split
  · rw [aes128_nil, List.take_nil]
  · rw [aes128_nil (xorBytes _ _), cmacChain_nil, List.take_nil]

/-! ## A MAC under a key of 16 bytes (R131) -/

theorem xorBytes_length {n : Nat} {a b : List Byte} (ha : a.length = n) (hb : b.length = n) :
    (xorBytes a b).length = n := by
  rw [xorBytes, List.length_zipWith, ha, hb, Nat.min_self]

theorem nextKey_length (rc : Byte) : ∀ {k : List Byte}, k.length = 16 → (nextKey rc k).length = 16
  | [_, _, _, _, _, _, _, _, _, _, _, _, _, _, _, _], _ => rfl

theorem mixColumns_length : ∀ {b : List Byte}, b.length = 16 → ((columns 4 b).map mixColumn).flatten.length = 16
  | [_, _, _, _, _, _, _, _, _, _, _, _, _, _, _, _], _ => rfl

theorem subShift_length (b : List Byte) : (subShift b).length = 16 := by
  rw [subShift, List.length_map, List.length_range]

theorem aesRounds_length (n : Nat) (rc : Byte) {k b : List Byte} (hk : k.length = 16) (hb : b.length = 16) :
    (aesRounds n rc k b).length = 16 := by
  induction n generalizing rc k b with
  | zero => exact hb
  | succ n ih =>
    have hkey := nextKey_length rc hk
    rw [aesRounds]
    refine ih (xtime rc) hkey (xorBytes_length ?_ hkey)
    split
    · exact subShift_length b
    · exact mixColumns_length (subShift_length b)

theorem aes128_length {k b : List Byte} (hk : k.length = 16) (hb : b.length = 16) : (aes128 k b).length = 16 :=
  aesRounds_length 10 1 hk (xorBytes_length hb hk)

theorem cmacDouble_length (b : List Byte) : (cmacDouble b).length = 16 := by
  rw [cmacDouble, List.length_reverse, leBytes_length]

theorem cmacChain_length {k k1 k2 : List Byte} (hk : k.length = 16) (h1 : k1.length = 16) (h2 : k2.length = 16)
    (n : Nat) {acc : List Byte} (hacc : acc.length = 16) (m : List Byte) :
    (cmacChain k k1 k2 n acc m).length = 16 := by
  induction n generalizing acc m with
  | zero => exact hacc
  | succ n ih =>
    rw [cmacChain]
    split
    · next hlast =>
      refine aes128_length hk (xorBytes_length hacc ?_)
      split
      · next hwhole => exact xorBytes_length hwhole h1
      · refine xorBytes_length ?_ h2
        simp only [List.length_append, List.length_singleton, List.length_replicate]
        omega
    · next hmore =>
      refine ih (aes128_length hk (xorBytes_length hacc ?_)) (m.drop 16)
      rw [List.length_take]
      omega

theorem mac8_length {k : List Byte} (hk : k.length = 16) (msg : List Byte) : (mac8 k msg).length = 8 := by
  have hlen : (cmac k msg).length = 16 := cmacChain_length hk (cmacDouble_length _) (cmacDouble_length _) _ rfl msg
  rw [mac8, List.length_take, hlen]
  rfl

/-- Where the owner key has the 16 bytes of R469, the device MAC has 8. -/
theorem deviceMac_length {s : State} (hkey : ∀ k, ownerKey s = some k → k.length = 16) (b : List Byte) :
    (deviceMac s b).length = 8 := by
  rw [deviceMac]
  split
  · next k _ hk => exact mac8_length (hkey k hk) _
  · exact List.length_replicate

/-! ## ANVIL_REQUEST (R134, R135, R510) -/


theorem exec_anvilRequest_of_answer (t : Time) {rq : Req} {s x : State} {st : Status} {b : List Byte}
    (h : serves 0x19 rq (s.at t) = true) (hbody : anvilRequestBody rq (takeReq rq (s.at t)) = (x, st, b)) :
    exec (.anvilRequest t rq) s = .next (finishReply rq st b x) :=
  congrArg Host.Outcome.next (serve_of_answer h hbody)

/-- A request that passed is taken note of: its SEQ, the owner's time, and who holds the telltales. -/
theorem anvilAccepted_eq (seq : Nat) (s : State) : ∃ d h r p n e, anvilAccepted seq s = { s with
    anv := { s.anv with ownerDue := d, ownerStale := false, lastSeq := seq, holderMatrix := h, reason := r,
                        probation := p, probCount := n }, evt := e } := by
  obtain ⟨h, r, p, n, e, hjudged⟩ := judgeHolder_eq (setAnv (fun a => { a with lastSeq := seq }) (ownerTimer s))
  exact ⟨_, h, r, p, n, e, hjudged⟩

/-- A function takes its state; a lamp check may end. -/
theorem setFnState_eq (n st : Nat) (s : State) : ∃ h, setFnState n st s = { s with
    anv := { s.anv with states := upd s.anv.states (Fin.ofNat 256 n) (BitVec.ofNat 2 st) }, hth := h } := by
  rw [setFnState]
  dsimp only
  split
  · split <;> exact ⟨_, rfl⟩
  · exact ⟨_, rfl⟩

theorem anvEntriesOk_of_one {s : State} {p : List Byte} (hone : byteAt p 4 = 1) (hrestore : byteAt p 5 = 0)
    (hfn : (anvFn s (byteAt p 6)).isSome = true) (hst : byteAt p 7 < 4) : anvEntriesOk s p = true := by
  simp [anvEntriesOk, anvEntries, hone, hrestore, hfn, hst]

section
variable {rq : Req} {s : State} (hrole : s.hth.role ≠ 2)
include hrole

theorem anvilRequestBody_of_no_session (h : s.anv.session = none) :
    anvilRequestBody rq s = (s, .deniedOwner, []) := by
  simp only [anvilRequestBody, if_neg hrole, h, deny]

/-- A request of one entry that passes every check sets that function and no other. -/
theorem anvilRequestBody_of_one {x : Session} {k : List Byte} (hsession : s.anv.session = some x)
    (hkey : ownerKey s = some k) (hport : portSame x.port rq.port = true)
    (hmac : slice rq.payload (6 + 2 * byteAt rq.payload 4) 8
      = mac8 k (s.otp.uidBytes ++ x.nonce ++ (rqPacket rq).take (12 + 2 * byteAt rq.payload 4)))
    (hseq : s.anv.lastSeq < le32 rq.payload 0) (hrestore : byteAt rq.payload 5 = 0) (hone : byteAt rq.payload 4 = 1)
    (hfn : (anvFn s (byteAt rq.payload 6)).isSome = true) (hst : byteAt rq.payload 7 < 4) :
    ∃ b, anvilRequestBody rq s = (setFnState (byteAt rq.payload 6) (byteAt rq.payload 7)
      (anvilAccepted (le32 rq.payload 0) s), .ok, leBytes 4 (le32 rq.payload 0) ++ b) := by
  obtain ⟨d, h, r, p, n, e, haccepted⟩ := anvilAccepted_eq (le32 rq.payload 0) s
  have hentries : anvEntriesOk (anvilAccepted (le32 rq.payload 0) s) rq.payload = true :=
    anvEntriesOk_of_one hone hrestore (by rw [haccepted]; exact hfn) hst
  have hno : bit (byteAt rq.payload 5) 0 = false := by rw [hrestore]; rfl
  have hlist : anvEntries rq.payload = [(byteAt rq.payload 6, byteAt rq.payload 7)] := by rw [anvEntries, hone]; rfl
  simp only [anvilRequestBody, if_neg hrole, hsession, hkey, hport, hmac, if_neg (Nat.not_le.2 hseq), hentries, hno,
    hlist, Bool.not_true, Bool.false_and, Bool.false_eq_true, if_false, ne_eq, not_true_eq_false, List.foldl_cons,
    List.foldl_nil]
  exact ⟨_, rfl⟩

end

/-- What O45 says of a request of one entry that passes every check. -/
theorem exec_anvilRequest_of_one (t : Time) {rq : Req} {x : Session} {k : List Byte} {s : State}
    (h : serves 0x19 rq (s.at t) = true) (hrole : s.hth.role ≠ 2) (hsession : s.anv.session = some x)
    (hkey : ownerKey s = some k) (hport : portSame x.port rq.port = true)
    (hmac : slice rq.payload (6 + 2 * byteAt rq.payload 4) 8
      = mac8 k (s.otp.uidBytes ++ x.nonce ++ (rqPacket rq).take (12 + 2 * byteAt rq.payload 4)))
    (hseq : s.anv.lastSeq < le32 rq.payload 0) (hrestore : byteAt rq.payload 5 = 0) (hone : byteAt rq.payload 4 = 1)
    (hfn : (anvFn s (byteAt rq.payload 6)).isSome = true) (hst : byteAt rq.payload 7 < 4) :
    ∃ p a h e, exec (.anvilRequest t rq) s = .next (finishReply rq .ok p { takeReq rq (s.at t) with
        anv := a, hth := h, evt := e }) ∧
      p.take 4 = leBytes 4 (le32 rq.payload 0) ∧ a.lastSeq = le32 rq.payload 0 ∧ a.ownerStale = false ∧
      a.states[Fin.ofNat 256 (byteAt rq.payload 6)] = BitVec.ofNat 2 (byteAt rq.payload 7) ∧
      (∀ i, i ≠ Fin.ofNat 256 (byteAt rq.payload 6) → a.states[i] = s.anv.states[i]) := by
  obtain ⟨b, hbody⟩ := anvilRequestBody_of_one (s := takeReq rq (s.at t)) hrole hsession hkey hport hmac hseq
    hrestore hone hfn hst
  obtain ⟨d, hold, r, p, n, e, haccepted⟩ := anvilAccepted_eq (le32 rq.payload 0) (takeReq rq (s.at t))
  obtain ⟨check, hset⟩ := setFnState_eq (byteAt rq.payload 6) (byteAt rq.payload 7)
    (anvilAccepted (le32 rq.payload 0) (takeReq rq (s.at t)))
  rw [hset, haccepted] at hbody
  exact ⟨_, _, check, e, exec_anvilRequest_of_answer t h hbody, List.take_left' (leBytes_length ..), rfl, rfl,
    upd_self .., fun i hi => upd_other _ _ _ _ (Ne.symm hi)⟩

/-- What O45 says of a request without a session. -/
theorem exec_anvilRequest_of_no_session (t : Time) {rq : Req} {s : State} (h : serves 0x19 rq (s.at t) = true)
    (hrole : s.hth.role ≠ 2) (hsession : s.anv.session = none) :
    exec (.anvilRequest t rq) s = .next (finishReply rq .deniedOwner [] (takeReq rq (s.at t))) :=
  exec_anvilRequest_of_answer t h (anvilRequestBody_of_no_session (s := takeReq rq (s.at t)) hrole hsession)

/-! ## ANVIL_VERIFY_READ (R137, R511) -/

/-- A read changes nothing; its reply is 80 bytes, the status first, and the MAC, which only a safety request has. -/
theorem anvilVerifyReadBody_eq (rq : Req) (s : State) : ∃ head b, b.length = 80 ∧
    b.take 4 = leBytes 4 (anvStatus s) ∧
    anvilVerifyReadBody rq s = (s, .ok, b ++ if rqSafety rq then deviceMac s head else List.replicate 8 0) := by
  refine ⟨_, _, ?length, ?status, rfl⟩
  case length => simp [leBytes_length, statesBytes]
  case status => simp only [List.append_assoc, List.take_left' (leBytes_length ..)]

theorem exec_anvilVerifyRead_of_serves (t : Time) {rq : Req} {s : State} (h : serves 0x1A rq (s.at t) = true) :
    ∃ head b, b.length = 80 ∧ b.take 4 = leBytes 4 (anvStatus s) ∧
      exec (.anvilVerifyRead t rq) s = .next (finishReply rq .ok
        (b ++ if rqSafety rq then deviceMac s head else List.replicate 8 0) (takeReq rq (s.at t))) := by
  obtain ⟨head, b, hlen, hstatus, hbody⟩ := anvilVerifyReadBody_eq rq (takeReq rq (s.at t))
  exact ⟨head, b, hlen, hstatus, congrArg Host.Outcome.next (serve_of_answer h hbody)⟩

/-- What O45 says of a verify read, where the owner key has the 16 bytes of R469. -/
theorem exec_anvilVerifyRead_of_owner_key (t : Time) {rq : Req} {s : State} (h : serves 0x1A rq (s.at t) = true)
    (hkey : ∀ k, ownerKey s = some k → k.length = 16) :
    ∃ p, exec (.anvilVerifyRead t rq) s = .next (finishReply rq .ok p (takeReq rq (s.at t))) ∧ p.length = 88 ∧
      p.take 4 = leBytes 4 (anvStatus s) := by
  obtain ⟨head, b, hlen, hstatus, hanswer⟩ := exec_anvilVerifyRead_of_serves t h
  refine ⟨_, hanswer, ?_, ?_⟩
  · rw [List.length_append, hlen]
    split
    · rw [deviceMac_length hkey]
    · rw [List.length_replicate]
  · rw [List.take_append_of_le_length (by omega), hstatus]

/-- The length of the payload shows in a reply on quad SPI. -/
theorem length_eq_of_finishReply_spi {rq : Req} {st : Status} {b p : List Byte} {s : State} (hport : rq.port = .spi)
    (hst : st ≠ .pending) (hwanted : wantsReply rq st = true) (hcopies : reqOutst rq s.hst = none)
    (hrecs : (s.evt.recs.filter fun r => r.piggy) = []) (hroom : s.hst.spiReplies.length < 8)
    (h : finishReply rq st b s = finishReply rq st p s) : b.length = p.length := by
  obtain ⟨kb, hb⟩ := finishReply_spi b hport hst hwanted hcopies hrecs hroom
  obtain ⟨kp, hp⟩ := finishReply_spi p hport hst hwanted hcopies hrecs hroom
  rw [hb, hp] at h
  have hreplies := List.append_cancel_left (congrArg (fun x => x.hst.spiReplies) h)
  have hpacket := congrArg List.length (List.singleton_inj.1 hreplies)
  simpa [replyPacket, leBytes_length] using hpacket

/-! ## A read under an owner key of no bytes -/

/-- ANVIL_VERIFY_READ on quad SPI with SAFETY = 1, a reply asked for. -/
def safetyRead : Req := { port := .spi, opcode := 0x1A, tag := 0, flags := 3, payload := [], crc := 0, at' := 0 }

/-- A device in READY with a session, whose OTP slot of the owner key holds no bytes. -/
def keylessOwner : State :=
  { State.reset with
    hth.boot := .on, hth.pwr := .ready, otp.ownerKey := [⟨[], true⟩], anv.session := some ⟨[], .spi⟩,
    hst.requests := [safetyRead] }

theorem keylessOwner_deviceMac (b : List Byte) : deviceMac keylessOwner b = [] := by
  have hkey : ownerKey keylessOwner = some [] := by decide +kernel
  have hsession : keylessOwner.anv.session = some ⟨[], .spi⟩ := rfl
  simp only [deviceMac, hkey, hsession, mac8_nil]

/-- Refutes O45 by its last clause: the reply of a verify read is not always 88 bytes. The statement is of every state,
and no hypothesis gives the owner key in OTP the 16 bytes of R469: under a key of no bytes the MAC has none, and the
reply to a safety request has 80. The clauses on requests hold
(`exec_anvilRequest_of_no_session`, `exec_anvilRequest_of_one`), and so does this one where the key has 16 bytes
(`exec_anvilVerifyRead_of_owner_key`). -/
theorem not_anvilRequests : ¬ Obligations.AnvilRequests := by
  rintro ⟨-, -, hread⟩
  have hserves : serves 0x1A safetyRead (keylessOwner.at 0) = true := by decide +kernel
  obtain ⟨p, hexec, hlen, -⟩ := hread 0 safetyRead keylessOwner hserves
  obtain ⟨head, b, hb, -, hanswer⟩ := exec_anvilVerifyRead_of_serves 0 hserves
  have hsafety : rqSafety safetyRead = true := by decide
  rw [hanswer, if_pos hsafety, keylessOwner_deviceMac, List.append_nil] at hexec
  have hsame : b.length = p.length :=
    length_eq_of_finishReply_spi rfl (by decide) (by decide) rfl rfl (by decide) (Host.Outcome.next.inj hexec)
  omega

end Sys2Proof.Machine
end

section
/-! SUPPORT. Cameras (R142, R143, R549), colour estimates and colour sensors (R158, R159, R162, R183): the answers of
their rows. -/

namespace Sys2Proof.Machine

/-! ## Cameras (R142, R143) -/

section
variable {t : Time} {c : Fin 2} {s : State}

theorem exec_cameraFrame_of_crcErr (hup : s.fastUp = true) (covers quiet : Bool) (l : List CamTest) :
    exec (.cameraFrame t c true covers quiet l) s = .next (raise evIngCsiErr (2 ^ c.val) (s.at t)) :=
  (if_neg (by simp [hup])).trans (if_pos rfl)

@[simp] theorem camPick_nil (s : State) (c : Fin 2) : camPick s c [] = [] := by
  simp [camPick]

/-- A frame that covers the display and tests no function is noted with its time. -/
theorem exec_cameraFrame_of_untested (hup : s.fastUp = true) (hactive : camActive s c = true) :
    ∃ v, exec (.cameraFrame t c false true true []) s = .next { s.at t with
      free := s.free + 1, ing := { s.ing with csi := v },
      anv := { s.anv with cams := updWith s.anv.cams c fun k => { k with last := max s.now t } } } := by
  have hactive' : camActive (s.at t) c = true := hactive
  show ∃ v, execCameraFrame t c false true true [] s = _
  simp only [execCameraFrame, fastUp_at, hup, hactive', camPick_nil]
  exact ⟨_, rfl⟩

/-- The state in which a camera has been found silent. -/
def cameraLost (c : Fin 2) (s : State) : State :=
  raise evAnvCamLost (2 ^ c.val) (setCam c (fun k => { k with part := false, lost := true }) (csiStatus c 0 s))

theorem cameraLost_anv (c : Fin 2) (s : State) : (cameraLost c s).anv =
    { s.anv with cams := updWith s.anv.cams c fun k => { k with part := false, lost := true } } := rfl

/-- With the camera's loss judged a failure, a silent camera fails verification. -/
theorem exec_cameraTimeout_of_silent (hup : s.fastUp = true) (hactive : camActive s c = true)
    (hsilent : s.anv.cams[c].last + s.anv.camTimeout.toNat * ms ≤ t) :
    exec (.cameraTimeout t c) s = if wb s.anv.verifyConfig 1 = true
      then .next (verifyFail 5 (cameraLost c (s.at t)).fresh.1 (cameraLost c (s.at t)).fresh.2)
      else .next (cameraLost c (s.at t)) := by
  have hactive' : camActive (s.at t) c = true := hactive
  have hpast : s.anv.cams[c].last + s.anv.camTimeout.toNat * ms ≤ max s.now t :=
    Nat.le_trans hsilent (Nat.le_max_right ..)
  refine if_neg ?_
  rw [fastUp_at, hup, hactive', Bool.not_true, Bool.false_or, Bool.false_or, decide_eq_true_eq]
  exact Nat.not_lt.2 hpast

theorem exec_cameraTimeout_of_inactive (h : camActive s c = false) : exec (.cameraTimeout t c) s = .next (s.at t) := by
  have hinactive : camActive (s.at t) c = false := h
  exact if_pos (by simp [hinactive])

end

/-! ## Colour estimates (R158, R159, R162) -/

section
variable {t : Time}

theorem exec_estimateValidTimeout_of_old {c : Fin 24} {s : State} (hvalid : s.clw.est[c].valid = true)
    (hold : s.clw.est[c].at' + 100 * ms ≤ t) :
    exec (.estimateValidTimeout t c) s = .next { s.at t with clw := { s.clw with
      est := updWith s.clw.est c fun x => { x with valid := false, holdDue := some (max s.now t + sec) } } } :=
  if_pos ⟨hvalid, Nat.le_trans hold (Nat.le_max_right ..)⟩

theorem exec_estimateHoldExpiry_of_due {c : Fin 24} {d : Time} {s : State} (hdue : s.clw.est[c].holdDue = some d)
    (hvalid : s.clw.est[c].valid = false) (hd : d ≤ t) :
    exec (.estimateHoldExpiry t c) s = .next (raise evClwEstLost (2 ^ c.val) { s.at t with clw := { s.clw with
      est := updWith s.clw.est c fun x => { x with holdDue := none, lost := true } } }) := by
  show execEstimateHoldExpiry t c s = _
  simp only [execEstimateHoldExpiry, State_at_clw, State_at_now, hdue]
  exact if_pos ⟨Nat.le_trans hd (Nat.le_max_right ..), by rw [hvalid]; rfl⟩

theorem exec_gamutHoldTimeout_of_due {e : Fin 4} {d : Time} {s : State} (hsince : s.clw.holdSince[e] = some d)
    (hd : d + sec ≤ t) : exec (.gamutHoldTimeout t e) s = .next (raise evClwGamutStuck e.val (s.at t)) := by
  have hpast : d + sec ≤ max s.now t := Nat.le_trans hd (Nat.le_max_right ..)
  show execGamutHoldTimeout t e s = _
  simp only [execGamutHoldTimeout, State_at_clw, State_at_now, hsince, hpast, decide_true, raiseIf_true]

theorem exec_gamutHoldTimeout_of_none {e : Fin 4} {s : State} (hsince : s.clw.holdSince[e] = none) :
    exec (.gamutHoldTimeout t e) s = .next (s.at t) := by
  show execGamutHoldTimeout t e s = _
  simp only [execGamutHoldTimeout, State_at_clw, hsince]

/-! ## Colour sensors (R183) -/

/-- The mask of one engine. -/
theorem getLsbD_engineBit (e i : Fin 4) : (BitVec.ofNat 4 (2 ^ e.val)).getLsbD i.val = decide (e = i) := by
  rw [BitVec.getLsbD_ofNat, Nat.testBit_two_pow]
  simp [Fin.ext_iff]

theorem and_engineBit_eq_zero {x : BitVec 4} {e : Fin 4} (h : x.getLsbD e.val = false) :
    x &&& BitVec.ofNat 4 (2 ^ e.val) = 0 := by
  refine BitVec.eq_of_getLsbD_eq fun i hi => ?_
  rw [BitVec.getLsbD_and, getLsbD_engineBit e ⟨i, hi⟩]
  by_cases he : e = ⟨i, hi⟩
  · rw [he] at h
    simp [h]
  · simp [he]

theorem tab_getElem {α : Type} {n : Nat} (f : Fin n → α) (i : Fin n) : (tab n f)[i] = f i := by
  simp [tab]

/-- The record of colour and warp when an engine's colour sensor is lost: its channels go on without it. -/
def sensorDropped (e : Fin 4) (c : Clw) : Clw :=
  { c with
    sensorLost := c.sensorLost ||| BitVec.ofNat 4 (2 ^ e.val),
    est := tab 24 fun i => if chanEng i = e then { c.est[i] with sensor := false } else c.est[i] }

theorem sensorDropped_sensorLost (e : Fin 4) (c : Clw) : (sensorDropped e c).sensorLost.getLsbD e.val = true := by
  rw [sensorDropped, BitVec.getLsbD_or, getLsbD_engineBit]
  simp

theorem sensorDropped_sensor {e : Fin 4} {i : Fin 24} (c : Clw) (h : chanEng i = e) :
    (sensorDropped e c).est[i].sensor = false := by
  rw [sensorDropped]
  dsimp only
  rw [tab_getElem, if_pos h]

theorem exec_colourSensorTimeout_of_silent {e : Fin 4} {s : State} (hup : s.fastUp = true) (hused : s.used e = true)
    (hsilent : s.clw.sensorAt[e] + sec ≤ t) (hheld : s.clw.sensorLost.getLsbD e.val = false) :
    exec (.colourSensorTimeout t e) s = .next (raise evAnvColourSensorLost (BitVec.ofNat 4 (2 ^ e.val)).toNat
      (setClw (sensorDropped e) (s.at t))) :=
  if_pos ⟨hup, hused, Nat.le_trans hsilent (Nat.le_max_right ..), and_engineBit_eq_zero hheld⟩

theorem exec_colourSensorReading_of_fastUp (e : Fin 4) (rgb pairEnergy : List Int) {s : State} (hup : s.fastUp = true) :
    exec (.colourSensorReading t e rgb pairEnergy) s = .next
      (setClw (fun c => { c with
          sensorAt := upd c.sensorAt e (max s.now t),
          sensorLost := c.sensorLost &&& ~~~(BitVec.ofNat 4 (2 ^ e.val)) })
        (setSrv (fun x => { x with reading := upd x.reading e (some (rgb, pairEnergy)) }) (s.at t))) :=
  if_neg (by simp [hup])

end

/-- Settles O47: the cameras, the estimates and the gamut's hold, then the colour sensors. -/
theorem camerasAndColourSensors : Obligations.CamerasAndColourSensors := by
  refine ⟨fun _ _ a b l _ hup => exec_cameraFrame_of_crcErr hup a b l, fun _ _ _ => exec_cameraFrame_of_untested,
    ?silent, fun _ _ _ => exec_cameraTimeout_of_inactive, fun _ _ _ => exec_estimateValidTimeout_of_old,
    fun _ _ _ _ => exec_estimateHoldExpiry_of_due, fun _ _ _ _ => exec_gamutHoldTimeout_of_due,
    fun _ _ _ => exec_gamutHoldTimeout_of_none, ?sensorSilent, ?reading⟩
  case silent =>
    intro t c s hup hactive hsilent
    rw [exec_cameraTimeout_of_silent hup hactive hsilent]
    split
    · next hfails =>
      obtain ⟨n, r, hanv⟩ := verifyFail_anv 5 (cameraLost c (s.at t)).fresh.1 (cameraLost c (s.at t)).fresh.2
      refine ⟨_, rfl, ?_⟩
      rw [hanv]
      refine ⟨?_, ?_, fun _ => rfl, fun hkeeps => absurd (hfails.symm.trans hkeeps) (by decide)⟩ <;>
        exact congrArg _ (updWith_self ..)
    · next hkeeps =>
      refine ⟨_, rfl, ?_⟩
      rw [cameraLost_anv]
      exact ⟨congrArg Cam.lost (updWith_self ..), congrArg Cam.part (updWith_self ..), fun h => absurd h hkeeps,
        fun _ => rfl⟩
  case sensorSilent =>
    intro t e s hup hused hsilent hheld
    refine ⟨_, exec_colourSensorTimeout_of_silent hup hused hsilent hheld, ?_⟩
    rw [raise_clw, setClw_clw]
    exact ⟨sensorDropped_sensorLost .., fun _ => sensorDropped_sensor _⟩
  case reading =>
    intro t e l m s hup
    refine ⟨_, exec_colourSensorReading_of_fastUp e l m hup, ?_, upd_self .., upd_self ..⟩
    rw [setClw_clw, BitVec.getLsbD_and, BitVec.getLsbD_not, getLsbD_engineBit]
    simp

end Sys2Proof.Machine
end

section
/-! SUPPORT. Gamut banks and warp directories (R163, R171, R172, R513, R514): what the bodies of GAMUT_LOAD and of BEGIN
and CLEAR of WARP_LOAD answer, and that BEGIN leaves what is live. -/

namespace Sys2Proof.Machine

theorem other_ne (b : Fin 2) : other b ≠ b := by
  decide +revert

/-! ## GAMUT_LOAD (R163, R514) -/

theorem gamutLoadBody_of_ok {rq : Req} {e : Fin 4} {s : State} (he : byteAt rq.payload 0 = e.val)
    (hzero : zeroAt rq.payload 1 3 = true) (hok : bankOk (slice rq.payload 4 64) = true)
    (hfree : armedNames s (·.gamut) e = false) :
    gamutLoadBody rq s = (setClw (fun c => { c with
      gamut := updWith c.gamut e fun v => upd v (other c.gamutLive[e]) (some (slice rq.payload 4 64)) }) s, .ok, []) := by
  simp only [gamutLoadBody, he, hzero, hok, Fin.ofNat_val_eq_self, hfree]
  exact if_neg (by simp)

theorem exec_gamutLoad_of_answer (t : Time) {rq : Req} {s x : State} {st : Status} {b : List Byte}
    (h : serves 0x22 rq (s.at t) = true) (hbody : gamutLoadBody rq (takeReq rq (s.at t)) = (x, st, b)) :
    exec (.gamutLoad t rq) s = .next (finishReply rq st b x) :=
  congrArg Host.Outcome.next (serve_of_answer h hbody)

/-! ## WARP_LOAD (R171, R172, R513) -/

section
variable {rq : Req} {e : Fin 4} {s : State} (he : byteAt rq.payload 0 = e.val) (harg : byteAt rq.payload 3 = 0)
  (hfirst : le16 rq.payload 4 = 0) (hcount : le16 rq.payload 6 = 0) (hfree : armedNames s (·.warp) e = false)
include he harg hfirst hcount hfree

/-- Only the engine is looked at: for OP 0 the operands of the other operations are 0. -/
theorem warpLoadBody_of_begin (hop : byteAt rq.payload 1 = 0) : warpLoadBody rq s = (warpBegin e s, .ok, []) := by
  simp only [warpLoadBody, he, hop, harg, hfirst, hcount, Fin.ofNat_val_eq_self, hfree]
  exact if_neg (by simp)

/-- OP 4, with a slot of a depth slice in use: BEGIN must have come first. -/
theorem warpLoadBody_of_clear {q : Fin 12} (hop : byteAt rq.payload 1 = 4) (hq : byteAt rq.payload 2 = q.val)
    (hdepth : q.val / 3 < depthsOf s s.clw.depths e) :
    warpLoadBody rq s = if s.clw.warp[e].needBegin then (s, .wrongState, []) else (setSlot e q {} s, .ok, []) := by
  simp only [warpLoadBody, he, hop, hq, harg, hfirst, hcount, Fin.ofNat_val_eq_self, hfree]
  exact (if_neg (by simp)).trans (if_neg (by simp [hdepth]))

end

theorem exec_warpLoad_of_answer (t : Time) {rq : Req} {s x : State} {st : Status} {b : List Byte}
    (h : serves 0x21 rq (s.at t) = true) (hbody : warpLoadBody rq (takeReq rq (s.at t)) = (x, st, b)) :
    exec (.warpLoad t rq) s = .next (finishReply rq st b x) :=
  congrArg Host.Outcome.next (serve_of_answer h hbody)

/-! ## What BEGIN leaves -/

theorem warpBegin_warp_self (e : Fin 4) (s : State) : (warpBegin e s).clw.warp[e] =
    { s.clw.warp[e] with
      dirs := upd s.clw.warp[e].dirs (other s.clw.warp[e].live)
        (vmap (fun m => { m with fresh := false }) s.clw.warp[e].dirs[s.clw.warp[e].live]),
      needBegin := false } :=
  updWith_self ..

/-- Settles O48: the answers of the three requests, then what BEGIN leaves of the directory in use. -/
theorem gamutAndWarpLoads : Obligations.GamutAndWarpLoads := by
  refine ⟨fun t rq e s h he hzero hok hfree => exec_gamutLoad_of_answer t h (gamutLoadBody_of_ok he hzero hok hfree),
    fun t rq e s h he hop harg hfirst hcount hfree =>
      exec_warpLoad_of_answer t h (warpLoadBody_of_begin he harg hfirst hcount hfree hop), ?clear, ?begins⟩
  case clear =>
    intro t rq e q s h he hop hq hdepth harg hfirst hcount hfree
    have hbody := warpLoadBody_of_clear (s := takeReq rq (s.at t)) he harg hfirst hcount hfree hop hq hdepth
    rw [takeReq_clw, State_at_clw] at hbody
    split
    · next hneeds => exact exec_warpLoad_of_answer t h (hbody.trans (if_pos hneeds))
    · next hbegun => exact exec_warpLoad_of_answer t h (hbody.trans (if_neg hbegun))
  case begins =>
    intro e s
    rw [warpBegin_warp_self]
    exact ⟨rfl, upd_other _ _ _ _ (other_ne _)⟩

end Sys2Proof.Machine
end

section
/-! SUPPORT. The slots of a mirror array (R205-R211, R223): what beginning a slot, opening its light window and a late
band make of the engine's record, then the rows SLOT_EPOCH, LIGHT_WINDOW_OPEN and BAND_LOAD_DEADLINE. -/

namespace Sys2Proof.Machine

@[simp] theorem isMae_at (s : State) (t : Time) (e : Fin 4) : (s.at t).isMae e = s.isMae e := rfl

@[simp] theorem transmits_at (s : State) (t : Time) (e : Fin 4) : transmits (s.at t) e = transmits s e := rfl

/-- What a change of one engine's record keeps of a record, it keeps of every engine's. -/
theorem setThrE_holds {P : ThrEng → Prop} {f : ThrEng → ThrEng} (d : Fin 4) {e : Fin 4} {s : State}
    (hf : ∀ k, P k → P (f k)) (h : P s.thr.eng[e]) : P (setThrE d f s).thr.eng[e] := by
  show P (updWith s.thr.eng d f)[e]
  by_cases hde : d = e
  · subst hde
    rw [updWith_self]
    exact hf _ h
  · rw [updWith_other _ _ _ _ hde]
    exact h

theorem raiseIf_thr (c : Bool) (id d : Nat) (s : State) : (raiseIf c id d s).thr = s.thr := by
  cases c <;> rfl

/-! ## A slot begins (R205) -/

/-- Slot `n` runs, and its light window has not opened. -/
def ThrEng.Begun (n : Nat) (k : ThrEng) : Prop := k.slot = n ∧ k.epochs = n + 1 ∧ k.lit = false

variable {e d : Fin 4} {s : State}

theorem focusDark_begun {n : Nat} (j : Nat) (h : s.thr.eng[e].Begun n) : (focusDark d j s).thr.eng[e].Begun n := by
  rw [focusDark, raiseIf_thr]
  exact setThrE_holds d (fun k ⟨hslot, hepochs, _⟩ => ⟨hslot, hepochs, rfl⟩) h

theorem windowFalls_begun {n : Nat} (i : Fin 64) (h : s.thr.eng[e].Begun n) :
    (windowFalls i s).thr.eng[e].Begun n := by
  have hengine : ∀ (c : Bool) (d : Fin 4) (j : Nat) (a : State), a.thr.eng[e].Begun n →
      (if c then focusDark d j a else a).thr.eng[e].Begun n := by
    intro c d j a ha
    cases c with
    | false => exact ha
    | true => exact focusDark_begun j ha
  rw [windowFalls]
  split
  · exact hengine _ _ _ _ (hengine _ _ _ _ (hengine _ _ _ _ (hengine _ _ _ _ h)))
  · exact h

theorem setTarget_begun {n : Nat} (j : Nat) (h : s.thr.eng[e].Begun n) : (setTarget d j s).thr.eng[e].Begun n := by
  unfold setTarget
  extract_lets i moved s1 s2
  have hs1 : s1.thr.eng[e].Begun n := setThrE_holds d (fun _ => id) h
  have hs2 : s2.thr.eng[e].Begun n := by
    unfold s2
    split
    · exact windowFalls_begun i hs1
    · exact hs1
  split
  · exact hs1
  · exact hs2

theorem portSlot_thr (p : Nat) (s : State) : (portSlot p s).thr = s.thr := by
  rw [portSlot]
  split <;> rfl

theorem starveTick_thr (s : State) : (starveTick s).thr = s.thr :=
  foldl_proj State.thr _ (fun _ _ => portSlot_thr ..) ..

theorem portLevel_thr (e : Fin 4) (u : Urg) (s : State) : (portLevel e u s).thr = s.thr := by
  simp only [portLevel, apply_ite State.thr, raise_thr, setGrn_thr, starveTick_thr, ite_self]

theorem slotBegins_begun (e : Fin 4) (n l : Nat) (s : State) : (slotBegins e n l s).thr.eng[e].Begun n := by
  unfold slotBegins
  extract_lets t late s1 s2 s3 s4 s5
  have hs4 : s4.thr.eng[e].Begun n := by
    show (updWith s.thr.eng e _)[e].Begun n
    rw [updWith_self]
    exact ⟨rfl, rfl, rfl⟩
  have hs5 : s5.thr.eng[e].Begun n := by
    unfold s5
    split
    · exact setTarget_begun _ hs4
    · exact hs4
  rw [portLevel_thr]
  exact hs5

theorem exec_slotEpoch_of_open (t : Time) (l : Nat) (hup : s.fastUp = true) (hmae : s.isMae e = true)
    (hopen : s.thr.eng[e].epochs ≤ s.thr.eng[e].s) :
    exec (.slotEpoch t e l) s = .next (slotBegins e s.thr.eng[e].epochs l (s.at t)) :=
  if_neg (by simpa [hup, hmae] using hopen)

theorem exec_slotEpoch_of_closed (t : Time) (l : Nat)
    (h : s.fastUp = false ∨ s.isMae e = false ∨ s.thr.eng[e].s < s.thr.eng[e].epochs) :
    exec (.slotEpoch t e l) s = .next (s.at t) :=
  if_pos (by simpa using h)

/-! ## The light window (R210) -/

/-- With no focus to wait for, a slot that is lit at all is lit by its own channel. -/
theorem openWindow_of_unfocused {x : SheafEntry} (hfocus : focusUsed s e = false)
    (hweight : litWeight s e s.thr.eng[e].read x ≠ 0)
    (hpulse : (slotPulse s e (litWeight s e s.thr.eng[e].read x) (windowTaps s e) (chan e x.primary)).len ≠ 0) :
    openWindow e x s = setThrE e (fun k => { k with lit := true }) (setCh (chan e x.primary) (fun k => { k with
      pulse := slotPulse s e (litWeight s e s.thr.eng[e].read x) (windowTaps s e) (chan e x.primary),
      litNow := true }) s) :=
  (if_neg (not_or.2 ⟨hweight, hpulse⟩)).trans (if_neg (by simp [hfocus]))

theorem exec_lightWindowOpen_of_lit (t : Time) {x : SheafEntry} (hup : s.fastUp = true) (hmae : s.isMae e = true)
    (hlit : s.frg.eng[e].lit = true) (hepochs : s.thr.eng[e].epochs ≠ 0)
    (hentry : slotEntry s.thr.eng[e].read s.thr.eng[e].slot = some x) (hdark : x.dark = false) :
    exec (.lightWindowOpen t e) s = .next (openWindow e x (s.at t)) := by
  show execLightWindowOpen t e s = _
  rw [execLightWindowOpen]
  refine (if_neg (by simp [-Fin.getElem_fin, hup, hmae, hlit, hepochs])).trans ?_
  rw [State_at_thr, hentry]
  exact if_neg (by simp [hdark])

theorem exec_lightWindowOpen_of_unlit (t : Time) (h : s.fastUp = false ∨ s.isMae e = false ∨
      s.frg.eng[e].lit = false ∨ s.thr.eng[e].epochs = 0 ∨
      slotEntry s.thr.eng[e].read s.thr.eng[e].slot = none) :
    exec (.lightWindowOpen t e) s = .next (s.at t) := by
  show execLightWindowOpen t e s = _
  rw [execLightWindowOpen]
  by_cases hoff : (!s.fastUp || !s.isMae e || !s.frg.eng[e].lit || s.thr.eng[e].epochs == 0) = true
  · exact if_pos hoff
  · have hentry : slotEntry s.thr.eng[e].read s.thr.eng[e].slot = none := by
      simp only [Bool.or_eq_true, Bool.not_eq_true', beq_iff_eq] at hoff
      tauto
    refine (if_neg hoff).trans ?_
    rw [State_at_thr, hentry]

/-! ## Late bands (R207, R223) -/

theorem slotLost_darkBands (e : Fin 4) (a : Ahead) (s : State) :
    (slotLost e a s).thr.eng[e].darkBands = s.thr.eng[e].darkBands := by
  rw [slotLost]
  split
  · rfl
  · exact setThrE_holds (P := fun k => k.darkBands = s.thr.eng[e].darkBands) e (fun _ => id) rfl

/-- The bands dark already, and those from `k` on that were not. -/
theorem blankBands_now_darkBands (e : Fin 4) (k f : Nat) (s : State) : (blankBands e .now k f s).thr.eng[e].darkBands
    = s.thr.eng[e].darkBands ++ ((List.range 16).drop k).filter fun b => !s.thr.eng[e].darkBands.contains b :=
  (slotLost_darkBands ..).trans (congrArg ThrEng.darkBands (updWith_self ..))

theorem mem_drop_range {n k j : Nat} : j ∈ (List.range n).drop k ↔ k ≤ j ∧ j < n := by
  rw [List.range_eq_range', List.drop_range', List.mem_range'_1]
  omega

theorem mem_blankBands_now (e : Fin 4) (k f : Nat) (s : State) (j : Nat) :
    j ∈ (blankBands e .now k f s).thr.eng[e].darkBands ↔ j ∈ s.thr.eng[e].darkBands ∨ (k ≤ j ∧ j < 16) := by
  rw [blankBands_now_darkBands, List.mem_append, List.mem_filter, mem_drop_range]
  by_cases hdark : j ∈ s.thr.eng[e].darkBands
  · simp only [hdark, true_or]
  · simp [-Fin.getElem_fin, hdark]

section
variable (t : Time) {k : Fin 16} (f : Nat) (hearly : max s.now t < s.thr.eng[e].epochAt + 500 * k.val)
include hearly

/-- The deadline falls in the slot that runs now (log 57): a band it carries is judged by the flits sent of it. -/
theorem exec_bandLoadDeadline_of_carried (hup : s.fastUp = true) (hmae : s.isMae e = true)
    (htransmits : transmits s e = true) (hepochs : s.thr.eng[e].epochs ≠ 0)
    (hcarried : slotZero s.thr.eng[e].read s.thr.eng[e].slot = false)
    (hlight : s.thr.eng[e].darkBands.contains k.val = false) :
    exec (.bandLoadDeadline t e k f) s =
      if bandFlits ((s.eng[e].h * (k.val + 1) / 16 - s.eng[e].h * k.val / 16) * rowBytes s.eng[e].w) ≤ f then
        .next (setThrE e (fun x => { x with fifo := x.fifo.filter fun y => y.1 != k.val }) (s.at t))
      else .next (raise evThrUnderrun (k.val * 2 ^ 11 + slotAfter s.thr.eng[e] s.thr.eng[e].slot 0 * 4 + e.val)
        (blankBands e .now k.val f (s.at t))) := by
  have hcurrent : deadlineCurrent (s.at t) e k.val = true := decide_eq_true hearly
  show execBandLoadDeadline t e k f s = _
  simp only [execBandLoadDeadline, hcurrent, if_true]
  exact if_neg (by simpa [-Fin.getElem_fin, bandsDark, hup, hmae, htransmits, hepochs, hcarried] using hlight)

theorem exec_bandLoadDeadline_of_dark (hdark : s.thr.eng[e].darkBands.contains k.val = true) :
    exec (.bandLoadDeadline t e k f) s = .next (s.at t) := by
  have hcurrent : deadlineCurrent (s.at t) e k.val = true := decide_eq_true hearly
  show execBandLoadDeadline t e k f s = _
  simp only [execBandLoadDeadline, hcurrent, if_true]
  exact if_pos (by simp only [bandsDark, State_at_thr, hdark, Bool.or_true])

end

/-- Settles O29: each row by its cases; then the channels a window leaves alone, the slot that begins and the bands that
go dark. -/
theorem slotsAndLateBands : Obligations.SlotsAndLateBands := by
  refine ⟨fun t e l s => exec_slotEpoch_of_open t l, fun t e l s => exec_slotEpoch_of_closed t l,
    fun t e x s => exec_lightWindowOpen_of_lit t, fun t e s => exec_lightWindowOpen_of_unlit t, ?ownChannel,
    slotBegins_begun, ?sentInFull, ?late, fun t e k f s => exec_bandLoadDeadline_of_dark t f,
    fun e k f s _ => mem_blankBands_now e k f s⟩
  case ownChannel =>
    intro e x s hfocus hweight hpulse c hc
    rw [openWindow_of_unfocused hfocus hweight hpulse]
    exact updWith_other _ _ _ _ hc.symm
  case sentInFull =>
    intro t e k f s hup hmae htransmits hepochs hearly hcarried hlight hsent
    exact (exec_bandLoadDeadline_of_carried t f hearly hup hmae htransmits hepochs hcarried hlight).trans (if_pos hsent)
  case late =>
    intro t e k f s hup hmae htransmits hepochs hearly hcarried hlight hlate
    exact (exec_bandLoadDeadline_of_carried t f hearly hup hmae htransmits hepochs hcarried hlight).trans
      (if_neg (Nat.not_le.2 hlate))

end Sys2Proof.Machine
end

section
/-! SUPPORT. The corner turn, the recompilation of a Sheaf, SHEAF_LOAD and the read-out of entries (R186, R191, R202,
R213, R512): what each does, then the rows. -/

namespace Sys2Proof.Machine

variable {e : Fin 4} {s : State}

/-! ## The corner turn (R186) -/

theorem turnPlane_halves (d e : Fin 4) (h : Nat) (p : Nat × Nat × Nat × Nat) (s : State) :
    (turnPlane d h p s).thr.eng[e].halves = s.thr.eng[e].halves :=
  setThrE_holds (P := fun k => k.halves = s.thr.eng[e].halves) d (fun _ => id) rfl

theorem exec_cornerTurnHalfComplete_of_next (t : Time) (hcomposing : composing (s.at t) = true)
    (hcomposed : s.hth.composed ≠ 0) (hmae : s.isMae e = true) (hleft : 8 * s.thr.eng[e].halves < s.eng[e].h) :
    exec (.cornerTurnHalfComplete t e s.thr.eng[e].halves) s =
      .next (setThrE e (fun k => { k with halves := k.halves + 1 })
        (s.thr.eng[e].write.planes.foldl (fun a p => turnPlane e s.thr.eng[e].halves p a) (s.at t))) := by
  have hrows : ¬(s.at t).eng[e].h ≤ 8 * s.thr.eng[e].halves := Nat.not_le.2 hleft
  exact if_neg (by simp [-Fin.getElem_fin, -State_at_eng, hcomposing, hcomposed, hmae, hrows])

theorem exec_cornerTurnHalfComplete_of_outOfOrder (t : Time) {h : Nat} (hother : h ≠ s.thr.eng[e].halves) :
    exec (.cornerTurnHalfComplete t e h) s = .next (s.at t) :=
  if_pos (by simp [-Fin.getElem_fin, hother])

/-! ## The recompilation (R202) -/

theorem endRecompile_of_idle (f : Nat) (h : s.thr.eng[e].recompiling = none) : endRecompile e f s = s := by
  simp only [endRecompile, h]

/-- The write map is in force from the next frame, order and weights a frame later when the budget rose (R203). -/
theorem endRecompile_of_recompiling (f : Nat) {n u r : Nat} {b : Bool}
    (h : s.thr.eng[e].recompiling = some (n, u, r, b)) :
    ∃ sh, endRecompile e f s = setThrE e (fun k => { k with
      recompiling := none,
      steps := k.steps ++ [{ writeAt := f + 1, readAt := if b then f + 2 else f + 1, sheaf := sh, s := n, u := u,
                             rate := r, fresh := false }] }) s := by
  simp only [endRecompile, h]
  exact ⟨_, rfl⟩

/-! ## SHEAF_LOAD (R191, R213, R512) -/

section
variable {rq : Req} (hpre : sheafLoadPre rq s = none) (hpwr : s.hth.pwr ≠ .standby) (he : byteAt rq.payload 0 = e.val)
include hpre hpwr

/-- Outside STANDBY nothing defers the request. -/
theorem sheafLoadBody_of_not_standby : sheafLoadBody rq s = sheafLoadRun rq s := by
  simp only [sheafLoadBody, hpre, deferrable, if_neg hpwr]

include he

theorem sheafLoadBody_of_free (hmae : s.isMae e = true) (hfree : armedNames s (·.sheaf) e = false) :
    sheafLoadBody rq s = (setThrE e (fun k => { k with
        banks := upd k.banks (other k.live) ⟨true, slice rq.payload 4 32,
          compileSheaf {} (slice rq.payload 4 32) (depthsOf s s.clw.depths e) s.thr.eng[e].s s.thr.eng[e].u⟩ }) s,
      .ok, leBytes 4 (sheafReport
        (compileSheaf {} (slice rq.payload 4 32) (depthsOf s s.clw.depths e) s.thr.eng[e].s s.thr.eng[e].u))) := by
  rw [sheafLoadBody_of_not_standby hpre hpwr]
  simp only [sheafLoadRun, he, Fin.ofNat_val_eq_self, hmae, hfree, Bool.not_true, Bool.false_eq_true, if_false]

theorem sheafLoadBody_of_notMae (hmae : s.isMae e = false) : sheafLoadBody rq s = (s, .wrongState, []) := by
  rw [sheafLoadBody_of_not_standby hpre hpwr]
  simp only [sheafLoadRun, he, Fin.ofNat_val_eq_self, hmae, Bool.not_false, if_true, deny]

end

theorem exec_sheafLoad_of_answer (t : Time) {rq : Req} {x : State} {st : Status} {b : List Byte}
    (h : serves 0x20 rq (s.at t) = true) (hbody : sheafLoadBody rq (takeReq rq (s.at t)) = (x, st, b)) :
    exec (.sheafLoad t rq) s = .next (finishReply rq st b x) :=
  congrArg Host.Outcome.next (serve_of_answer h hbody)

/-! ## THR_SHEAF_DATA (R213) -/

/-- Replacing a field of a parameter value leaves the bits outside it. -/
theorem getLsbD_toW_setFld_outside (v : Word) {lo w i : Nat} (n : Nat) (h : i < lo ∨ lo + w ≤ i) :
    (toW (setFld v.toNat lo w n)).getLsbD i = v.getLsbD i := by
  rw [toW, BitVec.getLsbD_ofNat, testBit_setFld, if_neg (by omega), BitVec.testBit_toNat]
  by_cases hi : i < 32
  · rw [decide_eq_true hi, Bool.true_and]
  · rw [decide_eq_false hi, Bool.false_and, BitVec.getLsbD_of_ge _ _ (by omega)]

theorem exec_thrSheafDataHiRead_of_served (t : Time) (h : inSRL s.hth.pwr = true) :
    exec (.thrSheafDataHiRead t) s = .next (selAdvance { s.at t with
      last := .ok, readData := toW (selEntry s / 2 ^ 32) }) :=
  if_neg (by simp [h])

/-- Settles O30: each row by its cases. -/
theorem cornerTurnAndSheafLoad : Obligations.CornerTurnAndSheafLoad := by
  refine ⟨?turned, fun t e h s => exec_cornerTurnHalfComplete_of_outOfOrder t,
    fun t e s h => congrArg Host.Outcome.next (endRecompile_of_idle (s := s.at t) _ h), ?recompiled, ?loaded, ?notMae,
    ?read⟩
  case turned =>
    intro t e s hcomposing hcomposed hmae hleft
    refine ⟨_, exec_cornerTurnHalfComplete_of_next t hcomposing hcomposed hmae hleft, ?_⟩
    have hfold := foldl_proj (fun x : State => x.thr.eng[e].halves) _
      (fun a p => turnPlane_halves e e s.thr.eng[e].halves p a) s.thr.eng[e].write.planes (s.at t)
    exact (congrArg ThrEng.halves (updWith_self ..)).trans (congrArg (· + 1) hfold)
  case recompiled =>
    intro t e n u r b s h
    obtain ⟨sh, hend⟩ := endRecompile_of_recompiling (s := s.at t) s.cmp.frameCount h
    exact ⟨_, congrArg Host.Outcome.next hend, rfl, rfl, rfl, rfl, rfl⟩
  case loaded =>
    intro t rq e s h hpre he hpwr hmae hfree
    exact ⟨_, exec_sheafLoad_of_answer t h
      (sheafLoadBody_of_free (s := takeReq rq (s.at t)) hpre hpwr he hmae hfree), rfl⟩
  case notMae =>
    intro t rq e s h hpre he hpwr hmae
    exact exec_sheafLoad_of_answer t h (sheafLoadBody_of_notMae (s := takeReq rq (s.at t)) hpre hpwr he hmae)
  case read =>
    intro t s h
    exact ⟨_, exec_thrSheafDataHiRead_of_served t h, fun i hi => getLsbD_toW_setFld_outside _ _ (by omega)⟩

end Sys2Proof.Machine
end

section
/-! SUPPORT. What the forward lanes carry (R217-R219, R221, R226, R229, R232): the flits of a list of items, the plan of
a slot and its cut by a dark band, and what beginning a slot makes of the link. -/

namespace Sys2Proof.Machine

/-! ## Flits (R217-R219) -/

theorem sumN_eq_sum (l : List Nat) : sumN l = l.sum := List.sum_eq_foldl.symm

theorem sentFlits_cons (l : Nat) (c : SwtCmd) (r : List SwtCmd) :
    sentFlits l (c :: r) = c.flits l + sentFlits l r := by
  simp only [sentFlits, sumN_eq_sum, List.map_cons, List.sum_cons]

theorem sentFlits_singleton (l : Nat) (c : SwtCmd) : sentFlits l [c] = c.flits l := sentFlits_cons l c []

@[simp] theorem padTo_length (n : Nat) (b : List Byte) : (padTo n b).length = n := by
  simp [padTo]

@[simp] theorem ctrlBody_length (b : List Byte) : (ctrlBody b).length = 99 := by
  simp [ctrlBody, leBytes_length]

/-- Whatever a flit carries, its body fills it. -/
theorem flit_body_length (l i m : Nat) (c : SwtCmd) : (c.flit l i m).2.length = 99 := by
  cases c with
  | train c r =>
    rw [SwtCmd.flit]
    split
    · exact ctrlBody_length _
    · exact List.length_replicate
  | band k d n => exact padTo_length ..
  | idle b n => exact List.length_replicate
  | planeBegin | bandBlank | align | probe | arrayCfg => exact ctrlBody_length _

theorem flitStream_length (l f : Nat) (c : List SwtCmd) : (flitStream l f c).length = sentFlits l c := by
  induction c generalizing f with
  | nil => rfl
  | cons c r ih => rw [flitStream, List.length_append, List.length_map, List.length_range, ih, sentFlits_cons]

/-- A header byte holds FSEQ in its low five bits. -/
theorem byteAt_header (ty q : Nat) (b : List Byte) :
    byteAt (BitVec.ofNat 8 (ty * 32 + q % 32) :: b) 0 % 32 = q % 32 := by
  show (BitVec.ofNat 8 (ty * 32 + q % 32)).toNat % 32 = q % 32
  rw [BitVec.toNat_ofNat]
  omega

/-- Flit `i` of a stream that starts at flit number `f` has the number `f + i`. -/
theorem flitStream_getElem? {l f i : Nat} {c : List SwtCmd} {x : Nat × List Byte}
    (h : (flitStream l f c)[i]? = some x) :
    ∃ ty body, body.length = 99 ∧ x = ((f + i) % l, BitVec.ofNat 8 (ty * 32 + (f + i) / l % 32) :: body) := by
  induction c generalizing f i with
  | nil => simp [flitStream] at h
  | cons c r ih =>
    rw [flitStream] at h
    by_cases hi : i < c.flits l
    · rw [List.getElem?_append_left (by simpa using hi), List.getElem?_map, List.getElem?_range hi] at h
      exact ⟨_, _, flit_body_length .., (Option.some.inj h).symm⟩
    · have hnumber : f + c.flits l + (i - c.flits l) = f + i := by omega
      rw [List.getElem?_append_right (by simpa using hi), List.length_map, List.length_range] at h
      rw [← hnumber]
      exact ih h

/-- Items cut short carry no more flits than there is time for. -/
theorem sentFlits_takeFlits_le (l n : Nat) (c : List SwtCmd) : sentFlits l (takeFlits l n c) ≤ n := by
  induction c generalizing n with
  | nil => exact Nat.zero_le n
  | cons c r ih =>
    unfold takeFlits
    split
    next hfits =>
      have hrest := ih (n - c.flits l)
      rw [sentFlits_cons]
      omega
    next =>
      split
      · exact (sentFlits_singleton ..).le
      · exact (sentFlits_singleton ..).le.trans (Nat.div_mul_le_self n l)
      · rw [sentFlits_singleton]
        calc 2 * (n / (2 * l)) * l = n / (2 * l) * (2 * l) := by ring
          _ ≤ n := Nat.div_mul_le_self ..
      · exact (sentFlits_singleton ..).le
      · exact Nat.zero_le n

/-! ## A plan cut at a dark band (R207, R223) -/

/-- An item that carries no data of a band. -/
def SwtCmd.Bandless (x : SwtCmd) : Prop := ∀ k d n, x ≠ .band k d n

/-- A cut keeps what stands before the band, and of what stands behind it all but the bands. -/
theorem cutBand_eq (l slot k n : Nat) (c : List SwtCmd) : ∃ (cut : List SwtCmd) (p q : SwtCmd → Bool),
    (∀ x : SwtCmd, x.Bandless → p x = true ∧ q x = true) ∧
    cutBand l slot k n c = c.takeWhile p ++ (cut ++ (c.dropWhile p).filter q) := by
  unfold cutBand
  extract_lets isBand before part after head
  refine ⟨part ++ [.bandBlank slot k] ++ [.idle false (sentFlits l c - sentFlits l head - sentFlits l after)],
    fun x => !isBand k x, fun x => !isBand 0 x, fun x hx => ?_, ?_⟩
  · cases x with
    | band j d m => exact absurd rfl (hx j d m)
    | _ => exact ⟨rfl, rfl⟩
  · simp only [head, before, after, List.append_assoc]

theorem head?_cutBand {l slot k n : Nat} {x : SwtCmd} {c : List SwtCmd} (h : x.Bandless) :
    (cutBand l slot k n (x :: c)).head? = some x := by
  obtain ⟨cut, p, q, hpq, hcut⟩ := cutBand_eq l slot k n (x :: c)
  rw [hcut, List.takeWhile_cons_of_pos (hpq x h).1]
  rfl

theorem mem_cutBand {l slot k n : Nat} {x : SwtCmd} {c : List SwtCmd} (h : x.Bandless) (hx : x ∈ c) :
    x ∈ cutBand l slot k n c := by
  obtain ⟨cut, p, q, hpq, hcut⟩ := cutBand_eq l slot k n c
  rw [← List.takeWhile_append_dropWhile (p := p) (l := c), List.mem_append] at hx
  rw [hcut, List.mem_append, List.mem_append]
  rcases hx with hx | hx
  · exact .inl hx
  · exact .inr (.inr (List.mem_filter.2 ⟨hx, (hpq x h).2⟩))

/-- A plan as it was made, or cut at a band that is known to be dark. -/
def WholeOrCut (all plan : List SwtCmd) : Prop := plan = all ∨ ∃ l m k, plan = cutBand l m k 0 all

theorem wholeOrCut_ite {p : Prop} [Decidable p] {l m k : Nat} {all : List SwtCmd} :
    WholeOrCut all (if p then all else cutBand l m k 0 all) := by
  by_cases hp : p
  · exact .inl (if_pos hp)
  · exact .inr ⟨l, m, k, if_neg hp⟩

theorem WholeOrCut.head?_eq {x : SwtCmd} {c plan : List SwtCmd} (h : WholeOrCut (x :: c) plan) (hx : x.Bandless) :
    plan.head? = some x := by
  obtain rfl | ⟨l, m, k, rfl⟩ := h
  · rfl
  · exact head?_cutBand hx

theorem WholeOrCut.mem {x : SwtCmd} {all plan : List SwtCmd} (h : WholeOrCut all plan) (hx : x.Bandless)
    (hmem : x ∈ all) : x ∈ plan := by
  obtain rfl | ⟨l, m, k, rfl⟩ := h
  · exact hmem
  · exact mem_cutBand hx hmem

/-! ## The plan of a slot (R221, R229, R232) -/

section
variable {e : Fin 4} {s : State}

theorem slotPlan_of_stopped (n : Nat) (hrun : lanesRun s e = false) : slotPlan s e n = [] :=
  if_pos (by simp [hrun])

theorem slotPlan_of_training (n : Nat) (hrun : lanesRun s e = true) (hlink : s.swt[e].link = .training) :
    ∃ r, slotPlan s e n = [.train s.swt[e].aligns r] := by
  rw [slotPlan]
  simp only [hrun, hlink, Bool.not_true, Bool.false_eq_true, if_false, if_true]
  exact ⟨_, rfl⟩

theorem slotPlan_of_unlit (n : Nat) (hrun : lanesRun s e = true) (htraining : s.swt[e].link ≠ .training)
    (hactive : s.swt[e].link ≠ .active) : ∃ r, slotPlan s e n = [.idle true r] := by
  rw [slotPlan]
  simp only [hrun, htraining, hactive, ne_eq, not_false_eq_true, Bool.not_true, Bool.false_eq_true, if_false, if_true]
  exact ⟨_, rfl⟩

/-- A lit engine's plan: PLANE_BEGIN, the bands, ALIGN in the dark slot and idle flits. -/
theorem slotPlan_of_active (n : Nat) (hrun : lanesRun s e = true) (hactive : s.swt[e].link = .active) :
    ∃ bands idle, WholeOrCut (.planeBegin (slotAfter s.thr.eng[e] n 1)
        (frameParity s (if n = s.thr.eng[e].s then 1 else 0)) (nextEntry s e n).isNone
        :: (bands ++ (if n = s.thr.eng[e].s then [.align s.swt[e].aligns 1] else []) ++ idle)) (slotPlan s e n) := by
  rw [slotPlan]
  simp only [hrun, hactive, reduceCtorEq, ne_eq, not_true_eq_false, Bool.not_true, Bool.false_eq_true, if_false,
    List.cons_append]
  cases s.thr.eng[e].nextDark.min? with
  | none => exact ⟨_, _, .inl rfl⟩
  | some k => exact ⟨_, _, wholeOrCut_ite⟩

theorem head?_slotPlan_of_active {n : Nat} (hrun : lanesRun s e = true) (hactive : s.swt[e].link = .active)
    (hn : n < s.thr.eng[e].s) :
    (slotPlan s e n).head? = some (.planeBegin (n + 1) (frameParity s 0) (nextEntry s e n).isNone) := by
  obtain ⟨bands, idle, hplan⟩ := slotPlan_of_active n hrun hactive
  rw [slotAfter, if_pos (Nat.succ_le_of_lt hn), if_neg (Nat.ne_of_lt hn)] at hplan
  exact hplan.head?_eq (by simp [SwtCmd.Bandless])

theorem align_mem_slotPlan (hrun : lanesRun s e = true) (hactive : s.swt[e].link = .active) :
    .align s.swt[e].aligns 1 ∈ slotPlan s e s.thr.eng[e].s := by
  obtain ⟨bands, idle, hplan⟩ := slotPlan_of_active s.thr.eng[e].s hrun hactive
  exact hplan.mem (by simp [SwtCmd.Bandless]) (by simp)

end

theorem lanesSlot_swt_self (e : Fin 4) (n : Nat) (s : State) : (lanesSlot e n s).swt[e] = { s.swt[e] with
    flits := s.swt[e].flits + sentFlits (swtLanes s.swt[e].config) s.swt[e].sentWas, sentWas := s.swt[e].sent,
    sent := slotPlan s e n, sentAt := s.now + 2000 - 4 * s.swt[e].latency,
    aligns := s.swt[e].aligns + alignRounds (slotPlan s e n),
    sync := if s.swt[e].link = .off then none
      else some (s.now - wfl s.swt[e].config 16 14, if n = 0 then 128 else 64) } :=
  updWith_self ..

/-- Settles O31: the flits of a list of items, the link after a slot's beginning, then the plan by the link's state. -/
theorem lanesCarryFlits : Obligations.LanesCarryFlits := by
  refine ⟨flitStream_length, ?flit, sentFlits_takeFlits_le, ?slot, fun e n s => slotPlan_of_stopped n,
    fun e n s => slotPlan_of_training n, fun e n s => slotPlan_of_unlit n,
    fun e n s hactive hrun => head?_slotPlan_of_active hrun hactive, fun l i m k n d => rfl,
    fun e s hactive hrun => align_mem_slotPlan hrun hactive⟩
  case flit =>
    intro l f i c x _ h
    obtain ⟨ty, body, hbody, rfl⟩ := flitStream_getElem? h
    exact ⟨rfl, congrArg (· + 1) hbody, byteAt_header ..⟩
  case slot =>
    intro e n s
    rw [lanesSlot_swt_self]
    exact ⟨rfl, rfl, fun h => if_neg h, fun h => if_pos h⟩

end Sys2Proof.Machine
end

section
/-! SUPPORT. Bring-up and loss of a Swath link, its return lane and the statistics of its lanes (R230-R235, R238, R568):
what starting, failing and losing a link make of its record, and the answers of the rows. -/

namespace Sys2Proof.Machine

/-! ## What leaves the links' records as they are -/

@[simp] theorem raiseIf_swt (c : Bool) (id d : Nat) (s : State) : (raiseIf c id d s).swt = s.swt := by
  cases c <;> rfl

@[simp] theorem releaseCause_swt (e : Fin 4) (b : Nat) (s : State) : (releaseCause e b s).swt = s.swt := rfl

@[simp] theorem storedTaps_swt (q : Fin 7) (p : Nat → Bool) (s : State) : (storedTaps q p s).swt = s.swt := rfl

@[simp] theorem adaptLanes_swt (e : Fin 4) (l : List Nat) (s : State) : (adaptLanes e l s).swt = s.swt := by
  rw [adaptLanes, freeTaps]
  refine foldl_proj State.swt _ (fun _ _ => ?_) ..
  rfl

@[simp] theorem slotReported_swt (e : Fin 4) (b : List Byte) (s : State) : (slotReported e b s).swt = s.swt := by
  rw [slotReported]
  split <;> rfl

/-! ## Bring-up (R232, R233) -/

theorem bringsUp_iff (s : State) (e : Fin 4) :
    bringsUp s e = true ↔ s.swt[e].link = .training ∧ s.hth.pwr ≠ .safe := by
  simp [bringsUp]

theorem not_bringsUp_of_up {s : State} {e : Fin 4} (h : s.swt[e].link = .ready ∨ s.swt[e].link = .active) :
    ¬bringsUp s e = true := by
  rw [bringsUp_iff]
  rintro ⟨htraining, -⟩
  rcases h with h | h <;> cases htraining.symm.trans h

/-- A link in step 1 of a first attempt. -/
def SwtEng.Started (w : SwtEng) : Prop := w.link = .training ∧ w.step = 1 ∧ w.attempts = 0

section
variable {e : Fin 4} {s : State}

theorem linkStart_started (e : Fin 4) (s : State) : (linkStart e s).swt[e].Started := by
  simp only [linkStart, setSwt_swt, updWith_self]
  exact ⟨rfl, rfl, rfl⟩

theorem linkFailed_link (e : Fin 4) (s : State) : (linkFailed e s).swt[e].link = .failed := by
  simp only [linkFailed, raise_swt, setSwt_swt, updWith_self]

theorem attemptFailed_link_of_third (h : s.swt[e].attempts = 2) : (attemptFailed e s).swt[e].link = .failed := by
  rw [attemptFailed, if_pos (by omega)]
  exact linkFailed_link ..

theorem attemptFailed_swt_self_of_again (h : s.swt[e].attempts < 2) : (attemptFailed e s).swt[e] = trainSent
    { s.swt[e] with attempts := s.swt[e].attempts + 1, step := 1, tapsDefault := true, blockLock := false,
                    missing := 0, laneOk := 0, soak := Vector.replicate 8 0 } := by
  rw [attemptFailed, if_neg (by omega)]
  simp only [raise_swt, adaptLanes_swt, setSwt_swt, updWith_self]

variable (t : Time)

theorem exec_swtRetry_of_mayStart (hopen : rowOpen s = true) (hlink : s.swt[e].link = .failed ∨ s.swt[e].link = .down)
    (hmay : linkMayStart s e = true) : exec (.swtRetry t e) s = .next { linkStart e (s.at t) with last := .ok } := by
  have hwrite : swtRetryWrite e (s.at t) = (.ok, linkStart e (s.at t)) := if_pos ⟨hlink, hmay⟩
  exact (regAnswer_of_rowOpen _ ((rowOpen_at s t).trans hopen)).trans (by rw [hwrite])

theorem exec_linkBringupStepTimeout_of_bringsUp (h : bringsUp s e = true) :
    exec (.linkBringupStepTimeout t e) s = .next (attemptFailed e (s.at t)) := if_pos h

theorem exec_linkBringupStepTimeout_of_not_bringsUp (h : ¬bringsUp s e = true) :
    exec (.linkBringupStepTimeout t e) s = .next (s.at t) := if_neg h

theorem exec_linkSoakComplete_of_not_bringsUp (h : ¬bringsUp s e = true) :
    exec (.linkSoakComplete t e) s = .next (s.at t) := if_neg fun hboth => h hboth.1

theorem exec_linkSoakComplete_of_soak (h : bringsUp s e = true) (hstep : s.swt[e].step = 6) :
    exec (.linkSoakComplete t e) s = .next (raise evSwtLinkUp e.val (releaseCause e 5 (setSwt e (fun w => { w with
      link := .ready, step := 7, uncorrFrame := 0 }) (s.at t)))) := if_pos ⟨h, hstep⟩

end

/-- Settles O34: the rows by whether bring-up runs, then the record of a link whose attempt fails or that starts. -/
theorem linkBringup : Obligations.LinkBringup := by
  refine ⟨fun t e s hopen hlink hmay => exec_swtRetry_of_mayStart t hopen hlink hmay, ?missed, ?still,
    fun e s => attemptFailed_link_of_third, ?again, ?soaked, linkStart_started⟩
  case missed =>
    intro t e s hlink hpwr
    exact exec_linkBringupStepTimeout_of_bringsUp t ((bringsUp_iff s e).2 ⟨hlink, hpwr⟩)
  case still =>
    intro t e s h
    have hstill : ¬bringsUp s e = true := by
      rw [bringsUp_iff, not_and_or, not_not]
      exact h
    exact ⟨exec_linkBringupStepTimeout_of_not_bringsUp t hstill, exec_linkSoakComplete_of_not_bringsUp t hstill⟩
  case again =>
    intro e s h
    rw [attemptFailed_swt_self_of_again h]
    exact ⟨rfl, rfl, rfl, rfl⟩
  case soaked =>
    intro t e s hlink hpwr hstep
    refine ⟨_, exec_linkSoakComplete_of_soak t ((bringsUp_iff s e).2 ⟨hlink, hpwr⟩) hstep, ?_⟩
    simp only [raise_swt, releaseCause_swt, setSwt_swt, updWith_self, and_self]

/-! ## Losses (R234, R235, R568) -/

section
variable {e : Fin 4} {s : State}

theorem linkLoss_link (e : Fin 4) (s : State) : (linkLoss e s).swt[e].link = .down ∨
    (linkLoss e s).swt[e].link = .failed ∨ (linkLoss e s).swt[e].link = .training := by
  unfold linkLoss
  extract_lets s1 s2 r
  have hdown : s2.swt[e].link = .down := by simp only [s2, setSwt_swt, updWith_self]
  split
  · exact .inl hdown
  split
  · exact .inr (.inl (linkFailed_link ..))
  split
  · exact .inl hdown
  · obtain ⟨hlink, -⟩ := linkStart_started e (setSwt e (fun w => { w with restarts := s2.now :: r }) s2)
    exact .inr (.inr hlink)

theorem lossIfUp_of_up (n : Nat) (h : s.swt[e].link = .ready ∨ s.swt[e].link = .active) :
    lossIfUp n e s = linkLoss e s := if_pos h

theorem lossIfUp_of_bringsUp (n : Nat) (h : bringsUp s e = true) :
    lossIfUp n e s = if n ≤ s.swt[e].step then attemptFailed e s else s := by
  obtain ⟨hlink, -⟩ := (bringsUp_iff s e).1 h
  simp only [lossIfUp, hlink, h, reduceCtorEq, or_self, if_false, Bool.true_and, decide_eq_true_eq]

theorem frameMissing_of_first (h : s.swt[e].missing = 0) :
    frameMissing e s = setSwt e (fun w => { w with missing := w.missing + 1 }) s := by
  refine if_neg ?_
  rw [setSwt_swt, updWith_self]
  show ¬2 ≤ s.swt[e].missing + 1
  omega

/-! ## The return lane (R230, R231) -/

theorem frameRecord_link (e : Fin 4) (b : List Byte) (s : State) :
    (frameRecord e b s).swt[e].link = s.swt[e].link := by
  simp only [frameRecord, raiseIf_swt, slotReported_swt, setSwt_swt, updWith_self]

theorem frameRecord_missing (e : Fin 4) (b : List Byte) (s : State) : (frameRecord e b s).swt[e].missing = 0 := by
  simp only [frameRecord, raiseIf_swt, slotReported_swt, setSwt_swt, updWith_self]

variable (t : Time)

@[simp] theorem linkRuns_at (s : State) (t : Time) (e : Fin 4) : linkRuns (s.at t) e = linkRuns s e := rfl

section
variable (hruns : linkRuns s e = true)
include hruns

theorem exec_statusFrameMissing_of_runs : exec (.statusFrameMissing t e) s = .next (frameMissing e (s.at t)) :=
  if_neg (by simp [hruns])

theorem exec_returnLaneBlockLock_of_runs : exec (.returnLaneBlockLock t e) s = .next (setSwt e (fun w => { w with
    blockLock := true }) (s.at t)) :=
  if_neg (by simp [hruns])

theorem exec_returnLaneBlockLockLoss_of_runs : exec (.returnLaneBlockLockLoss t e) s = .next (lossIfUp
    (if s.swt[e].blockLock then 1 else 2) e (setSwt e (fun w => { w with blockLock := false }) (s.at t))) :=
  if_neg (by simp [hruns])

theorem exec_returnStatusFrame_of_broken {b : List Byte} (hok : statusFrameOk b = false) :
    exec (.returnStatusFrame t e b) s = .next (frameMissing e (s.at t)) :=
  (if_neg (by simp [hruns])).trans (if_pos (by simp [hok]))

theorem exec_returnStatusFrame_of_healthy {b : List Byte} (hok : statusFrameOk b = true)
    (hup : s.swt[e].link = .ready ∨ s.swt[e].link = .active)
    (hhealthy : frameLoss (frameRecord e b (s.at t)) e b = false) :
    exec (.returnStatusFrame t e b) s = .next (frameRecord e b (s.at t)) := by
  have hstill : ¬bringsUp (frameRecord e b (s.at t)) e = true :=
    not_bringsUp_of_up (by rw [frameRecord_link]; exact hup)
  exact (if_neg (by simp [hruns])).trans <| (if_neg (by simp [hok])).trans <| (if_neg hstill).trans <|
    if_neg (by simp [hhealthy])

end

end

/-! ## The statistics of the lanes (R238) -/

/-- A part of the state that only engine `e`'s operation touches changes over the four engines as that operation
changes it. -/
theorem forEng_rel {β : Type} {proj : State → β} {R : β → β → Prop} {f : Fin 4 → State → State} {e : Fin 4}
    (hself : ∀ s, R (proj s) (proj (f e s))) (hother : ∀ d s, d ≠ e → proj (f d s) = proj s) (s : State) :
    R (proj s) (proj (forEng f s)) := by
  rw [forEng_eq]
  match e with
  | 0 =>
    rw [hother 3 _ (by decide), hother 2 _ (by decide), hother 1 _ (by decide)]
    exact hself s
  | 1 =>
    rw [hother 3 _ (by decide), hother 2 _ (by decide), ← hother 0 s (by decide)]
    exact hself _
  | 2 =>
    rw [hother 3 _ (by decide), ← hother 0 s (by decide), ← hother 1 _ (by decide)]
    exact hself _
  | 3 =>
    rw [← hother 0 s (by decide), ← hother 1 _ (by decide), ← hother 2 _ (by decide)]
    exact hself _

/-- Lane `m`'s count of the second has become its statistic and starts again. -/
def SwtEng.SecondEnded (m : Fin 8) (w w' : SwtEng) : Prop := w'.laneCorr[m] = w.laneAcc[m] ∧ w'.laneAcc[m] = 0

/-- Lane `m`'s count and statistic are as they were. -/
def SwtEng.SecondKept (m : Fin 8) (w w' : SwtEng) : Prop :=
  w'.laneCorr[m] = w.laneCorr[m] ∧ w'.laneAcc[m] = w.laneAcc[m]

theorem laneSecond_other {d e : Fin 4} (m : Fin 8) (s : State) (h : d ≠ e) :
    (laneSecond d m s).swt[e] = s.swt[e] := by
  simp only [laneSecond, raiseIf_swt, setSwt_swt]
  exact updWith_other _ _ _ _ h

theorem laneSecond_secondEnded (e : Fin 4) (m : Fin 8) (s : State) :
    s.swt[e].SecondEnded m (laneSecond e m s).swt[e] := by
  simp only [laneSecond, raiseIf_swt, setSwt_swt, updWith_self]
  exact ⟨upd_self .., upd_self ..⟩

theorem laneSecond_secondKept (e : Fin 4) {m k : Fin 8} (h : m ≠ k) (s : State) :
    s.swt[e].SecondKept k (laneSecond e m s).swt[e] := by
  simp only [laneSecond, raiseIf_swt, setSwt_swt, updWith_self]
  exact ⟨upd_other _ _ _ _ h, upd_other _ _ _ _ h⟩

section
variable {e : Fin 4} {k : Fin 8}

theorem foldl_laneSecond_secondKept {l : List (Fin 8)} (h : k ∉ l) (s : State) :
    s.swt[e].SecondKept k (l.foldl (fun b m => laneSecond e m b) s).swt[e] := by
  induction l generalizing s with
  | nil => exact ⟨rfl, rfl⟩
  | cons m l ih =>
    obtain ⟨hm, hl⟩ := not_or.1 (mt List.mem_cons.2 h)
    obtain ⟨hcorr, hacc⟩ := ih hl (laneSecond e m s)
    obtain ⟨hcorr1, hacc1⟩ := laneSecond_secondKept e (Ne.symm hm) s
    exact ⟨hcorr.trans hcorr1, hacc.trans hacc1⟩

theorem foldl_laneSecond_secondEnded {l : List (Fin 8)} (hnodup : l.Nodup) (h : k ∈ l) (s : State) :
    s.swt[e].SecondEnded k (l.foldl (fun b m => laneSecond e m b) s).swt[e] := by
  induction l generalizing s with
  | nil => exact absurd h List.not_mem_nil
  | cons m l ih =>
    obtain ⟨hm, hl⟩ := List.nodup_cons.1 hnodup
    by_cases hk : m = k
    · subst hk
      obtain ⟨hcorr, hacc⟩ := foldl_laneSecond_secondKept (e := e) hm (laneSecond e m s)
      obtain ⟨hcorr1, hacc1⟩ := laneSecond_secondEnded e m s
      exact ⟨hcorr.trans hcorr1, hacc.trans hacc1⟩
    · obtain ⟨hcorr, hacc⟩ := ih hl ((List.mem_cons.1 h).resolve_left (Ne.symm hk)) (laneSecond e m s)
      obtain ⟨-, hacc1⟩ := laneSecond_secondKept e hk s
      exact ⟨hcorr.trans hacc1, hacc⟩

end

theorem lanesSecond_secondEnded (e : Fin 4) (k : Fin 8) (s : State) : s.swt[e].SecondEnded k
    (forEng (fun e a => (List.finRange 8).foldl (fun b m => laneSecond e m b) a) s).swt[e] :=
  forEng_rel (proj := fun s => s.swt[e])
    (fun s => foldl_laneSecond_secondEnded (List.nodup_finRange 8) (List.mem_finRange k) s)
    (fun _ s h => foldl_proj (fun s => s.swt[e]) _ (fun s m => laneSecond_other m s h) _ s) s

theorem exec_laneCorrSecond_of_fastUp (t : Time) {s : State} (hup : s.fastUp = true) : exec (.laneCorrSecond t) s =
    .next (forEng (fun e a => (List.finRange 8).foldl (fun b m => laneSecond e m b) a) (s.at t)) :=
  if_neg (by simp [hup])

theorem exec_laneCorrSecond_of_not_fastUp (t : Time) {s : State} (hup : s.fastUp = false) :
    exec (.laneCorrSecond t) s = .next (s.at t) :=
  if_pos (by simp [hup])

/-- Settles O35: the rows of the return lane, the losses, and the second of the lanes. -/
theorem returnLaneAndLaneStatistics : Obligations.ReturnLaneAndLaneStatistics := by
  refine ⟨fun t e s => exec_statusFrameMissing_of_runs t,
    fun t e b s hruns => exec_returnStatusFrame_of_broken t hruns,
    fun t e b s hruns => exec_returnStatusFrame_of_healthy t hruns,
    frameRecord_missing, fun t e s => exec_returnLaneBlockLock_of_runs t, ?lockLost,
    fun n e s hlink hpwr => lossIfUp_of_bringsUp n ((bringsUp_iff s e).2 ⟨hlink, hpwr⟩),
    fun e s => frameMissing_of_first, linkLoss_link, ?second, fun t s => exec_laneCorrSecond_of_not_fastUp t⟩
  case lockLost =>
    intro t e s hruns hlink
    rw [exec_returnLaneBlockLockLoss_of_runs t hruns, lossIfUp_of_up]
    · rfl
    · rw [setSwt_swt, updWith_self]
      exact hlink
  case second =>
    intro t s hup
    exact ⟨_, exec_laneCorrSecond_of_fastUp t hup, fun e m => lanesSecond_secondEnded e m (s.at t)⟩

end Sys2Proof.Machine
end

section
/-! SUPPORT. A Temper move at its boundary (R261, R404, R487): the boundary is that of the step's own time, so that a
threshold of a scanner does not move once the flyback has ended. -/

namespace Sys2Proof.Machine

theorem exec_temperMove_of_steady (t : Time) {q : Fin 7} {k : Nat} {g : Int} {s : State}
    (hstep : look s.tmp.steps[q] k = some g) (hon : temperOn s q = true) (hsteady : tapSteady s q k = true) :
    exec (.temperMove t q k) s = .next (if moveWins (s.at t) q k then applyMove q k g (s.at t) else s.at t) := by
  have hon' : temperOn (s.at t) q = true := hon
  have hsteady' : tapSteady (s.at t) q k = true := hsteady
  show execTemperMove t q k s = _
  rw [execTemperMove]
  simp only [State_at_tmp, hstep, hon', hsteady', Bool.not_true, Bool.or_self, Bool.false_eq_true, if_false]
  split <;> rfl

/-- A device in READY whose scanner 0 began its flyback at time 0, with a step of its threshold from 0 to 1. -/
def flybackRuns : State :=
  { State.reset with
    hth.boot := .on, hth.pwr := .ready, scn := Vector.replicate 4 { st := .active, fly := some (0, 0) },
    tmp.steps := Vector.replicate 7 [(0, 1)] }

/-- The clause on moves asks `moveWins` of the state before the step, whose time is that of the command before. A
threshold moves only in flyback (R261), which can end in between: then the row leaves the step in progress. Here the
flyback of 2.5 ms begins at time 0 and the boundary comes a second later. -/
theorem flybackRuns_move_waits :
    exec (.temperMove sec 5 0) flybackRuns = .next (flybackRuns.at sec) := by
  rw [exec_temperMove_of_steady sec (g := 1) (by decide +kernel) (by decide +kernel) (by decide +kernel),
    if_neg (by decide +kernel)]

/-- Refutes O53 by its clause on moves: `flybackRuns` meets its hypotheses, and the working value does not move. -/
theorem not_temperAndCalibration : ¬ Obligations.TemperAndCalibration := by
  rintro ⟨-, -, -, -, hmove, -⟩
  have hmoved := hmove sec 5 0 1 flybackRuns (by decide +kernel) (by decide +kernel) (by decide +kernel)
    (by decide +kernel)
  rw [flybackRuns_move_waits] at hmoved
  have hworking : tapWorking (flybackRuns.at sec) 5 0 = tapWorking (applyMove 5 0 1 (flybackRuns.at sec)) 5 0 :=
    congrArg (fun x => tapWorking x 5 0) (Host.Outcome.next.inj hmoved)
  exact absurd hworking (by decide +kernel)

end Sys2Proof.Machine
end

section
/-! SUPPORT. Starts and stops of a scanner (R244, R259, R260, R262): what the start and end of the excitation leave in the
Scan record, what a stop leaves there, and the answers of the rows that start or stop a scanner. -/

namespace Sys2Proof.Machine

/-! ## What leaves the scanners as they are -/

@[simp] theorem raiseIf_scn (c : Bool) (id d : Nat) (s : State) : (raiseIf c id d s).scn = s.scn := by
  cases c <;> rfl

@[simp] theorem judgeHolder_scn (s : State) : (judgeHolder s).scn = s.scn := by
  obtain ⟨h, r, p, n, e, heq⟩ := judgeHolder_eq s
  rw [heq]

@[simp] theorem judgeHolder_frg (s : State) : (judgeHolder s).frg = s.frg := by
  obtain ⟨h, r, p, n, e, heq⟩ := judgeHolder_eq s
  rw [heq]

/-- An output set to 0.0 is a code of a DAC, of a channel or of the excitation, and no part of an engine's record. -/
@[simp] theorem zeroOut_frg_eng (n : Fin 64) (s : State) : (zeroOut n s).frg.eng = s.frg.eng := by
  rw [zeroOut]
  split <;> rfl

@[simp] theorem zeroOut_scn (n : Fin 64) (s : State) : (zeroOut n s).scn = s.scn := by
  rw [zeroOut]
  split <;> rfl

@[simp] theorem scanLoopsHold_scn (e : Fin 4) (s : State) : (scanLoopsHold e s).scn = s.scn := by
  rw [scanLoopsHold]
  refine foldl_proj State.scn _ (fun a n => ?_) _ s
  dsimp only
  split
  · exact zeroOut_scn n a
  · rfl

@[simp] theorem scanLoopsHold_frg_eng (e : Fin 4) (s : State) : (scanLoopsHold e s).frg.eng = s.frg.eng := by
  rw [scanLoopsHold]
  refine foldl_proj (fun x => x.frg.eng) _ (fun a n => ?_) _ s
  dsimp only
  split
  · exact zeroOut_frg_eng n a
  · rfl

@[simp] theorem loopsResume_scn (p : Loop → Bool) (s : State) : (loopsResume p s).scn = s.scn := rfl

/-! ## Darkness and excitation (R244, R285) -/

section
variable (e : Fin 4) (s : State)

theorem engineDark_scn : (engineDark e s).scn =
    updWith s.scn e fun w => { w with st := if w.st = .active then .inWindow else w.st, line := none } := rfl

theorem engineDark_frg_eng : (engineDark e s).frg.eng = updWith s.frg.eng e fun x => { x with lit := false } := rfl

/-- A dark cause ends the drawing of a row and the ACTIVE state of the scanner. -/
theorem darkCause_scn_self (b : Nat) : (darkCause e b s).scn[e] =
    { s.scn[e] with st := if s.scn[e].st = .active then .inWindow else s.scn[e].st, line := none } := by
  rw [darkCause, judgeHolder_scn, engineDark_scn, updWith_self]
  rfl

theorem darkCause_lit (b : Nat) : (darkCause e b s).frg.eng[e].lit = false := by
  rw [darkCause, judgeHolder_frg, engineDark_frg_eng, updWith_self]

theorem exciteStart_scn_self (st : ScanSt) : (exciteStart st e s).scn[e] = { s.scn[e] with
    st := st, excited := true, excitedAt := s.now, edge := none, edgeWas := none, accepted := none, intervals := [],
    period := none, missed := 0, freqBad := 0, winRun := 0, ampLow := 0, slowRaised := false, drawing := false,
    line := none, fifo := [], fly := none, devSince := none, yRows := -32768, skip := false } :=
  updWith_self ..

@[simp] theorem exciteStart_frg (st : ScanSt) : (exciteStart st e s).frg = s.frg := rfl

theorem exciteStop_scn_self : (exciteStop e s).scn[e] = { s.scn[e] with
    excited := false, edge := none, edgeWas := none, accepted := none, intervals := [], period := none,
    drawing := false, line := none, fifo := [], fly := none, devSince := none, yRows := -32768 } := by
  rw [exciteStop, scanLoopsHold_scn]
  exact updWith_self ..

@[simp] theorem exciteStop_frg_eng : (exciteStop e s).frg.eng = s.frg.eng := scanLoopsHold_frg_eng ..

end

/-! ## A stop (R260, R262) -/

/-- A stop up to its outcome: the engine goes dark, the stop is counted and raised, and the excitation ends under
conditions 1 and 5. -/
def scanHalted (e : Fin 4) (c : Nat) (s : State) : State :=
  let s1 := raise evScnStop (c * 4 + e.val) (setScn e (fun w => { w with
    st := .stopped, stops := satInc 16 w.stops, stopTimes := s.now :: recentStops s e, stoppedOnce := true,
    asked := false, winRun := 0, freqBad := 0, ampLow := 0, missed := 0 }) (darkCause e 6 s))
  if c = 1 ∨ c = 5 then exciteStop e s1 else s1

section
variable {e : Fin 4} {c : Nat} {s : State}

theorem scanStop_of_not_stopsIn (h : stopsIn s.scn[e] = false) : scanStop e c s = s :=
  if_pos (by rw [h]; rfl)

/-- The outcome of a stop: FAILED, excited again, or left as it is. -/
theorem scanStop_of_stopsIn (h : stopsIn s.scn[e] = true) : scanStop e c s =
    if 3 ≤ (recentStops s e).length ∨ 3 ≤ (recentRelights (scanHalted e c s) e).length then
      raise evScnFailed e.val (setScn e (fun w => { w with st := .failed }) (scanHalted e c s))
    else if (scanHalted e c s).scn[e].autoRestart ∧ (c = 1 ∨ c = 5) then exciteStart .stopped e (scanHalted e c s)
    else scanHalted e c s :=
  if_neg (by rw [h]; decide)

theorem scanHalted_scn_self (e : Fin 4) (c : Nat) (s : State) :
    (scanHalted e c s).scn[e].st = .stopped ∧ (scanHalted e c s).scn[e].stops = satInc 16 s.scn[e].stops ∧
      (scanHalted e c s).scn[e].autoRestart = s.scn[e].autoRestart := by
  unfold scanHalted
  extract_lets s1
  have hs1 : s1.scn[e] = _ := (updWith_self ..).trans (by rw [darkCause_scn_self])
  split
  · rw [exciteStop_scn_self, hs1]
    exact ⟨rfl, rfl, rfl⟩
  · rw [hs1]
    exact ⟨rfl, rfl, rfl⟩

theorem scanHalted_excited (hc : c = 1 ∨ c = 5) : (scanHalted e c s).scn[e].excited = false := by
  rw [scanHalted, if_pos hc, exciteStop_scn_self]

theorem scanHalted_lit (e : Fin 4) (c : Nat) (s : State) : (scanHalted e c s).frg.eng[e].lit = false := by
  simp only [scanHalted, apply_ite (fun x : State => x.frg.eng), exciteStop_frg_eng, raise_frg, setScn_frg, ite_self,
    darkCause_lit]

section
variable (h : stopsIn s.scn[e] = true)
include h

theorem scanStop_st : (scanStop e c s).scn[e].st = .stopped ∨ (scanStop e c s).scn[e].st = .failed := by
  obtain ⟨hst, -, -⟩ := scanHalted_scn_self e c s
  rw [scanStop_of_stopsIn h]
  split
  · exact .inr (congrArg ScnEng.st (updWith_self ..))
  split
  · exact .inl (congrArg ScnEng.st (exciteStart_scn_self ..))
  · exact .inl hst

theorem scanStop_stops : (scanStop e c s).scn[e].stops = satInc 16 s.scn[e].stops := by
  obtain ⟨-, hstops, -⟩ := scanHalted_scn_self e c s
  rw [scanStop_of_stopsIn h]
  split
  · exact (congrArg ScnEng.stops (updWith_self ..)).trans hstops
  split
  · exact (congrArg ScnEng.stops (exciteStart_scn_self ..)).trans hstops
  · exact hstops

theorem scanStop_lit : (scanStop e c s).frg.eng[e].lit = false := by
  rw [scanStop_of_stopsIn h]
  simp only [apply_ite State.frg, raise_frg, setScn_frg, exciteStart_frg, ite_self, scanHalted_lit]

theorem scanStop_st_of_fourth (hfourth : 3 ≤ (recentStops s e).length) :
    (scanStop e c s).scn[e].st = .failed := by
  rw [scanStop_of_stopsIn h, if_pos (.inl hfourth)]
  exact congrArg ScnEng.st (updWith_self ..)

/-- Without AUTO_RESTART, the excitation that conditions 1 and 5 end stays ended. -/
theorem scanStop_excited (hc : c = 1 ∨ c = 5) (hauto : s.scn[e].autoRestart = false) :
    (scanStop e c s).scn[e].excited = false := by
  obtain ⟨-, -, hrestart⟩ := scanHalted_scn_self e c s
  have hended : (scanHalted e c s).scn[e].excited = false := scanHalted_excited hc
  rw [scanStop_of_stopsIn h]
  split
  · exact (congrArg ScnEng.excited (updWith_self ..)).trans hended
  · rw [if_neg (by simp only [hrestart, hauto, Bool.false_eq_true, false_and, not_false_eq_true])]
    exact hended

end

/-! ## The rows that start and stop a scanner -/

theorem scanRestart_scn_self (hlse : s.isLse e = true) (hst : s.scn[e].st = .stopped ∨ s.scn[e].st = .failed) :
    (scanRestart e s).scn[e] = { (exciteStart .excite e s).scn[e] with asked := true } := by
  rw [scanRestart, if_pos ⟨hlse, hst⟩]
  exact updWith_self ..

variable (t : Time)

@[simp] theorem isLse_at (s : State) (t : Time) (e : Fin 4) : (s.at t).isLse e = s.isLse e := rfl

theorem exec_scnRestart_of_rowOpen (hopen : rowOpen s = true) :
    exec (.scnRestart t e) s = .next { scanRestart e (s.at t) with last := .ok } :=
  regAnswer_of_rowOpen (fun s => (.ok, scanRestart e s)) ((rowOpen_at s t).trans hopen)

theorem exec_scanStartTimeout_of_excite (hlse : s.isLse e = true) (hrun : s.scn[e].excited = true)
    (hst : s.scn[e].st = .excite) (hfirst : s.scn[e].slowRaised = false) (hdue : s.scn[e].excitedAt + 250 * ms ≤ t) :
    exec (.scanStartTimeout t e) s =
      .next (raise evScnStartSlow e.val (setScn e (fun w => { w with slowRaised := true }) (s.at t))) :=
  if_pos (by simp only [isLse_at, State_at_scn, State_at_now, hlse, hrun, hst, hfirst, hdue.trans (le_max_right ..),
    beq_self_eq_true, Bool.true_or, Bool.not_false, Bool.and_self, decide_true])

theorem exec_verticalDeviationTimeout_of_devSince {a : Time} (hlse : s.isLse e = true)
    (hrun : s.scn[e].excited = true) (hoff : s.scn[e].devSince = some a) (hdue : a + 50 * us ≤ t) :
    exec (.verticalDeviationTimeout t e) s = .next (scanStop e 5 (s.at t)) :=
  if_pos (by simp only [isLse_at, State_at_scn, State_at_now, hlse, hrun, hoff, hdue.trans (le_max_right ..),
    decide_true, Bool.and_self])

theorem exec_verticalDeviationTimeout_of_none (hoff : s.scn[e].devSince = none) :
    exec (.verticalDeviationTimeout t e) s = .next (s.at t) :=
  if_neg (by simp only [State_at_scn, hoff, Bool.and_false, Bool.false_eq_true, not_false_eq_true])

/-- With fewer than three low samples in a row before it, a sample is kept and stops nothing. -/
theorem exec_amplitudeSample_of_few (a : Nat) (hlse : s.isLse e = true) (hrun : s.scn[e].excited = true)
    (hfew : s.scn[e].ampLow < 3) : ∃ low inside : Bool, exec (.amplitudeSample t e a) s =
      .next (setScn e (fun w => { w with
          ampLow := if low then w.ampLow + 1 else 0, winRun := if inside then w.winRun else 0 })
        (setScn e (fun w => { w with amp := a }) (s.at t))) := by
  show ∃ low inside, execAmplitudeSample t e a s = _
  unfold execAmplitudeSample
  extract_lets s0 s1 low inside s2
  have hlow : s2.scn[e].ampLow = if low then s.scn[e].ampLow + 1 else 0 := by
    simp only [s2, s1, s0, setScn_scn, updWith_self, State_at_scn]
  have hbelow : ¬4 ≤ s2.scn[e].ampLow := by
    rw [hlow]
    split <;> omega
  refine ⟨low, inside, ?_⟩
  rw [if_neg (by simp only [s0, isLse_at, State_at_scn, hlse, hrun, Bool.not_true, Bool.false_eq_true, or_self,
    not_false_eq_true]), if_neg hbelow]

section
variable (hlse : s.isLse e = false)
include hlse

theorem exec_verticalDeviationTimeout_of_not_isLse : exec (.verticalDeviationTimeout t e) s = .next (s.at t) :=
  if_neg (by simp [hlse])

theorem exec_scanStartTimeout_of_not_isLse : exec (.scanStartTimeout t e) s = .next (s.at t) :=
  if_neg (by simp [hlse])

theorem exec_amplitudeSample_of_not_isLse (a : Nat) : exec (.amplitudeSample t e a) s = .next (s.at t) :=
  if_pos (by simp [hlse])

end

end

/-- Settles O36: the rows by whether the scanner runs, then what a restart and a stop leave of its record. -/
theorem scannerStartsAndStops : Obligations.ScannerStartsAndStops := by
  refine ⟨?restart, fun t e s => exec_scanStartTimeout_of_excite t,
    fun t a e s => exec_verticalDeviationTimeout_of_devSince t,
    fun t e s => exec_verticalDeviationTimeout_of_none t, ?stop, fun e c s => scanStop_of_not_stopsIn, ?sample,
    ?noScanner⟩
  case restart =>
    intro t e s hopen hlse hst
    have hself : (scanRestart e (s.at t)).scn[e] = _ := scanRestart_scn_self hlse hst
    refine ⟨_, exec_scnRestart_of_rowOpen t hopen, rfl, ?_⟩
    dsimp only
    rw [hself, exciteStart_scn_self]
    exact ⟨rfl, rfl, rfl⟩
  case stop =>
    intro e c s h
    exact ⟨scanStop_st h, scanStop_stops h, scanStop_lit h, scanStop_st_of_fourth h, scanStop_excited h⟩
  case sample =>
    intro t e a s hlse hrun hfew
    obtain ⟨low, inside, hexec⟩ := exec_amplitudeSample_of_few t a hlse hrun hfew
    refine ⟨_, hexec, ?_⟩
    simp only [setScn_scn, updWith_self, State_at_scn, true_and]
    split <;> omega
  case noScanner =>
    intro t e s hlse
    exact ⟨exec_verticalDeviationTimeout_of_not_isLse t hlse, exec_scanStartTimeout_of_not_isLse t hlse,
      fun a => exec_amplitudeSample_of_not_isLse t hlse a⟩

end Sys2Proof.Machine
end

section
/-! SUPPORT. Pick-off edges (R245) and the rows of a scanned engine (R247, R249, R252, R255, R256): the answers of the
rows by what they find of the scanner, and what the beginning of a row leaves in its record. -/

namespace Sys2Proof.Machine

/-! ## What leaves the scanners as they are -/

theorem portSlot_scn (p : Nat) (s : State) : (portSlot p s).scn = s.scn := by
  rw [portSlot]
  split <;> rfl

theorem starveTick_scn (s : State) : (starveTick s).scn = s.scn :=
  foldl_proj State.scn _ (fun _ _ => portSlot_scn ..) ..

@[simp] theorem portLevel_scn (e : Fin 4) (u : Urg) (s : State) : (portLevel e u s).scn = s.scn := by
  simp only [portLevel, apply_ite State.scn, raise_scn, setGrn_scn, starveTick_scn, ite_self]

/-! ## Pick-off edges (R245) -/

section
variable {e : Fin 4} {p : Frac} {s : State}

theorem edgeIgnored_scn_self (e : Fin 4) (s : State) : (edgeIgnored e s).scn[e] =
    { s.scn[e] with
      spurious := s.scn[e].spurious + 1, ignored := s.scn[e].ignored + 1, spuriousRaised := true } := by
  rw [edgeIgnored, raiseIf_scn, setScn_scn, updWith_self]

theorem lineFollows_of_noLine (h : s.scn[e].line = none) : lineFollows e s = s := by
  simp only [lineFollows, h]

theorem lineFollows_missed (e : Fin 4) (s : State) : (lineFollows e s).scn[e].missed = s.scn[e].missed := by
  unfold lineFollows
  split
  · split
    · rfl
    · simp only [setScn_scn, updWith_self]
  · rfl

/-- The prediction stands in for an edge: it becomes the last edge, and the row being drawn counts from it. -/
def edgeStandsIn (e : Fin 4) (a : Time) (p : Frac) (s : State) : State :=
  lineFollows e (setScn e (fun w => { w with
    edge := some (a + p.round), edgeWas := some a, missed := w.missed + 1 }) s)

theorem edgeStandsIn_missed (e : Fin 4) (a : Time) (p : Frac) (s : State) :
    (edgeStandsIn e a p s).scn[e].missed = s.scn[e].missed + 1 := by
  rw [edgeStandsIn, lineFollows_missed, setScn_scn, updWith_self]

variable (t : Time)

section
variable (hlse : s.isLse e = true) (hrun : s.scn[e].excited = true)
include hlse hrun

theorem exec_pickoffEdge_of_forming (hperiod : s.scn[e].period = none) :
    exec (.pickoffEdge t e) s = .next (edgeForming e (s.at t)) := by
  show execPickoffEdge t e s = _
  simp only [execPickoffEdge, isLse_at, State_at_scn, hlse, hrun, hperiod, Bool.not_true, Bool.false_eq_true, or_self,
    if_false]

theorem exec_pickoffEdge_of_near (hperiod : s.scn[e].period = some p)
    (hnear : (((max s.now t - s.scn[e].edge.getD (max s.now t)) * p.den : Nat) - (p.num : Int)).natAbs * 25 ≤ p.num) :
    exec (.pickoffEdge t e) s = .next (edgeAccepted e p (s.at t)) := by
  show execPickoffEdge t e s = _
  simp only [execPickoffEdge, isLse_at, State_at_scn, State_at_now, hlse, hrun, hperiod, hnear, Bool.not_true,
    Bool.false_eq_true, or_self, if_false, if_true]

theorem exec_pickoffEdge_of_far (hperiod : s.scn[e].period = some p)
    (hfar : p.num < (((max s.now t - s.scn[e].edge.getD (max s.now t)) * p.den : Nat) - (p.num : Int)).natAbs * 25) :
    exec (.pickoffEdge t e) s = .next (edgeIgnored e (s.at t)) := by
  show execPickoffEdge t e s = _
  simp only [execPickoffEdge, isLse_at, State_at_scn, State_at_now, hlse, hrun, hperiod, hfar.not_ge, Bool.not_true,
    Bool.false_eq_true, or_self, if_false]

section
variable {a : Time} (hperiod : s.scn[e].period = some p) (hedge : s.scn[e].edge = some a)
  (hclosed : 26 * p.num ≤ 25 * (max s.now t - a) * p.den)
include hperiod hedge hclosed

theorem exec_predictedEdgeMissed_of_first (hmissed : s.scn[e].missed = 0) :
    exec (.predictedEdgeMissed t e) s = .next (edgeStandsIn e a p (s.at t)) := by
  have hfew : ¬2 ≤ (edgeStandsIn e a p (s.at t)).scn[e].missed := by
    rw [edgeStandsIn_missed, State_at_scn, hmissed]
    decide
  rw [edgeStandsIn] at hfew
  show execPredictedEdgeMissed t e s = _
  simp only [execPredictedEdgeMissed, isLse_at, State_at_scn, State_at_now, hlse, hrun, hperiod, hedge, Bool.not_true,
    Bool.false_eq_true, hclosed.not_gt, or_self, if_false, hfew, edgeStandsIn]

theorem exec_predictedEdgeMissed_of_second (hmissed : s.scn[e].missed = 1) :
    exec (.predictedEdgeMissed t e) s = .next (scanStop e 2 (edgeStandsIn e a p (s.at t))) := by
  have htwo : 2 ≤ (edgeStandsIn e a p (s.at t)).scn[e].missed := by
    rw [edgeStandsIn_missed, State_at_scn, hmissed]
  rw [edgeStandsIn] at htwo
  show execPredictedEdgeMissed t e s = _
  simp only [execPredictedEdgeMissed, isLse_at, State_at_scn, State_at_now, hlse, hrun, hperiod, hedge, Bool.not_true,
    Bool.false_eq_true, hclosed.not_gt, or_self, if_false, htwo, if_true, edgeStandsIn]

end

end

theorem exec_predictedEdgeMissed_of_open {a : Time} (hperiod : s.scn[e].period = some p)
    (hedge : s.scn[e].edge = some a) (hopen : 25 * (max s.now t - a) * p.den < 26 * p.num) :
    exec (.predictedEdgeMissed t e) s = .next (s.at t) := by
  show execPredictedEdgeMissed t e s = _
  simp only [execPredictedEdgeMissed, State_at_scn, State_at_now, hperiod, hedge, hopen, or_true, if_true]

/-! ## Rows (R249, R252, R255, R256) -/

/-- The row that may run now is the next of the frame. -/
theorem rowLine_row {l : Line} (h : rowLine s e = some l) : l.row = s.scn[e].row := by
  unfold rowLine at h
  extract_lets w at h
  split at h
  · extract_lets n l0 at h
    split at h
    · cases h
    split at h
    · exact congrArg Line.row (Option.some.inj h.symm)
    split at h
    · obtain ⟨b, -, rfl⟩ := Option.map_eq_some_iff.1 h
      rfl
    · cases h
  · cases h

theorem rowLine_of_frameDone (h : s.eng[e].h ≤ s.scn[e].row) : rowLine s e = none := by
  unfold rowLine
  extract_lets w
  split
  · simp only [w, h, decide_true, Bool.or_true, Bool.true_or, if_true]
  · rfl

theorem lineCols_length {l : Line} {k : Fin 6} (hbright : l.dark = false) (hlit : s.frg.eng[e].lit = true)
    (hchan : chanOk s (chan e k.val) = true) : (lineCols s e l k).length = s.eng[e].w := by
  simp only [lineCols, hbright, hlit, hchan, Bool.not_true, Bool.or_self, Bool.false_eq_true, if_false,
    List.length_map, List.length_range]

theorem lineCols_of_dark {l : Line} (k : Fin 6) (h : l.dark = true) : lineCols s e l k = [] :=
  if_pos (by rw [h]; rfl)

theorem rowDark_scn_self (e : Fin 4) (s : State) : (rowDark e s).scn[e] =
    { s.scn[e] with underrun := satInc 16 s.scn[e].underrun, underRaised := true } := by
  rw [rowDark, raiseIf_scn, setScn_scn, updWith_self]

/-- Row `l.row` begins: it is drawn from now on, and row 0 sets t0. -/
theorem rowDrawn_scn_self (e : Fin 4) (l : Line) (b : Bool) (s : State) : ∃ rows cols, (rowDrawn e l b s).scn[e] =
    { s.scn[e] with
      t0 := if l.row = 0 then (halfStart s.scn[e] l).toNat else s.scn[e].t0, rowAt := (halfStart s.scn[e] l).toNat,
      row := l.row + 1, drawing := true, fly := none, fifo := rows, line := some { l with dark := !b, cols := cols } } ∧
    (b = false → ∀ k : Fin 6, cols[k] = []) := by
  unfold rowDrawn
  extract_lets hs want rows l1 s1
  have hs1 : s1.scn[e] = _ := updWith_self ..
  refine ⟨rows, tab 6 fun k => lineCols s1 e l1 k, (updWith_self ..).trans (by rw [hs1]), fun hb k => ?_⟩
  have hdark : l1.dark = true := congrArg (!·) hb
  rw [tab_getElem]
  exact lineCols_of_dark k hdark

section
variable {l : Line} (n : Nat) (hline : rowLine (s.at t) e = some l) (hdue : rowDue (s.at t) e l = true)
include hline hdue

theorem exec_rowStart_of_complete : exec (.rowStart t e n true) s =
    .next (portLevel e (rowLevel s.eng[e].w n) (rowDrawn e l true (s.at t))) := by
  show execRowStart t e n true s = _
  simp only [execRowStart, hline, hdue, State_at_eng, Bool.not_true, Bool.and_false, Bool.false_eq_true, if_false]

theorem exec_rowStart_of_incomplete (hlit : s.frg.eng[e].lit = true) : exec (.rowStart t e n false) s =
    .next (rowDark e (portLevel e (rowLevel s.eng[e].w n) (rowDrawn e l false (s.at t)))) := by
  show execRowStart t e n false s = _
  simp only [execRowStart, hline, hdue, State_at_eng, State_at_frg, hlit, Bool.not_true, Bool.not_false, Bool.and_self,
    Bool.false_eq_true, if_false, if_true]

end

theorem exec_rowStart_of_frameDone (n : Nat) (b : Bool) (h : s.eng[e].h ≤ s.scn[e].row) :
    exec (.rowStart t e n b) s = .next (s.at t) := by
  have hnone : rowLine (s.at t) e = none := rowLine_of_frameDone h
  show execRowStart t e n b s = _
  simp only [execRowStart, hnone]

theorem exec_flyback_of_ended (hlse : s.isLse e = true) (hdraw : s.scn[e].drawing = true)
    (hperiod : s.scn[e].period = some p) (hlast : s.eng[e].h ≤ s.scn[e].row)
    (hended : s.scn[e].rowAt + p.floor / 2 ≤ t) : exec (.flyback t e) s = .next (setScn e (fun w => { w with
      drawing := false, line := none, fifo := [], yRows := rowsNow (s.at t) e,
      fly := some (max s.now t, rowsNow (s.at t) e) }) (s.at t)) := by
  show execFlyback t e s = _
  simp only [execFlyback, isLse_at, State_at_scn, State_at_eng, State_at_now, hperiod, hlse, hdraw, hlast,
    hended.trans (le_max_right ..), decide_true, Bool.and_self, if_true]

theorem exec_flyback_of_not_drawing (h : s.scn[e].drawing = false) :
    exec (.flyback t e) s = .next (s.at t) := by
  show execFlyback t e s = _
  unfold execFlyback
  extract_lets s0 w
  split
  · rfl
  · rw [if_neg]
    simp only [w, s0, State_at_scn, h, Bool.and_false, Bool.false_and, Bool.false_eq_true, not_false_eq_true]

end

/-- Settles O37: the rows by what they find of the scanner, then the record of a scanner whose row begins. -/
theorem pickoffEdgesAndRows : Obligations.PickoffEdgesAndRows := by
  refine ⟨fun t e p s => exec_pickoffEdge_of_near t, ?far, fun t e s => exec_pickoffEdge_of_forming t,
    fun t a e p s hlse hrun => exec_predictedEdgeMissed_of_first t hlse hrun,
    fun t a e p s hlse hrun => exec_predictedEdgeMissed_of_second t hlse hrun,
    fun t a e p s => exec_predictedEdgeMissed_of_open t, fun e s => lineFollows_of_noLine, ?complete, ?incomplete,
    fun t e n b s => exec_rowStart_of_frameDone t n b, fun e l k s => lineCols_length,
    fun t e p s => exec_flyback_of_ended t, fun t e s => exec_flyback_of_not_drawing t⟩
  case far =>
    intro t e p s hlse hrun hperiod hfar
    refine ⟨_, exec_pickoffEdge_of_far t hlse hrun hperiod hfar, ?_⟩
    rw [edgeIgnored_scn_self]
    exact ⟨rfl, rfl, hperiod⟩
  case complete =>
    intro t e n l s hline hdue
    obtain ⟨rows, cols, hself, -⟩ := rowDrawn_scn_self e l true (s.at t)
    have hrow : l.row = s.scn[e].row := rowLine_row (s := s.at t) hline
    refine ⟨_, exec_rowStart_of_complete t n hline hdue, ?_⟩
    rw [portLevel_scn, hself, hrow]
    exact ⟨rfl, rfl, rfl, fun h => if_pos h, fun h => if_neg h⟩
  case incomplete =>
    intro t e n l s hline hdue hlit
    obtain ⟨rows, cols, hself, hdark⟩ := rowDrawn_scn_self e l false (s.at t)
    have hrow : l.row = s.scn[e].row := rowLine_row (s := s.at t) hline
    refine ⟨_, { l with dark := true, cols := cols }, exec_rowStart_of_incomplete t n hline hdue hlit, ?_⟩
    rw [rowDark_scn_self, portLevel_scn, hself, hrow]
    exact ⟨rfl, rfl, rfl, hdark rfl⟩

end Sys2Proof.Machine
end

section
/-! SUPPORT. Emission supervision, photodiode faults and the resets of trips (R284, R285, R287, R326): what a dark cause
leaves in the record of its engine, and the answers of the rows by what they find of the engine or the channel. -/

namespace Sys2Proof.Machine

@[simp] theorem used_at (s : State) (t : Time) (e : Fin 4) : (s.at t).used e = s.used e := rfl

@[simp] theorem emitLimit_at (s : State) (t : Time) (e : Fin 4) : emitLimit (s.at t) e = emitLimit s e := rfl

/-! ## Causes of darkness (R285) -/

theorem getLsbD_or_bit {n b : Nat} (x : BitVec n) (hb : b < n) : (x ||| BitVec.ofNat n (2 ^ b)).getLsbD b = true := by
  rw [BitVec.getLsbD_or, BitVec.getLsbD_ofNat, Nat.testBit_two_pow_self, decide_eq_true hb, Bool.and_self, Bool.or_true]

theorem getLsbD_andNot_bit {n b : Nat} (x : BitVec n) (hb : b < n) :
    (x &&& ~~~(BitVec.ofNat n (2 ^ b))).getLsbD b = false := by
  rw [BitVec.getLsbD_and, BitVec.getLsbD_not, BitVec.getLsbD_ofNat, Nat.testBit_two_pow_self, decide_eq_true hb]
  exact Bool.and_false _

section
variable (e : Fin 4) (s : State)

theorem setFrgE_frg_eng_self (f : FrgEng → FrgEng) : (setFrgE e f s).frg.eng[e] = f s.frg.eng[e] :=
  updWith_self ..

theorem darkCause_frg_eng_self (b : Nat) : (darkCause e b s).frg.eng[e] =
    { s.frg.eng[e] with lit := false, cause := s.frg.eng[e].cause ||| BitVec.ofNat 7 (2 ^ b) } := by
  rw [darkCause, judgeHolder_frg, engineDark_frg_eng, updWith_self, setFrgE_frg_eng_self]

theorem releaseCause_frg_eng_self (b : Nat) : (releaseCause e b s).frg.eng[e] =
    { s.frg.eng[e] with cause := s.frg.eng[e].cause &&& ~~~(BitVec.ofNat 7 (2 ^ b)) } :=
  setFrgE_frg_eng_self ..

theorem emissionTrip_frg_eng_self : (emissionTrip e s).frg.eng[e] =
    { s.frg.eng[e] with
      tripAt := some s.now, lit := false, cause := s.frg.eng[e].cause ||| BitVec.ofNat 7 (2 ^ 2) } := by
  rw [emissionTrip, raise_frg, darkCause_frg_eng_self, setFrgE_frg_eng_self]

end

/-! ## Emission samples (R284) -/

/-- The 1 us sums of the last 1 ms, that of a new sample first. -/
def sumsWith (l : List Nat) (g : FrgEng) : List Nat := (sumN l :: g.sums).take 1000

/-- The record of an engine with a sample recorded. -/
def sampled (l : List Nat) (g : FrgEng) : FrgEng :=
  { g with sums := sumsWith l g, peakAvg := max g.peakAvg (sumN (sumsWith l g)) }

/-- A sample is above the limit of the 1 us sum, or brings the 1 ms average above its own. -/
def aboveLimit (s : State) (e : Fin 4) (l : List Nat) : Bool :=
  decide (emitLimit s e % 65536 * 8 < sumN l) ||
    decide (emitLimit s e / 65536 * 8 * 1000 < sumN (sumsWith l s.frg.eng[e]))

section
variable {e : Fin 4} {l : List Nat} {s : State} (t : Time) (hup : s.fastUp = true) (hused : s.used e = true)
  (hlimit : emitLimit s e ≠ 0)
include hup hused hlimit

/-- A sample of a supervised engine is recorded; one above a limit trips an engine that has not tripped. -/
theorem exec_emissionSample_of_supervised : exec (.emissionSample t e l) s =
    if aboveLimit s e l = true ∧ s.frg.eng[e].tripAt = none
    then .next (emissionTrip e (setFrgE e (sampled l) (s.at t))) else .next (setFrgE e (sampled l) (s.at t)) := by
  have htrip : (setFrgE e (sampled l) (s.at t)).frg.eng[e].tripAt = s.frg.eng[e].tripAt := by
    rw [setFrgE_frg_eng_self]
    rfl
  rw [← htrip]
  refine if_neg ?_
  simp only [fastUp_at, used_at, emitLimit_at, hup, hused, hlimit, Bool.not_true, Bool.false_eq_true, or_self,
    not_false_eq_true]

theorem exec_emissionSample_of_above (hfirst : s.frg.eng[e].tripAt = none) (habove : aboveLimit s e l = true) :
    exec (.emissionSample t e l) s = .next (emissionTrip e (setFrgE e (sampled l) (s.at t))) :=
  (exec_emissionSample_of_supervised t hup hused hlimit).trans (if_pos ⟨habove, hfirst⟩)

theorem exec_emissionSample_of_within (hwithin : aboveLimit s e l = false) :
    exec (.emissionSample t e l) s = .next (setFrgE e (sampled l) (s.at t)) :=
  (exec_emissionSample_of_supervised t hup hused hlimit).trans (if_neg fun h => ne_true_of_eq_false hwithin h.1)

end

/-! ## Photodiode faults (R287) -/

section
variable {c : Fin 24} {s : State} (t : Time)

theorem exec_pdFaultCount_of_first (hup : s.fastUp = true) (hfirst : s.frg.ch[c].pdFault = false)
    (hon : wb s.frg.ch[c].cfg 0 = true) : exec (.pdFaultCount t c) s =
      .next (raise evFrgChFault c.val (setCh c (fun x => { x with pdFault := true, pulse := {} })
        (setScn (chanEng c) (fun w => { w with line := w.line.map fun l =>
          { l with cols := upd l.cols (Fin.ofNat 6 c.val) [] } }) (s.at t)))) := by
  exact if_neg (by simp only [fastUp_at, State_at_frg, hup, hfirst, hon, Bool.not_true, Bool.false_eq_true, or_self,
    not_false_eq_true])

theorem exec_pdFaultCount_of_faulted (h : s.frg.ch[c].pdFault = true) :
    exec (.pdFaultCount t c) s = .next (s.at t) :=
  if_pos (.inr (.inl h))

end

/-! ## Resets of trips (R284, R326) -/

section
variable {e : Fin 4} {a : Time} {s : State}

section
variable (htrip : s.srv.trip[e] = some a)
include htrip

theorem tripResetWrite_of_early (hearly : s.now < a + sec) : tripResetWrite e s = (.wrongState, s) :=
  if_neg (by simp only [tripResetOk, htrip, decide_eq_true_eq, hearly.not_ge, not_false_eq_true])

theorem tripResetWrite_of_due (hdue : a + sec ≤ s.now) : tripResetWrite e s = (.ok, tripRelease e s) :=
  if_pos (by simp only [tripResetOk, htrip, hdue, decide_true])

theorem tripRelease_trip_self : (tripRelease e s).srv.trip[e] = none := by
  simp only [tripRelease, htrip]
  exact upd_self ..

theorem tripRelease_frg_eng_self : (tripRelease e s).frg.eng[e] =
    { s.frg.eng[e] with cause := s.frg.eng[e].cause &&& ~~~(BitVec.ofNat 7 (2 ^ 3)) } := by
  simp only [tripRelease, htrip]
  exact releaseCause_frg_eng_self ..

end

section
variable (htrip : s.frg.eng[e].tripAt = some a)
include htrip

theorem emitResetWrite_of_early (hearly : s.now < a + sec) : emitResetWrite e s = (.wrongState, s) := by
  simp only [emitResetWrite, htrip, hearly.not_ge, if_false]

theorem emitResetWrite_of_due (hdue : a + sec ≤ s.now) : emitResetWrite e s = (.ok,
    releaseCause e 2 (setFrgE e (fun g => { g with tripAt := none, sums := [], peakAvg := 0 }) s)) := by
  simp only [emitResetWrite, htrip, hdue, if_true]

end

variable (t : Time) {x : State} {st : Status} (hopen : rowOpen s = true)
include hopen

/-- A served register row is answered by what its write answers. -/
theorem regAnswer_of_answer {f : State → Status × State} (hwrite : f (s.at t) = (st, x)) :
    regAnswer f (s.at t) = .next { x with last := st } := by
  rw [regAnswer_of_rowOpen f ((rowOpen_at s t).trans hopen), hwrite]

theorem exec_tripReset_of_answer (hwrite : tripResetWrite e (s.at t) = (st, x)) :
    exec (.tripReset t e) s = .next { x with last := st } :=
  regAnswer_of_answer t hopen hwrite

theorem exec_emitReset_of_answer (hwrite : emitResetWrite e (s.at t) = (st, x)) :
    exec (.emitReset t e) s = .next { x with last := st } :=
  regAnswer_of_answer t hopen hwrite

end

/-- Settles O41: the samples above and within the limits, the photodiode faults, then each reset before and after its
second. -/
theorem emissionAndTrips : Obligations.EmissionAndTrips := by
  refine ⟨?above, ?within, ?fault, fun t c s => exec_pdFaultCount_of_faulted t,
    fun t a e s hopen htrip hearly => exec_tripReset_of_answer t hopen (tripResetWrite_of_early htrip hearly), ?trip,
    fun t a e s hopen htrip hearly => exec_emitReset_of_answer t hopen (emitResetWrite_of_early htrip hearly), ?emit⟩
  case above =>
    intro t e l s hup hused hlimit hfirst hsum
    have habove : aboveLimit s e l = true := by rw [aboveLimit, decide_eq_true hsum, Bool.true_or]
    refine ⟨_, exec_emissionSample_of_above t hup hused hlimit hfirst habove, ?_⟩
    rw [emissionTrip_frg_eng_self]
    exact ⟨rfl, rfl, getLsbD_or_bit _ (by decide)⟩
  case within =>
    intro t e l s hup hused hlimit hsum havg
    have hwithin : aboveLimit s e l = false := by
      rw [aboveLimit, decide_eq_false hsum.not_gt, Bool.false_or]
      exact decide_eq_false havg.not_gt
    exact ⟨_, exec_emissionSample_of_within t hup hused hlimit hwithin, rfl, rfl, rfl, rfl⟩
  case fault =>
    intro t c s hup hfirst hon
    refine ⟨_, exec_pdFaultCount_of_first t hup hfirst hon, fun y hy => ?_⟩
    obtain ⟨l, -, rfl⟩ := Option.map_eq_some_iff.1 hy
    exact upd_self ..
  case trip =>
    intro t a e s hopen htrip hdue
    have hlate : a + sec ≤ (s.at t).now := hdue.trans (le_max_right ..)
    refine ⟨_, exec_tripReset_of_answer t hopen (tripResetWrite_of_due htrip hlate), rfl,
      tripRelease_trip_self htrip, ?_⟩
    rw [tripRelease_frg_eng_self (s := s.at t) htrip]
    exact getLsbD_andNot_bit _ (by decide)
  case emit =>
    intro t a e s hopen htrip hdue
    have hlate : a + sec ≤ (s.at t).now := hdue.trans (le_max_right ..)
    refine ⟨_, exec_emitReset_of_answer t hopen (emitResetWrite_of_due htrip hlate), rfl, ?_⟩
    rw [releaseCause_frg_eng_self, setFrgE_frg_eng_self]
    exact ⟨rfl, rfl, rfl, getLsbD_andNot_bit _ (by decide)⟩

end Sys2Proof.Machine
end

section
/-! SUPPORT. LIGHT_LEVEL, the recomputation of the derating and the writing of a derating curve (R270, R279, R281,
R516): the answers of the three rows. -/

namespace Sys2Proof.Machine

section
variable (t : Time)

/-! ## LIGHT_LEVEL (R270, R516) -/

/-- A request for this device alone sets the level here; only a forwarded one becomes a shared value. -/
theorem lightLevelBody_of_local {rq : Req} {s : State} (hlocal : rqForward rq = false)
    (hlevel : lightLevelOk (le32 rq.payload 0) = true) (hlength : le16 rq.payload 4 ≤ 1000)
    (hzero : zeroAt rq.payload 6 2 = true) :
    lightLevelBody rq s = (setLightLevel (le32 rq.payload 0) (le16 rq.payload 4) s, .ok, []) := by
  simp only [lightLevelBody, hlevel, hlength.not_gt, hzero, hlocal, Bool.false_and, Bool.not_true, Bool.false_eq_true,
    or_self, if_false]

theorem exec_lightLevel_of_answer {rq : Req} {s x : State} {st : Status} {b : List Byte}
    (h : serves 0x28 rq (s.at t) = true) (hbody : lightLevelBody rq (takeReq rq (s.at t)) = (x, st, b)) :
    exec (.lightLevel t rq) s = .next (finishReply rq st b x) :=
  congrArg Host.Outcome.next (serve_of_answer h hbody)

/-! ## Derating (R279, R281) -/

section
variable {s : State}

theorem exec_derateRecompute_of_fastUp (h : s.fastUp = true) :
    exec (.derateRecompute t) s = .next (setFrg (fun f => { f with ch := tab 24 (recomputeChan (s.at t)) }) (s.at t)) :=
  if_neg (by rw [fastUp_at, h]; decide)

theorem exec_derateRecompute_of_fastDown (h : s.fastUp = false) : exec (.derateRecompute t) s = .next (s.at t) :=
  if_pos (by rw [fastUp_at, h]; rfl)

/-- FULL is brought down to the cap of the new curve, which then waits no longer. -/
theorem recomputeChan_bounds (s : State) (c : Fin 24) : (recomputeChan s c).full ≤ (recomputeChan s c).cap ∧
    (recomputeChan s c).full ≤ s.frg.ch[c].full ∧ (recomputeChan s c).curveNext = none :=
  ⟨min_le_right .., min_le_left .., rfl⟩

theorem derateWrite_of_lock (v : Word) (h : s.hth.lock = true) : derateWrite v s = (.wrongState, s) :=
  if_pos h

/-- The points before the last only fill the staging copy. -/
theorem derateWrite_of_point {v : Word} {c : Fin 24} {p : Fin 8} (hlock : s.hth.lock = false) (hv : v.toNat < 65536)
    (hc : wfl s.frg.derateSel 3 5 = c.val) (hp : wfl s.frg.derateSel 0 3 = p.val) (hlast : p ≠ 7) :
    derateWrite v s =
      (.ok, setCh c (fun x => { x with staged := upd s.frg.ch[c].staged p (wfl v 8 8, wfl v 0 8) }) s) := by
  simp only [derateWrite, hlock, hv.not_ge, hc, hp, hlast, Fin.ofNat_val_eq_self, Bool.false_eq_true, if_false]

theorem exec_frgDerateDataWrite_of_answer {v : Word} {x : State} {st : Status} (hopen : rowOpen s = true)
    (hwrite : derateWrite v (s.at t) = (st, x)) : exec (.frgDerateDataWrite t v) s = .next { x with last := st } :=
  regAnswer_of_answer t hopen hwrite

end

end

/-- Settles O42: LIGHT_LEVEL, the recomputation with the fast domains up and down, then the answers to a curve's
points. -/
theorem lightLevelAndDerating : Obligations.LightLevelAndDerating := by
  refine ⟨?level, ?recompute, fun t s => exec_derateRecompute_of_fastDown t, ?point,
    fun t v s hopen hlock => exec_frgDerateDataWrite_of_answer t hopen (derateWrite_of_lock v hlock)⟩
  case level =>
    intro t rq s h hlevel hlength hzero
    obtain ⟨-, -, -, -, -, hlocal⟩ := (serves_iff ..).1 h
    exact exec_lightLevel_of_answer t h (lightLevelBody_of_local hlocal hlevel hlength hzero)
  case recompute =>
    intro t s hup
    refine ⟨_, exec_derateRecompute_of_fastUp t hup, fun c => ?_⟩
    rw [tab_getElem]
    exact recomputeChan_bounds (s.at t) c
  case point =>
    intro t v c p s hopen hlock hv hc hp hlast
    exact exec_frgDerateDataWrite_of_answer t hopen (derateWrite_of_point (s := s.at t) hlock hv hc hp hlast)

end Sys2Proof.Machine
end

section
/-! SUPPORT. The backup LED matrix (R288-R293, R517): what a diagnosis leaves of a row slot, and the answers of the rows
of the matrix and of LAMP_FUNCTION_SET. -/

namespace Sys2Proof.Machine

/-! ## Diagnoses (R291, R293) -/

/-- A confirmed fault takes a lamp out of later row slots, not out of this one. -/
theorem confirmFault_row (led : Nat) (b : Bool) (s : State) : (confirmFault led b s).mtx.row = s.mtx.row := by
  unfold confirmFault
  extract_lets r bitv s1
  have hs1 : s1.mtx.row = s.mtx.row := by cases b <;> rfl
  split
  · simp only [apply_ite (fun x : State => x.mtx.row), raise_mtx, setMtx_mtx, hs1, ite_self]
  · exact hs1

theorem diagnose_row (led volt supply : Nat) (s : State) : (diagnose led volt supply s).mtx.row = s.mtx.row := by
  simp only [diagnose, apply_ite (fun x : State => x.mtx.row), confirmFault_row, setMtx_mtx, ite_self]

/-! ## Frames, row slots and columns (R288, R290, R562) -/

section
variable (t : Time) {s : State}

section
variable (hpwr : s.hth.pwr ≠ .off) (hboot : s.hth.boot ≠ .hold)
include hpwr hboot

theorem exec_matrixFrameStart_of_powered : exec (.matrixFrameStart t) s = .next { s.at t with mtx := { s.mtx with
    on := lampStates (s.at t), diag := diagLeds (s.at t) s.mtx.frame, row := [], frame := s.mtx.frame + 1 } } :=
  if_neg (not_or.2 ⟨hpwr, hboot⟩)

theorem exec_matrixRowSlot_of_powered (r : Fin 12) (v : List Nat) (u : Nat) : ∃ seen : List Nat,
    exec (.matrixRowSlot t r v u) s = .next (seen.foldl (fun a l => diagnose l (v.getD (l % 16) 0) u a)
      (setMtx (fun m => { m with row := rowLeds (s.at t) r }) (s.at t))) :=
  ⟨_, if_neg (not_or.2 ⟨hpwr, hboot⟩)⟩

theorem exec_columnOvervoltageCount_of_first (r : Fin 12) {c : Fin 16} (h : s.mtx.limited.getLsbD c.val = false) :
    ∃ d, exec (.columnOvervoltageCount t r c) s = .next (raise evHthLampLedFault d { s.at t with mtx := { s.mtx with
      limited := s.mtx.limited ||| BitVec.ofNat 16 (2 ^ c.val) } }) :=
  ⟨_, if_neg (not_or.2 ⟨hpwr, not_or.2 ⟨hboot, ne_true_of_eq_false h⟩⟩)⟩

end

theorem exec_columnOvervoltageCount_of_limited (r : Fin 12) {c : Fin 16} (h : s.mtx.limited.getLsbD c.val = true) :
    exec (.columnOvervoltageCount t r c) s = .next (s.at t) :=
  if_pos (.inr (.inr h))

end

/-! ## LAMP_FUNCTION_SET (R290, R517) -/

/-- An entry that is not valid clashes with no other. -/
theorem lampFunctionSetBody_of_invalid {rq : Req} {i : Fin 48} {s : State} (hi : byteAt rq.payload 0 = i.val)
    (hzero : zeroAt rq.payload 1 3 = true) (hrsvd : fld (leNat (slice rq.payload 4 32)) 3 53 = 0)
    (hlife : s.otp.lifecycle ≠ 3) (hinvalid : (lampEntry (slice rq.payload 4 32)).valid = false) :
    lampFunctionSetBody rq s = (setLamp i (lampEntry (slice rq.payload 4 32)) s, .ok, []) := by
  simp only [lampFunctionSetBody, hi, i.isLt.not_ge, hzero, hrsvd, hlife, hinvalid, Fin.ofNat_val_eq_self, ne_eq,
    not_true_eq_false, Bool.not_true, Bool.false_and, Bool.false_eq_true, false_and, or_self, if_false]

theorem exec_lampFunctionSet_of_answer (t : Time) {rq : Req} {s x : State} {st : Status} {b : List Byte}
    (h : serves 0x29 rq (s.at t) = true) (hbody : lampFunctionSetBody rq (takeReq rq (s.at t)) = (x, st, b)) :
    exec (.lampFunctionSet t rq) s = .next (finishReply rq st b x) :=
  congrArg Host.Outcome.next (serve_of_answer h hbody)

theorem setLamp_lamps (i : Fin 48) (f : LampFn) (s : State) : (setLamp i f s).mtx.lamps = upd s.mtx.lamps i f := rfl

/-- Settles O43: the frames, row slots and columns of a matrix with power, then the one lamp that LAMP_FUNCTION_SET
writes. -/
theorem telltaleMatrix : Obligations.TelltaleMatrix := by
  refine ⟨fun t s => exec_matrixFrameStart_of_powered t, ?row,
    fun t r c s hpwr hboot => exec_columnOvervoltageCount_of_first t hpwr hboot r,
    fun t r c s => exec_columnOvervoltageCount_of_limited t r,
    fun t rq i s h hi hzero hrsvd hlife hinvalid => exec_lampFunctionSet_of_answer t h
      (lampFunctionSetBody_of_invalid hi hzero hrsvd hlife hinvalid), ?lamp⟩
  case row =>
    intro t r v u s hpwr hboot
    obtain ⟨seen, hexec⟩ := exec_matrixRowSlot_of_powered t hpwr hboot r v u
    exact ⟨_, hexec, foldl_proj (fun x => x.mtx.row) _ (fun x l => diagnose_row l _ u x) seen _⟩
  case lamp =>
    intro i f s
    rw [setLamp_lamps]
    exact ⟨upd_self .., fun j hj => upd_other _ _ _ _ hj.symm⟩

end Sys2Proof.Machine
end

section
/-! SUPPORT. What holds of every command and every step (spec/95_what_each_step_holds.md, R357): the canonical form
of the HBM memory, what OTP has been programmed to, and that a command completes unless it leaves BAR2's window. -/

namespace Sys2Proof.Machine

/-! ## What a step keeps -/

/-- Settles O3: a step keeps what its command's meaning keeps, an idle one everything. -/
theorem memoryStaysCanonical : Obligations.MemoryStaysCanonical := by
  intro s x hinv hstep
  cases hpending : s.pending with
  | nil =>
    rw [step_of_pending_nil hpending] at hstep
    cases hstep
    exact hinv
  | cons c r => exact (step_keeps hpending hstep).hbm hinv

/-- Settles O5: of a step that runs a command, by what its meaning keeps of OTP. -/
theorem otpIsNeverUnprogrammed : Obligations.OtpIsNeverUnprogrammed := by
  intro s x hstep
  have h : OtpKept s.otp x.otp := by
    cases hpending : s.pending with
    | nil =>
      rw [step_of_pending_nil hpending] at hstep
      cases hstep
      exact .refl _
    | cons c r => exact (step_keeps hpending hstep).otp
  exact ⟨h.uid, h.words, h.patch, h.main⟩

/-! ## Commands that complete -/

/-- A meaning's outcome is a next state. -/
def Completes : Out → Prop
  | .next _ => True
  | _ => False

theorem Completes.ite {c : Prop} [Decidable c] {a b : Out} (ha : Completes a) (hb : Completes b) :
    Completes (if c then a else b) := by split <;> assumption

theorem Completes.exists {o : Out} (h : Completes o) : ∃ x, o = .next x :=
  match o, h with
  | .next x, _ => ⟨x, rfl⟩

theorem execDelayedReset_completes (t : Time) (p : Pins) (v : Verify) (s : State) :
    Completes (execDelayedReset t p v s) := by
  unfold execDelayedReset
  dsimp only
  split
  · exact .ite trivial trivial
  · trivial

theorem execIgnOffDelayExpiry_completes (t : Time) (s : State) : Completes (execIgnOffDelayExpiry t s) := by
  unfold execIgnOffDelayExpiry
  dsimp only
  split
  · exact .ite trivial trivial
  · trivial

theorem execTransitionComplete_completes (t : Time) (l : List (Fin 64)) (s : State) :
    Completes (execTransitionComplete t l s) := by
  unfold execTransitionComplete
  dsimp only
  split
  · trivial
  next tr _ =>
    split
    case h_3 => exact .ite trivial (.ite trivial trivial)
    case h_4 => exact .ite trivial trivial
    all_goals trivial

theorem execPwrSequenceRetry_completes (t : Time) (s : State) : Completes (execPwrSequenceRetry t s) := by
  unfold execPwrSequenceRetry
  dsimp only
  split
  · exact .ite trivial trivial
  · trivial

theorem execChaffWipeComplete_completes (t : Time) (s : State) : Completes (execChaffWipeComplete t s) := by
  unfold execChaffWipeComplete
  refine .ite trivial ?_
  dsimp only
  split
  · exact .ite trivial trivial
  · trivial

theorem execFirmwareVerifyComplete_completes (t : Time) (v : Verify) (s : State) :
    Completes (execFirmwareVerifyComplete t v s) := by
  unfold execFirmwareVerifyComplete
  refine .ite trivial (.ite trivial ?_)
  dsimp only
  split <;> trivial

theorem execSpiReadReply_completes (t : Time) (n : Nat) (s : State) : Completes (execSpiReadReply t n s) := by
  unfold execSpiReadReply
  refine .ite trivial ?_
  dsimp only
  split <;> trivial

theorem execLightWindowOpen_completes (t : Time) (e : Fin 4) (s : State) : Completes (execLightWindowOpen t e s) := by
  unfold execLightWindowOpen
  refine .ite trivial ?_
  split
  · exact .ite trivial trivial
  · trivial

theorem execLoopSampleDeadline_completes (t : Time) (n : Fin 64) (b : Bool) (s : State) :
    Completes (execLoopSampleDeadline t n b s) := by
  unfold execLoopSampleDeadline
  dsimp only
  split
  · trivial
  · exact .ite trivial trivial

theorem execReferenceLoss_completes (t : Time) (a : Aligner) (s : State) : Completes (execReferenceLoss t a s) := by
  unfold execReferenceLoss
  refine .ite ?_ trivial
  cases a <;> trivial

theorem execHoldoverLongExpiry_completes (t : Time) (a : Aligner) (s : State) :
    Completes (execHoldoverLongExpiry t a s) := by
  unfold execHoldoverLongExpiry
  dsimp only
  split
  · exact .ite trivial trivial
  · trivial

theorem execPickoffEdge_completes (t : Time) (e : Fin 4) (s : State) : Completes (execPickoffEdge t e s) := by
  unfold execPickoffEdge
  refine .ite trivial ?_
  dsimp only
  split
  · trivial
  · exact .ite trivial trivial

theorem execPredictedEdgeMissed_completes (t : Time) (e : Fin 4) (s : State) :
    Completes (execPredictedEdgeMissed t e s) := by
  unfold execPredictedEdgeMissed
  dsimp only
  split
  · exact .ite trivial trivial
  · trivial

theorem execRowStart_completes (t : Time) (e : Fin 4) (n : Nat) (b : Bool) (s : State) :
    Completes (execRowStart t e n b s) := by
  unfold execRowStart
  dsimp only
  split
  · trivial
  · exact .ite trivial trivial

theorem execFlyback_completes (t : Time) (e : Fin 4) (s : State) : Completes (execFlyback t e s) := by
  unfold execFlyback
  dsimp only
  split
  · trivial
  · exact .ite trivial trivial

theorem execOwnerTimeout_completes (t : Time) (s : State) : Completes (execOwnerTimeout t s) := by
  unfold execOwnerTimeout
  dsimp only
  split
  · exact .ite trivial trivial
  · trivial

theorem execFrameVerdict_completes (t : Time) (m : List Meas) (s : State) : Completes (execFrameVerdict t m s) := by
  unfold execFrameVerdict
  refine .ite trivial (.ite trivial ?_)
  dsimp only
  split
  · trivial
  · exact .ite trivial trivial

theorem execEstimateHoldExpiry_completes (t : Time) (c : Fin 24) (s : State) :
    Completes (execEstimateHoldExpiry t c s) := by
  unfold execEstimateHoldExpiry
  dsimp only
  split
  · exact .ite trivial trivial
  · trivial

theorem execGamutHoldTimeout_completes (t : Time) (e : Fin 4) (s : State) :
    Completes (execGamutHoldTimeout t e s) := by
  unfold execGamutHoldTimeout
  dsimp only
  split <;> trivial

theorem execThrottleHoldExpiry_completes (t : Time) (s : State) : Completes (execThrottleHoldExpiry t s) := by
  unfold execThrottleHoldExpiry
  dsimp only
  split
  · exact .ite trivial trivial
  · trivial

theorem execProcessMonitorMeasure_completes (t : Time) (v : Vector Nat 8) (s : State) :
    Completes (execProcessMonitorMeasure t v s) := by
  unfold execProcessMonitorMeasure
  refine .ite trivial ?_
  dsimp only
  split
  · exact .ite trivial trivial
  · trivial

theorem execTemperMeasurementWindow_completes (t : Time) (q : Fin 7) (n : Nat) (b : Bool) (v : Int) (s : State) :
    Completes (execTemperMeasurementWindow t q n b v s) := by
  unfold execTemperMeasurementWindow
  refine .ite trivial (.ite trivial ?_)
  split
  · trivial
  · exact .ite trivial trivial

theorem execTemperMove_completes (t : Time) (q : Fin 7) (n : Nat) (s : State) :
    Completes (execTemperMove t q n s) := by
  unfold execTemperMove
  dsimp only
  split
  · trivial
  · exact .ite trivial (.ite trivial trivial)

theorem execJournalWriteComplete_completes (t : Time) (b : Bool) (s : State) :
    Completes (execJournalWriteComplete t b s) := by
  unfold execJournalWriteComplete
  dsimp only
  split
  · trivial
  · exact .ite trivial trivial

theorem execJournalRetry_completes (t : Time) (s : State) : Completes (execJournalRetry t s) := by
  unfold execJournalRetry
  dsimp only
  split
  · exact .ite trivial trivial
  · trivial

theorem execMarchSliceComplete_completes (t : Time) (i p a : Nat) (f : Option (Nat × Nat × Nat × Nat)) (s : State) :
    Completes (execMarchSliceComplete t i p a f s) := by
  unfold execMarchSliceComplete
  dsimp only
  split
  · trivial
  · exact .ite trivial trivial

theorem execPassLimitExpiry_completes (t : Time) (i : Nat) (s : State) : Completes (execPassLimitExpiry t i s) := by
  unfold execPassLimitExpiry
  dsimp only
  split
  · trivial
  · exact .ite trivial trivial

theorem execRepairRecordWrite_completes (t : Time) (b : Bool) (s : State) :
    Completes (execRepairRecordWrite t b s) := by
  unfold execRepairRecordWrite
  refine .ite trivial ?_
  split <;> trivial

theorem execDelayRespReceive_completes (t : Time) (p : Fin 2) (a b : Time) (s : State) :
    Completes (execDelayRespReceive t p a b s) := by
  unfold execDelayRespReceive
  dsimp only
  split <;> trivial

theorem execBarrierDecisionDeadline_completes (t : Time) (s : State) :
    Completes (execBarrierDecisionDeadline t s) := by
  unfold execBarrierDecisionDeadline
  dsimp only
  split
  · exact .ite trivial trivial
  · trivial

theorem execBarrierAckDeadline_completes (t : Time) (s : State) : Completes (execBarrierAckDeadline t s) := by
  unfold execBarrierAckDeadline
  dsimp only
  split
  · exact .ite trivial trivial
  · trivial

theorem execEventGatherExpiry_completes (t : Time) (s : State) : Completes (execEventGatherExpiry t s) := by
  unfold execEventGatherExpiry
  dsimp only
  split
  · exact .ite trivial trivial
  · trivial

theorem execStarvationExpiry_completes (t : Time) (a : Nat) (s : State) : Completes (execStarvationExpiry t a s) := by
  unfold execStarvationExpiry
  dsimp only
  split
  · trivial
  · exact .ite trivial trivial

theorem execBistRunComplete_completes (t : Time) (b : Bool) (f r : List (Nat × Nat × Nat × Nat)) (s : State) :
    Completes (execBistRunComplete t b f r s) := by
  unfold execBistRunComplete
  dsimp only
  split
  · trivial
  · exact .ite trivial (.ite trivial trivial)

theorem execOtpWriteComplete_completes (t : Time) (b : Bool) (s : State) :
    Completes (execOtpWriteComplete t b s) := by
  unfold execOtpWriteComplete
  dsimp only
  split <;> trivial

theorem execBootFlashWriteComplete_completes (t : Time) (b : Bool) (v : Verify) (a : Option AnvSet) (s : State) :
    Completes (execBootFlashWriteComplete t b v a s) := by
  unfold execBootFlashWriteComplete
  dsimp only
  split <;> trivial

theorem execSvnMinWriteRetry_completes (t : Time) (b : Bool) (s : State) :
    Completes (execSvnMinWriteRetry t b s) := by
  unfold execSvnMinWriteRetry
  dsimp only
  split
  · exact .ite trivial (.ite trivial trivial)
  · trivial

theorem execBar2Write_completes (t : Time) {a : Nat} {l : List Byte} (s : State) (h : ¬2 ^ 34 < a + l.length) :
    Completes (execBar2Write t a l s) := by
  rw [execBar2Write, if_neg h]
  exact .ite trivial (.ite trivial trivial)

theorem execBar2Read_completes (t : Time) {a n : Nat} (s : State) (h : ¬2 ^ 34 < a + n) :
    Completes (execBar2Read t a n s) := by
  rw [execBar2Read, if_neg h]
  exact .ite trivial (.ite trivial (.ite trivial trivial))

/-- Whatever the state, a command that names no byte outside BAR2's window completes. -/
theorem exec_completes {s : State} : ∀ c : Instr, outsideWindow c = false → Completes (exec c s)
  | .bar2Write .. => fun h => execBar2Write_completes _ _ (of_decide_eq_false h)
  | .bar2Read .. => fun h => execBar2Read_completes _ _ (of_decide_eq_false h)
  | .powerOn .. | .xtalReturn .. | .canBusOffRecovery .. | .replyCacheExpiry ..
  | .forwardTimeout .. | .nop .. | .identify .. | .status .. | .stateRequest .. | .eventRead ..
  | .eventClear .. | .eventRoute .. | .paramRead .. | .paramWrite .. | .layerDefine ..
  | .layerShadow .. | .commit .. | .commitStatus .. | .anvilClaim .. | .anvilRequest ..
  | .anvilVerifyRead .. | .sheafLoad .. | .warpLoad .. | .gamutLoad .. | .lightLevel ..
  | .lampFunctionSet .. | .loopConfigure .. | .loopBankWrite .. | .loopBankSwap .. | .loopMode ..
  | .traceArm .. | .traceRead .. | .timingProfile .. | .memTrain .. | .memStatus ..
  | .thermalPolicy .. | .calControl .. | .calRead .. | .bistRun .. | .bistResult ..
  | .linkTopology .. | .attestChallenge .. | .lifecycleAdvance .. | .limitedSettingWrite ..
  | .firmwareLoad .. | .sheafRecompileComplete .. | .nonceExpiry .. | .claimLockoutExpiry ..
  | .glyphReloadComplete .. | .journalWriteStart .. | .timeMarkReceive .. | .delayReqReceive ..
  | .delayMeasureTimer .. | .enumReceive .. | .brugoCmdReceive .. | .brugoReplyReceive ..
  | .brugoEventReceive .. | .anvilMirrorReceive .. | .mirrorMissingCount .. | .brugoStatusReceive ..
  | .barrierPrepare .. | .barrierVote .. | .barrierApply .. | .barrierAck .. | .barrierCancel ..
  | .brugoPortSilence .. | .memberStatusTimeout .. | .managerLoss .. | .powerLoss ..
  | .supplyMonitorRecovery .. | .brugoCodewordLockLoss .. => fun _ => trivial
  | .reset .. | .ignRise .. | .ignFall .. | .wakeRise .. | .estopAssert ..
  | .xtalStartTimeout .. | .rcTrim .. | .rcIdleStop .. | .quenchRecovery .. | .pcieLinkUp ..
  | .pwrGoodLoss .. | .railDischargeDone .. | .hbmTrainingComplete .. | .mainFirmwareWatchdog ..
  | .firmwareActivation .. | .spiReadStatus .. | .mbxStatusClear .. | .canFrameReceive ..
  | .canReassemblyTimeout .. | .canFrameSent .. | .canBusOff .. | .cmpFenceWrite .. | .swtRetry ..
  | .scnRestart .. | .emitReset .. | .tripReset .. | .srvLoopFlagClear .. | .evtLatchedClear ..
  | .thrSheafDataHiRead .. | .frgDerateDataWrite .. | .counterClear .. | .frameStart ..
  | .slotEpoch .. | .cornerTurnHalfComplete .. | .servoTick .. | .referenceEdge ..
  | .pllLossOfLock .. | .pllRelockAttemptExpiry .. | .pllRelock .. | .safePllAttempt ..
  | .returnLaneBlockLockLoss .. | .statusFrameMissing .. | .linkBringupStepTimeout ..
  | .linkSoakComplete .. | .laneCorrSecond .. | .scanStartTimeout .. | .amplitudeSample ..
  | .verticalDeviationTimeout .. | .derateRecompute .. | .pdFaultCount .. | .matrixFrameStart ..
  | .matrixRowSlot .. | .columnOvervoltageCount .. | .colourSensorReading .. | .colourSensorTimeout ..
  | .dpLinkLoss .. | .dpStaleTimeout .. | .parityError .. | .retrainComplete ..
  | .dieSensorSample .. | .stackSensorReading .. | .stackSensorTimeout .. | .stackLevelDwellExpiry ..
  | .sensorSuspectExpiry .. | .throttleStep .. | .quenchRampStep .. | .marchSliceStart ..
  | .marchSliceAbort .. | .refclkMismatchCount .. | .anvilMirrorSend .. | .brugoPortUp ..
  | .returnLaneBlockLock .. | .dpLinkLock .. | .estimateValidTimeout .. => fun _ => .ite trivial trivial
  | .pwrGoodCheck .. | .registerWrite .. | .cameraFrame .. =>
    fun _ => .ite trivial (.ite trivial (.ite trivial trivial))
  | .spiWritePacket .. | .refreshInterval .. =>
    fun _ => .ite trivial (.ite (.ite trivial trivial) (.ite trivial trivial))
  | .mbxDoorbell .. | .bandLoadDeadline .. | .emissionSample .. | .cameraTimeout ..
  | .dpFrameComplete .. | .eccError .. | .dieSensorReading .. | .ntcReading ..
  | .levelDwellExpiry .. | .flitResendTimeout .. => fun _ => .ite trivial (.ite trivial trivial)
  | .returnStatusFrame .. | .supplyMonitorExcursion .. =>
    fun _ => .ite trivial (.ite trivial (.ite trivial (.ite trivial trivial)))
  | .delayedReset t p v => fun _ => execDelayedReset_completes t p v s
  | .ignOffDelayExpiry t => fun _ => execIgnOffDelayExpiry_completes t s
  | .transitionComplete t l => fun _ => execTransitionComplete_completes t l s
  | .pwrSequenceRetry t => fun _ => execPwrSequenceRetry_completes t s
  | .chaffWipeComplete t => fun _ => execChaffWipeComplete_completes t s
  | .firmwareVerifyComplete t v => fun _ => execFirmwareVerifyComplete_completes t v s
  | .spiReadReply t n => fun _ => execSpiReadReply_completes t n s
  | .lightWindowOpen t e => fun _ => execLightWindowOpen_completes t e s
  | .loopSampleDeadline t n b => fun _ => execLoopSampleDeadline_completes t n b s
  | .referenceLoss t a => fun _ => execReferenceLoss_completes t a s
  | .holdoverLongExpiry t a => fun _ => execHoldoverLongExpiry_completes t a s
  | .pickoffEdge t e => fun _ => execPickoffEdge_completes t e s
  | .predictedEdgeMissed t e => fun _ => execPredictedEdgeMissed_completes t e s
  | .rowStart t e n b => fun _ => execRowStart_completes t e n b s
  | .flyback t e => fun _ => execFlyback_completes t e s
  | .ownerTimeout t => fun _ => execOwnerTimeout_completes t s
  | .frameVerdict t m => fun _ => execFrameVerdict_completes t m s
  | .estimateHoldExpiry t c => fun _ => execEstimateHoldExpiry_completes t c s
  | .gamutHoldTimeout t e => fun _ => execGamutHoldTimeout_completes t e s
  | .throttleHoldExpiry t => fun _ => execThrottleHoldExpiry_completes t s
  | .processMonitorMeasure t v => fun _ => execProcessMonitorMeasure_completes t v s
  | .temperMeasurementWindow t q n b v => fun _ => execTemperMeasurementWindow_completes t q n b v s
  | .temperMove t q n => fun _ => execTemperMove_completes t q n s
  | .journalWriteComplete t b => fun _ => execJournalWriteComplete_completes t b s
  | .journalRetry t => fun _ => execJournalRetry_completes t s
  | .marchSliceComplete t i p a f => fun _ => execMarchSliceComplete_completes t i p a f s
  | .passLimitExpiry t i => fun _ => execPassLimitExpiry_completes t i s
  | .repairRecordWrite t b => fun _ => execRepairRecordWrite_completes t b s
  | .delayRespReceive t p a b => fun _ => execDelayRespReceive_completes t p a b s
  | .barrierDecisionDeadline t => fun _ => execBarrierDecisionDeadline_completes t s
  | .barrierAckDeadline t => fun _ => execBarrierAckDeadline_completes t s
  | .eventGatherExpiry t => fun _ => execEventGatherExpiry_completes t s
  | .starvationExpiry t a => fun _ => execStarvationExpiry_completes t a s
  | .bistRunComplete t b f r => fun _ => execBistRunComplete_completes t b f r s
  | .otpWriteComplete t b => fun _ => execOtpWriteComplete_completes t b s
  | .bootFlashWriteComplete t b v a => fun _ => execBootFlashWriteComplete_completes t b v a s
  | .svnMinWriteRetry t b => fun _ => execSvnMinWriteRetry_completes t b s

theorem exec_bar2Write_of_outside (t : Time) {a : Nat} {l : List Byte} (s : State) (h : 2 ^ 34 < a + l.length) :
    exec (.bar2Write t a l) s = .fault (.outsideBar2 a) :=
  if_pos h

theorem exec_bar2Read_of_outside (t : Time) {a n : Nat} (s : State) (h : 2 ^ 34 < a + n) :
    exec (.bar2Read t a n) s = .fault (.outsideBar2 a) :=
  if_pos h

theorem exec_of_outsideWindow {c : Instr} (s : State) (h : outsideWindow c = true) :
    ∃ a, exec c s = .fault (.outsideBar2 a) := by
  unfold outsideWindow at h
  split at h
  · exact ⟨_, exec_bar2Write_of_outside _ s (of_decide_eq_true h)⟩
  · exact ⟨_, exec_bar2Read_of_outside _ s (of_decide_eq_true h)⟩
  · exact absurd h Bool.false_ne_true

/-! ## Queues that run to their end -/

theorem runsSafely_cons (c : Instr) (r : List Instr) :
    runsSafely (c :: r) = true ↔ outsideWindow c = false ∧ runsSafely r = true := by
  simp [runsSafely]

theorem run_succ_of_next {M : Host.Core} {k : Nat} {s x : M.State} (h : M.step s = .next x) :
    M.run (k + 1) s = M.run k x := by
  rw [Host.Core.run, h]

/-- A run of a queue that stays inside BAR2's window takes one command a step, and each step keeps the memory. -/
theorem run_of_runsSafely : ∀ (q : List Instr) (s : State), s.pending = q → s.Inv → runsSafely q = true →
    ∃ x, Host.Core.run core q.length s = .next x ∧ x.pending = [] ∧ x.Inv
  | [], s, hpending, hinv, _ => ⟨s, rfl, hpending, hinv⟩
  | c :: r, s, hpending, hinv, hsafe => by
    obtain ⟨hc, hr⟩ := (runsSafely_cons c r).1 hsafe
    obtain ⟨y, hy⟩ := (exec_completes (s := { s with pending := r }) c hc).exists
    have hstep : step s = .next y := (step_of_pending_cons hpending).trans hy
    obtain ⟨x, hx, hend⟩ := run_of_runsSafely r y (step_keeps hpending hstep).pending
      (memoryStaysCanonical s y hinv hstep) hr
    exact ⟨x, (run_succ_of_next (M := core) hstep).trans hx, hend⟩

/-- Settles O6: by the two forms that name a byte outside the window, and by induction on the queue. -/
theorem commandsCompleteAndSafeQueuesEnd : Obligations.CommandsCompleteAndSafeQueuesEnd :=
  ⟨fun c s => ⟨fun h => (exec_completes c h).exists, exec_of_outsideWindow s⟩,
    fun s => run_of_runsSafely s.pending s rfl⟩

end Sys2Proof.Machine
end

section
/-! SUPPORT. The HBM through BAR2 (R357, R377): strings of bytes in the memory, the granules that a write touches, and
the answers of BAR2_WRITE and BAR2_READ. -/

namespace Sys2Proof.Machine

/-! ## Strings of bytes -/

/-- A string that is written is read back at its addresses, and every other address is left alone. -/
theorem Mem.read_writes {m : List Host.Cell} (w : Mem.wf m = true) (a b : Nat) (l : List Byte) :
    Mem.read (Mem.writes m a l) b = if a ≤ b ∧ b < a + l.length then l.getD (b - a) 0 else Mem.read m b := by
  induction l generalizing m a with
  | nil =>
    rw [if_neg (by simp)]
    rfl
  | cons v r ih =>
    rw [Mem.writes, ih (Mem.write_wf a v w), Mem.read_write w, List.length_cons]
    by_cases hb : b = a
    · subst hb
      simp
    · by_cases hin : a + 1 ≤ b ∧ b < a + 1 + r.length
      · rw [if_pos hin, if_pos (by omega), show b - a = b - (a + 1) + 1 by omega, List.getD_cons_succ]
      · rw [if_neg hin, if_neg hb, if_neg (by omega)]

theorem Mem.reads_length (m : List Host.Cell) (a n : Nat) : (Mem.reads m a n).length = n := by
  induction n generalizing a with
  | zero => rfl
  | succ n ih => rw [Mem.reads, List.length_cons, ih]

theorem Mem.reads_getD (m : List Host.Cell) (a : Nat) {i n : Nat} (h : i < n) :
    (Mem.reads m a n).getD i 0 = Mem.read m (a + i) := by
  induction n generalizing a i with
  | zero => exact absurd h (Nat.not_lt_zero i)
  | succ n ih =>
    cases i with
    | zero => rfl
    | succ i => rw [Mem.reads, List.getD_cons_succ, ih _ (by omega), Nat.add_right_comm, Nat.add_assoc]

theorem hbmReads_length (s : State) (a n : Nat) : (s.hbmReads a n).length = n := by
  unfold State.hbmReads
  split
  · exact Mem.reads_length ..
  · simp

theorem hbmReads_getD {s : State} (a : Nat) {i n : Nat} (hsound : s.grn.spoilt = none) (h : i < n) :
    (s.hbmReads a n).getD i 0 = Mem.read s.grn.hbm (a + i) := by
  rw [State.hbmReads, hsound]
  exact Mem.reads_getD _ a h

/-- The redirected granules of a string are those that it touches and that stand in a failed pseudo-channel (R377). -/
theorem mem_redirected (g : Grn) (a n k : Nat) : k ∈ g.redirected a n ↔
    a / 4096 ≤ k ∧ k < (a + n + 4095) / 4096 ∧ g.pc[pcOf g.stacksUsed (4096 * k)].failed = true := by
  rw [Grn.redirected, List.mem_filter, ← and_assoc]
  refine and_congr_left fun _ => ?_
  simp only [List.mem_map, List.mem_range]
  constructor
  · rintro ⟨i, hi, rfl⟩
    omega
  · rintro ⟨hlo, hhi⟩
    exact ⟨k - a / 4096, by omega, by omega⟩

/-! ## Inside and outside a surface -/

section
variable (t : Time) {a n : Nat} {l : List Byte} {s : State}

theorem exec_bar2Write_of_inSurface (hwindow : a + l.length ≤ 2 ^ 34) (hup : s.hst.linkUp = true)
    (hin : inSurface s a l.length = true) (hserves : grnServes s = true) :
    exec (.bar2Write t a l) s = .next { s.at t with grn := s.grn.store a l } := by
  have hin' : inSurface (s.at t) a l.length = true := hin
  have hserves' : grnServes (s.at t) = true := hserves
  show execBar2Write t a l s = _
  rw [execBar2Write, if_neg (Nat.not_lt.2 hwindow), if_neg (by simp [State.at, hup]), if_pos (by simp [hin', hserves'])]
  rfl

theorem exec_bar2Write_of_outSurface (hwindow : a + l.length ≤ 2 ^ 34) (hup : s.hst.linkUp = true)
    (hout : inSurface s a l.length = false) :
    exec (.bar2Write t a l) s = .next (raise evGrnBarViolation 0 (s.at t)) := by
  have hout' : inSurface (s.at t) a l.length = false := hout
  show execBar2Write t a l s = _
  rw [execBar2Write, if_neg (Nat.not_lt.2 hwindow), if_neg (by simp [State.at, hup]), if_neg (by simp [hout'])]

theorem exec_bar2Read_of_inSurface (hwindow : a + n ≤ 2 ^ 34) (hup : s.hst.linkUp = true)
    (hin : inSurface s a n = true) (hserves : grnServes s = true) :
    exec (.bar2Read t a n) s = .next { s.at t with grn := { s.grn with
      barData := (s.at t).hbmReads a n, barStatus := 0 } } := by
  have hin' : inSurface (s.at t) a n = true := hin
  have hserves' : grnServes (s.at t) = true := hserves
  show execBar2Read t a n s = _
  rw [execBar2Read, if_neg (Nat.not_lt.2 hwindow), if_neg (by simp [State.at, hup]), if_neg (by simp [hin']),
    if_neg (by simp [hserves'])]
  rfl

theorem exec_bar2Read_of_outSurface (hwindow : a + n ≤ 2 ^ 34) (hup : s.hst.linkUp = true)
    (hout : inSurface s a n = false) :
    exec (.bar2Read t a n) s = .next { s.at t with grn := { s.grn with barData := [], barStatus := 1 } } := by
  have hout' : inSurface (s.at t) a n = false := hout
  show execBar2Read t a n s = _
  rw [execBar2Read, if_neg (Nat.not_lt.2 hwindow), if_neg (by simp [State.at, hup]), if_pos (by simp [hout'])]
  rfl

end

/-- Settles O7: the string of a write is read back byte by byte, and its written bits are those of the granules that it
touches. -/
theorem bar2ReadsAndWrites : Obligations.Bar2ReadsAndWrites := by
  refine ⟨?write, ?read, fun a n i s => hbmReads_getD a,
    fun t a l s => exec_bar2Write_of_outSurface t, fun t a n s => exec_bar2Read_of_outSurface t,
    fun t a l s => exec_bar2Write_of_outside t s, fun t a n s => exec_bar2Read_of_outside t s⟩
  case write =>
    intro t a l s hinv hwindow hup hin hserves
    refine ⟨_, _, exec_bar2Write_of_inSurface t hwindow hup hin hserves, Grn.store_wf hinv,
      fun b => Mem.read_writes hinv a b l, fun k => ?_⟩
    rw [List.mem_dedup, List.mem_append, mem_redirected]
  case read =>
    intro t a n s hwindow hup hin hserves
    exact ⟨exec_bar2Read_of_inSurface t hwindow hup hin hserves, hbmReads_length ..⟩

end Sys2Proof.Machine
end

section
/-! SUPPORT. NOP and the event commands (R496, R500-R502), latching (R536-R539), event frames (R543), EVT_LATCHED (R547)
and FAULT_N (R545). First what a reply leaves unchanged and what a raise does to the records, then the statements. -/

namespace Sys2Proof.Machine

/-! ## What a reply leaves unchanged (R66-R72, R92) -/

/-- The parts of the state that no reply touches: the Anvil, OTP, and the Hearth but for its CAN FD parameters. -/
def State.unanswered (s : State) : Anv × Otp × Hth := (s.anv, s.otp, { s.hth with can := Vector.replicate 6 0 })

theorem canLost_unanswered (n : Nat) (x : Option CanTx) (s : State) : (canLost n x s).unanswered = s.unanswered := by
  cases x <;> rfl

theorem deliver_unanswered (p : Port) (b : List Byte) (s : State) : (deliver p b s).unanswered = s.unanswered := by
  cases p with
  | spi =>
    rw [deliver]
    split <;> rfl
  | mbx k =>
    rw [deliver]
    split <;> rfl
  | canCmd => exact canLost_unanswered ..
  | canSafety => exact canLost_unanswered ..
  | brugo => rfl

theorem finishReply_unanswered (rq : Req) (st : Status) (pl : List Byte) (s : State) :
    (finishReply rq st pl s).unanswered = s.unanswered := by
  rw [finishReply, endReply]
  split
  · exact foldl_proj State.unanswered _ (fun _ _ => deliver_unanswered ..) _ _
  · rfl

theorem anv_of_unanswered {s x : State} (h : x.unanswered = s.unanswered) : x.anv = s.anv := congrArg (·.1) h

theorem otp_of_unanswered {s x : State} (h : x.unanswered = s.unanswered) : x.otp = s.otp := congrArg (·.2.1) h

theorem hth_of_unanswered {s x : State} (h : x.unanswered = s.unanswered) :
    { x.hth with can := s.hth.can } = s.hth :=
  congrArg (fun p : Anv × Otp × Hth => { p.2.2 with can := s.hth.can }) h

/-! ## NOP (R496) -/

theorem lenOk_nop {rq : Req} (h : rq.opcode = 0x00) : lenOk rq = true ↔ rq.payload = [] := by
  simp [lenOk, h]

/-- Settles O18: NOP answers OK with nothing, and a reply leaves the Anvil, OTP and the Hearth alone. -/
theorem nopChangesNothing : Obligations.NopChangesNothing := by
  refine ⟨?answer, fun rq h => lenOk_nop h, ?frame⟩
  case answer =>
    intro t rq s hserves
    exact congrArg Host.Outcome.next (serve_of_serves nopBody hserves)
  case frame =>
    intro rq st pl s
    have h := finishReply_unanswered rq st pl (takeReq rq s)
    exact ⟨anv_of_unanswered h, otp_of_unanswered h, hth_of_unanswered h⟩

/-! ## EVENT_READ, EVENT_CLEAR and EVENT_ROUTE (R500-R502) -/

/-- A read of the device's own records answers the oldest of them, and clears none. -/
theorem eventReadBody_of_own {rq : Req} (s : State) (hlo : 1 ≤ byteAt rq.payload 0) (hhi : byteAt rq.payload 0 ≤ 127)
    (hsrc : byteAt rq.payload 1 = 0) : ∃ l, eventReadBody rq s =
      (s, .ok, leBytes 1 l.length ++ (l.map (recBytes false)).flatten) ∧ l <+: s.evt.recs ∧
      l.length ≤ byteAt rq.payload 0 := by
  refine ⟨s.evt.recs.take (min (byteAt rq.payload 0) ((portLimit rq.port - 1) / 8)), ?_, List.take_prefix .., ?_⟩
  · unfold eventReadBody
    rw [hsrc]
    exact (if_neg (by omega)).trans (if_neg (by simp))
  · rw [List.length_take]
    omega

/-- An entry that names one defined source of this device is accepted. -/
theorem clearRefused_of_defined (s : State) {x : Nat} (hx : x < 1024) (hdef : evDefined x = true) :
    clearRefused s x = none := by
  have hfield : fld x 10 4 = 0 := by simp only [fld]; omega
  have hid : fld x 0 10 = x := by simp only [fld]; omega
  have hgroup : bit x 15 = false := by simp only [bit]; rw [show x / 2 ^ 15 = 0 by omega]; rfl
  have hfwd : bit x 14 = false := by simp only [bit]; rw [show x / 2 ^ 14 = 0 by omega]; rfl
  simp [clearRefused, hfield, hid, hgroup, hfwd, hdef]

theorem clearOne_of_source (now : Time) (e : Evt) {x : Nat} (hx : x < 1024) : clearOne now e x = e.clear now x := by
  have hid : fld x 0 10 = x := by simp only [fld]; omega
  have hgroup : bit x 15 = false := by simp only [bit]; rw [show x / 2 ^ 15 = 0 by omega]; rfl
  have hfwd : bit x 14 = false := by simp only [bit]; rw [show x / 2 ^ 14 = 0 by omega]; rfl
  simp [clearOne, hid, hgroup, hfwd]

theorem eventClearBody_of_one {rq : Req} (s : State) (hlen : rq.payload.length = 2) (hx : le16 rq.payload 0 < 1024)
    (hdef : evDefined (le16 rq.payload 0) = true) :
    eventClearBody rq s = ({ s with evt := s.evt.clear s.now (le16 rq.payload 0) }, .ok, []) := by
  simp [eventClearBody, hlen, firstRefused, clearRefused_of_defined s hx hdef, clearOne_of_source _ _ hx]

theorem eventRouteBody_of_one {rq : Req} (s : State) (hlen : rq.payload.length = 4)
    (h : routeRefused (routeEntry rq.payload 0) = none) :
    eventRouteBody rq s = ({ s with evt := routeOne s.evt (routeEntry rq.payload 0) }, .ok, []) := by
  simp [eventRouteBody, hlen, firstRefused, h]

theorem eventRouteBody_of_refused {rq : Req} {st : Status} (s : State) (hlen : rq.payload.length = 4)
    (h : routeRefused (routeEntry rq.payload 0) = some st) : eventRouteBody rq s = (s, st, [0]) := by
  simp [eventRouteBody, hlen, firstRefused, h, denyItem, leBytes]

/-- A SAFETY source stays enabled and keeps its INT_N route. -/
theorem routeRefused_of_safety {id e r : Nat} (hsev : evSev id = some 3) (h : e = 0 ∨ bit r 0 = false) :
    routeRefused (id, e, r) = some .badParam := by
  have hbad : evSev (id, e, r).1 = some 3 ∧ ((id, e, r).2.1 = 0 ∨ !bit (id, e, r).2.2 0) := ⟨hsev, by simpa using h⟩
  rw [routeRefused, if_pos hbad, ite_self]

/-- Settles O20: one entry of each command, and the records that a read returns. -/
theorem eventCommands : Obligations.EventCommands := by
  refine ⟨?read, ?clear, ?route, ?refused, fun id e r => routeRefused_of_safety⟩
  case read =>
    intro t rq s hserves hlo hhi hsrc
    obtain ⟨l, hbody, hl⟩ := eventReadBody_of_own (takeReq rq (s.at t)) hlo hhi hsrc
    exact ⟨l, congrArg Host.Outcome.next (serve_of_answer hserves hbody), hl⟩
  case clear =>
    intro t rq s hserves hlen hx hdef
    exact congrArg Host.Outcome.next (serve_of_answer hserves (eventClearBody_of_one _ hlen hx hdef))
  case route =>
    intro t rq s hserves hlen hok
    exact congrArg Host.Outcome.next (serve_of_answer hserves (eventRouteBody_of_one _ hlen hok))
  case refused =>
    intro t rq s st hserves hlen hbad
    exact congrArg Host.Outcome.next (serve_of_answer hserves (eventRouteBody_of_refused _ hlen hbad))

/-! ## Latching (R536, R537) -/

theorem raise_of_disabled {id : Nat} (d : Nat) {s : State} (h : s.evt.enabled id = false) : raise id d s = s := by
  rw [raise, Evt.raiseAux, if_neg (ne_true_of_eq_false h)]

theorem pushFrame_recs (e : Evt) : e.pushFrame.1.recs = e.recs := by
  rw [Evt.pushFrame]
  split <;> rfl

theorem actCan_recs (c : EvCtx) (e : Evt) (r : Rec) : (Evt.actCan c e r).1.recs = e.recs := by
  simp only [Evt.actCan, apply_ite Prod.fst, apply_ite Evt.recs, pushFrame_recs, ite_self]

theorem actBrugo_recs (c : EvCtx) (e : Evt) (r : Rec) : (Evt.actBrugo c e r).recs = e.recs := by
  rw [Evt.actBrugo]
  split <;> rfl

theorem msixSend_recs (g : Nat) (e : Evt) : (e.msixSend g).recs = e.recs := by
  rw [Evt.msixSend]
  split <;> rfl

/-- The routes of a record act beside the list of records. -/
theorem act_recs (c : EvCtx) (e : Evt) (r : Rec) (m : Nat) : (Evt.act c e r m).1.recs = e.recs := by
  simp only [Evt.act, apply_ite Prod.fst, apply_ite Evt.recs, actCan_recs, actBrugo_recs, msixSend_recs, ite_self]

/-- A raise of EVT_CAN_DROPPED leaves the records of every other source as they are. -/
theorem mem_recs_raiseAux_canDropped {c : EvCtx} {r : Rec} (hr : r.id ≠ evEvtCanDropped) (d sev : Nat) :
    ∀ (n : Nat) (e : Evt), r ∈ e.recs → r ∈ (Evt.raiseAux c n e evEvtCanDropped d sev).recs
  | 0, e, h => h
  | n + 1, e, h => by
    have after (p : Evt × Bool) (hp : r ∈ p.1.recs) :
        r ∈ (if p.2 then Evt.raiseAux c n p.1 evEvtCanDropped 1 1 else p.1).recs := by
      split
      · exact mem_recs_raiseAux_canDropped hr 1 1 n p.1 hp
      · exact hp
    rw [Evt.raiseAux]
    split
    · dsimp only
      rw [if_neg (by decide)]
      split
      · refine after _ ?_
        rw [act_recs]
        exact List.mem_append_left _ h
      · refine after _ ?_
        rw [act_recs]
        exact List.mem_map.2 ⟨r, h, if_neg (by simpa using hr)⟩
    · exact h

/-- The first occurrence of an enabled source leaves one record of it (R536, R537). -/
theorem raise_latches {id : Nat} (d : Nat) {s : State} (henabled : s.evt.enabled id = true)
    (hfirst : s.evt.latched id = false) (hdone : id ≠ evHstCmdDone) (hdropped : id ≠ evEvtCanDropped) :
    ∃ r ∈ (raise id d s).evt.recs, r.id = id ∧ r.detail = d % 2 ^ 24 ∧ r.sev = (evSev id).getD 0 := by
  have hfind : (s.evt.recs.find? fun x => x.id == id) = none := by
    rw [List.find?_eq_none]
    simpa [Evt.latched] using hfirst
  rw [raise_evt, Evt.raiseAux, if_pos henabled]
  dsimp only
  rw [if_neg hdone, hfind]
  dsimp only
  generalize (if id = evAnvStoreEcc ∧ (evSev id).getD 0 = 2 then Nat.lor (s.evt.route id) (sevRoute 2)
    else s.evt.route id) = routes
  refine ⟨s.evCtx.record id ((evSev id).getD 0) d routes, ?_, rfl, rfl, rfl⟩
  split
  · refine mem_recs_raiseAux_canDropped hdropped 1 1 3 _ ?_
    rw [act_recs]
    exact List.mem_append_right _ (List.mem_singleton_self _)
  · rw [act_recs]
    exact List.mem_append_right _ (List.mem_singleton_self _)

/-! ## Event frames (R543) and EVT_LATCHED (R539, R547) -/

theorem exec_eventGatherExpiry_of_due {t d : Time} {s : State} (hdue : s.evt.gatherDue = some d) (hd : d ≤ t)
    (hroom : s.evt.pushFrame.2 = false) :
    exec (.eventGatherExpiry t) s = .next { s.at t with evt := s.evt.pushFrame.1 } := by
  have hdue' : (s.at t).evt.gatherDue = some d := hdue
  have hroom' : (s.at t).evt.pushFrame.2 = false := hroom
  show execEventGatherExpiry t s = _
  rw [execEventGatherExpiry]
  dsimp only
  rw [hdue']
  dsimp only
  rw [if_pos (show d ≤ (s.at t).now from Nat.le_trans hd (Nat.le_max_right ..)), hroom']
  rfl

theorem exec_eventGatherExpiry_of_early {t d : Time} {s : State} (hdue : s.evt.gatherDue = some d)
    (hearly : max s.now t < d) : exec (.eventGatherExpiry t) s = .next (s.at t) := by
  have hdue' : (s.at t).evt.gatherDue = some d := hdue
  show execEventGatherExpiry t s = _
  rw [execEventGatherExpiry]
  dsimp only
  rw [hdue']
  exact if_neg (Nat.not_le.2 hearly)

theorem paramWrite_latched {g : Nat} (v : Word) (s : State) (hlo : 1 ≤ g) (hhi : g ≤ 0x13) :
    paramWrite (0x1320 + g) v s =
      okIf (within v (groupMask g)) { s with evt := s.evt.clearMask s.now g v.toNat } s := by
  have hgroup : (0x1320 + g) / 256 = 0x13 := by omega
  have hgather : ¬0x1320 + g = 0x1304 := by omega
  have hsel : ¬0x1320 + g = 0x1305 := by omega
  have hlatched : 0x1321 ≤ 0x1320 + g ∧ 0x1320 + g ≤ 0x1333 := by omega
  have hg : 0x1320 + g - 0x1320 = g := by omega
  rw [paramWrite, hgroup]
  show writeEvt (0x1320 + g) v s = _
  simp only [writeEvt, if_neg hgather, if_neg hsel, if_pos hlatched, hg]

theorem exec_evtLatchedClear_of_group (t : Time) {g : Nat} (v : Word) {s : State} (hopen : rowOpen s = true)
    (hlo : 1 ≤ g) (hhi : g ≤ 0x13) : exec (.evtLatchedClear t g v) s = if within v (groupMask g)
      then .next { s.at t with last := .ok, evt := s.evt.clearMask (max s.now t) g v.toNat }
      else .next { s.at t with last := .badParam } := by
  show execEvtLatchedClear t g v s = _
  rw [execEvtLatchedClear, regAnswer_of_rowOpen (s := s.at t) _ hopen, if_pos ⟨hlo, hhi⟩,
    paramWrite_latched v _ hlo hhi, okIf]
  split <;> rfl

theorem exec_evtLatchedClear_of_no_group (t : Time) {g : Nat} (v : Word) {s : State} (hopen : rowOpen s = true)
    (hhi : 0x13 < g) : exec (.evtLatchedClear t g v) s = .next { s.at t with last := .badParam } := by
  show execEvtLatchedClear t g v s = _
  rw [execEvtLatchedClear, regAnswer_of_rowOpen (s := s.at t) _ hopen, if_neg fun h => Nat.not_le.2 hhi h.2]
  rfl

theorem mem_recs_clearMask (e : Evt) (t : Time) (g m : Nat) (r : Rec) : r ∈ (e.clearMask t g m).recs ↔
    r ∈ e.recs ∧ (r.id / 32 ≠ g ∨ bit m (r.id % 32) = false ∨ r.stays t = true) := by
  simp [Evt.clearMask, List.mem_filter, or_assoc]

/-- Settles O21: raises by whether their source is enabled, then the gather time and the mask of a clear. -/
theorem eventsLatchAndClear : Obligations.EventsLatchAndClear := by
  refine ⟨fun id d s => raise_of_disabled d, fun id d s => ⟨_, rfl⟩, fun id d s => raise_latches d,
    fun t d s => exec_eventGatherExpiry_of_due, fun t d s => exec_eventGatherExpiry_of_early, ?clear, ?outside,
    fun t g v s => exec_evtLatchedClear_of_no_group t v, mem_recs_clearMask⟩
  case clear =>
    intro t g v s hopen hlo hhi hmask
    rw [exec_evtLatchedClear_of_group t v hopen hlo hhi, if_pos hmask]
  case outside =>
    intro t g v s hopen hlo hhi hmask
    rw [exec_evtLatchedClear_of_group t v hopen hlo hhi, if_neg (ne_true_of_eq_false hmask)]

/-! ## FAULT_N (R545) -/

/-- Five flags as one number: it is not 0 when one of them holds, and its bits are the flags. -/
theorem flags_of_sum : ∀ a b c d e : Bool, ((b2n a + b2n b * 2 + b2n c * 4 + b2n d * 8 + b2n e * 16) != 0) =
      (a || (b || (c || (d || e)))) ∧
    bit (b2n a + b2n b * 2 + b2n c * 4 + b2n d * 8 + b2n e * 16) 0 = a ∧
    bit (b2n a + b2n b * 2 + b2n c * 4 + b2n d * 8 + b2n e * 16) 1 = b ∧
    bit (b2n a + b2n b * 2 + b2n c * 4 + b2n d * 8 + b2n e * 16) 2 = c ∧
    bit (b2n a + b2n b * 2 + b2n c * 4 + b2n d * 8 + b2n e * 16) 3 = d ∧
    bit (b2n a + b2n b * 2 + b2n c * 4 + b2n d * 8 + b2n e * 16) 4 = e := by
  decide

theorem faultLow_eq (s : State) : faultLow s = (s.hth.boot == .hold || ((s.hth.pwr == .safe || s.hth.pwr == .quench) ||
    (fallbackHolds s || (s.mtx.lampOff != 0 || s.evt.recs.any fun r => r.sev == 3)))) :=
  (flags_of_sum ..).1

theorem bit_faultSrc (s : State) : bit (faultSrc s) 0 = (s.hth.boot == .hold) ∧
    bit (faultSrc s) 1 = (s.hth.pwr == .safe || s.hth.pwr == .quench) ∧ bit (faultSrc s) 2 = fallbackHolds s ∧
    bit (faultSrc s) 3 = (s.mtx.lampOff != 0) ∧ bit (faultSrc s) 4 = s.evt.recs.any fun r => r.sev == 3 :=
  (flags_of_sum ..).2

/-- Settles O22: the five sources are the five bits of EVT_FAULT_SRC. -/
theorem faultSources : Obligations.FaultSources := by
  refine ⟨?low, ?sources, ?records⟩
  case low =>
    intro s
    rw [faultLow_eq]
    simp [or_assoc]
  case sources =>
    intro s
    obtain ⟨hhold, hstate, hfallback, hlamp, hsafety⟩ := bit_faultSrc s
    refine ⟨faultSrc s, rfl, ?_⟩
    rw [hhold, hstate, hfallback, hlamp, hsafety]
    simp
  case records =>
    intro e x s h
    simp only [faultLow_eq, fallbackHolds, h]

end Sys2Proof.Machine
end

section
/-! SUPPORT. The PLLs (R347-R349): what a loss of lock leaves of the Tongs, and the answers of the rows of the PLLs. -/

namespace Sys2Proof.Machine

/-! ## A loss of lock (R347) -/

theorem judgeHolder_tng (s : State) : (judgeHolder s).tng = s.tng := by
  obtain ⟨_, _, _, _, _, h⟩ := judgeHolder_eq s
  rw [h]

theorem engineDark_tng (e : Fin 4) (s : State) : (engineDark e s).tng = s.tng := by
  simp only [engineDark, dropSteps, engChans, setTmp_tng, setScn_tng, setSwt_tng, setThrE_tng, setFrg_tng, setFrgE_tng]

theorem darkCause_tng (e : Fin 4) (b : Nat) (s : State) : (darkCause e b s).tng = s.tng := by
  rw [darkCause, judgeHolder_tng, engineDark_tng, setFrgE_tng]

theorem pllLanes_tng (p e : Fin 4) (s : State) : (pllLanes p e s).tng = s.tng := by
  rw [pllLanes]
  split
  · exact darkCause_tng ..
  · rfl

/-- A loss that ends no soak of ten seconds starts the attempts anew, and all that it does beside the PLL leaves the
Tongs alone. -/
theorem pllLoss_tng {p : Fin 4} {s : State} (hon : s.tng.pll[p].off = false) (hlocked : s.tng.pll[p].locked = true)
    (hfirst : s.tng.pll[p].relockAt = none) : (pllLoss p s).tng = { s.tng with pll := updWith s.tng.pll p fun x =>
      { x with locked := false, bypass := true, lost := true, leaving := false, attempts := 0 } } := by
  rw [pllLoss, if_neg (by rw [hon, hlocked]; decide), hfirst]
  dsimp only
  rw [if_neg Bool.false_ne_true, if_neg (by decide)]
  have hlanes : ∀ x : State, (forEng (pllLanes p) x).tng = x.tng := forEng_proj State.tng _ (pllLanes_tng p)
  simp only [apply_ite State.tng, pcieDown, loopsHoldAll, setHst_tng, setHth_tng, setSrv_tng, hlanes, raise_tng,
    ite_self]
  rfl

/-! ## Attempts (R347-R349) -/

section
variable (t : Time) {p : Fin 4} {s : State}

theorem exec_pllLossOfLock_of_fastUp (p : Fin 4) (hup : s.fastUp = true) :
    exec (.pllLossOfLock t p) s = .next (pllLoss p (s.at t)) :=
  if_pos (by simpa [State.fastUp] using hup)

section
variable (hlost : s.tng.pll[p].lost = true) (hon : s.tng.pll[p].off = false) (hsound : s.tng.pll[p].lbist = false)
include hlost hon hsound

theorem exec_pllRelockAttemptExpiry_of_attempt (hleft : s.tng.pll[p].attempts < 3) :
    exec (.pllRelockAttemptExpiry t p) s = .next (if 3 ≤ s.tng.pll[p].attempts + 1
      then pllFailed p (setPll p (fun x => { x with attempts := x.attempts + 1 }) (s.at t))
      else setPll p (fun x => { x with attempts := x.attempts + 1 }) (s.at t)) := by
  refine if_neg ?_
  show ¬((!s.tng.pll[p].lost) = true ∨ s.tng.pll[p].off = true ∨ s.tng.pll[p].lbist = true ∨ 3 ≤ s.tng.pll[p].attempts)
  rw [hlost, hon, hsound]
  simpa using hleft

theorem exec_pllRelock_of_attempt (b : Bool) (hclk : s.tng.refclk = true) (hp : p ≠ 3) :
    exec (.pllRelock t p b) s = .next (pllLocks p (setPll p (fun x => { x with attempts := min 3 (x.attempts + 1) })
      (s.at t))) := by
  have hlocks : ¬((!s.tng.pll[p].lost) = true ∨ s.tng.pll[p].off = true ∨ s.tng.pll[p].lbist = true ∨
      (!s.tng.refclk) = true) := by rw [hlost, hon, hsound, hclk]; decide
  exact (if_neg hlocks).trans (congrArg Host.Outcome.next (if_neg hp))

end

theorem exec_safePllAttempt_of_not_safe (m : BitVec 4) (hpwr : s.hth.pwr ≠ .safe) :
    exec (.safePllAttempt t m) s = .next (s.at t) :=
  if_neg hpwr

theorem exec_safePllAttempt_of_none (hpwr : s.hth.pwr = .safe) :
    exec (.safePllAttempt t 0) s = .next (s.at t) := by
  refine (if_pos hpwr).trans ?_
  simp [allPlls]

theorem exec_safePllAttempt_of_first (hpwr : s.hth.pwr = .safe) (hclk : s.tng.refclk = true)
    (hlost : s.tng.pll[(0 : Fin 4)].lost = true) (hon : s.tng.pll[(0 : Fin 4)].off = false)
    (hsound : s.tng.pll[(0 : Fin 4)].lbist = false) :
    exec (.safePllAttempt t 1) s = .next (pllLocks 0 (s.at t)) := by
  refine (if_pos hpwr).trans ?_
  have hfirst : (s.tng.pll[(0 : Fin 4)].lost && !s.tng.pll[(0 : Fin 4)].off && !s.tng.pll[(0 : Fin 4)].lbist &&
      s.tng.refclk && (1 : BitVec 4).toNat.testBit 0) = true := by
    rw [hlost, hon, hsound, hclk]
    decide
  have hothers : ∀ p : Fin 4, p ≠ 0 → (1 : BitVec 4).toNat.testBit p.val = false := by decide
  rw [allPlls]
  simp only [hothers 1 (by decide), hothers 2 (by decide), hothers 3 (by decide), Bool.and_false, Bool.false_eq_true,
    if_false]
  exact congrArg Host.Outcome.next ((if_pos hfirst).trans (if_neg (by decide)))

end

/-- Settles O33: a loss, then an attempt by whether it locks. -/
theorem pllsAreLostAndLock : Obligations.PllsAreLostAndLock := by
  refine ⟨fun t p s => exec_pllLossOfLock_of_fastUp t p, ?lost, ?again, ?third, ?locks,
    fun t m s => exec_safePllAttempt_of_not_safe t m, fun t s => exec_safePllAttempt_of_none t,
    fun t s => exec_safePllAttempt_of_first t⟩
  case lost =>
    intro p s hon hlocked hfirst
    rw [pllLoss_tng hon hlocked hfirst]
    dsimp only
    rw [updWith_self]
    exact ⟨rfl, rfl, rfl⟩
  case again =>
    intro t p s hlost hon hsound hleft
    rw [exec_pllRelockAttemptExpiry_of_attempt t hlost hon hsound (by omega), if_neg (by omega)]
    rfl
  case third =>
    intro t p s hlost hon hsound hleft
    rw [exec_pllRelockAttemptExpiry_of_attempt t hlost hon hsound (by omega), if_pos (by omega)]
    rfl
  case locks =>
    intro t p b s hlost hon hsound hclk hp
    rw [exec_pllRelock_of_attempt t hlost hon hsound b hclk hp]
    rfl

end Sys2Proof.Machine
end

section
/-! SUPPORT. Transitions of the power state (R35, R499, R566) and the quench's ramp and recovery (R392, R395): what
entry to SLEEP and the beginning of a transition leave in the Hearth's record, then the rows. -/

namespace Sys2Proof.Machine

/-! ## The Hearth's record through entry to SLEEP (R54, R56) -/

/-- The end of a PENDING command changes the host interfaces, the events and the free values taken. -/
theorem cmdDone_eq (k : PendKey) (st : Status) (s : State) :
    ∃ h e f, cmdDone k st s = { s with hst := h, evt := e, free := f } := by
  rw [cmdDone]
  split
  · exact ⟨_, _, _, rfl⟩
  · dsimp only
    split <;> exact ⟨_, _, _, rfl⟩

theorem cmdDone_hth (k : PendKey) (st : Status) (s : State) : (cmdDone k st s).hth = s.hth := by
  obtain ⟨_, _, _, h⟩ := cmdDone_eq k st s
  rw [h]

theorem doneAll_hth (p : PendKey → Bool) (st : Status) (s : State) : (doneAll p st s).hth = s.hth :=
  foldl_proj State.hth _ (fun _ _ => cmdDone_hth ..) _ s

theorem dropDeferred_hth (s : State) : (dropDeferred s).hth = s.hth :=
  foldl_proj State.hth _ (fun _ _ => cmdDone_hth ..) _ _

theorem abortCommit_hth (s : State) : (abortCommit s).hth = s.hth := by
  rw [abortCommit]
  split <;> rfl

theorem saveDone_hth (st : Status) (s : State) : (saveDone st s).hth = s.hth := by
  rw [saveDone]
  split
  · exact cmdDone_hth ..
  · rfl

theorem journalAbandon_hth (s : State) : (journalAbandon s).hth = s.hth := by
  rw [journalAbandon]
  split
  · rfl
  · exact saveDone_hth ..

theorem eventsLost_hth (s : State) : (eventsLost s).hth = s.hth :=
  hth_of_base (raiseIf_base ..)

theorem eventReset_hth (s : State) : (eventReset s).hth = s.hth := by
  rw [eventReset]
  split
  · rfl
  · dsimp only [startupEvents]

theorem judgeHolder_hth (s : State) : (judgeHolder s).hth = s.hth := hth_of_base (judgeHolder_base s)

theorem sleepEntered_hth (s : State) : (sleepEntered s).hth = { s.hth with
    fwDone := false, trainDone := false, wakeWaiting := false, fwRuns := false, composed := 0, runSince := none } := by
  have hlost : ∀ x : State, (fastLost x).hth = x.hth := fun _ => rfl
  rw [sleepEntered, judgeHolder_hth, setHth_hth, hlost, eventReset_hth, eventsLost_hth, pcieDown, setHst_hth,
    journalAbandon_hth, doneAll_hth, dropDeferred_hth, abortCommit_hth]

/-- Reaching SLEEP keeps the running transition and the held event. -/
theorem sleepReached_trans_held (s : State) : (sleepReached s).hth.trans = s.hth.trans ∧
    (sleepReached s).hth.held = s.hth.held := by
  rw [sleepReached, setHth_hth, sleepEntered_hth]
  exact ⟨rfl, rfl⟩

/-! ## The end of a transition (R35, R566) -/

theorem transEnds_of_nothing_held {t : Trans} (p : PState) (st : Status) {s : State} (hheld : s.hth.held = none)
    (hcmd : t.cmd = none) : ∃ e, transEnds t p st s = { s with evt := e, hth := { s.hth with
      held := none, pwr := p, prev := t.start, cause := t.cause, trans := none,
      runSince := if p = .ready ∨ p = .lit then
        (if s.hth.pwr = .ready ∨ s.hth.pwr = .lit then s.hth.runSince else some s.now) else none } } := by
  simp only [transEnds, hheld, hcmd]
  exact ⟨_, rfl⟩

/-- The step that enters SLEEP at the end of its way ends the transition there. -/
theorem stepDone_of_sleep {t : Trans} {s : State} (htrans : s.hth.trans = some t) (hto : t.stepTo = .sleep)
    (htarget : t.target = .sleep) (hfrom : t.leaving ≠ .quench) :
    stepDone t s = transEnds t .sleep .ok (sleepReached (passState .sleep s)) := by
  have hreached : (sleepReached (passState .sleep s)).hth.trans = some t :=
    (sleepReached_trans_held _).1.trans htrans
  have hquench : (t.leaving == .quench) = false := beq_eq_false_iff_ne.2 hfrom
  simp only [stepDone, hto, htarget, hquench, stateReached, Bool.false_and, Bool.false_eq_true, if_false,
    beq_self_eq_true, Bool.true_or, if_true, reduceCtorEq, false_and, hreached]

section
variable (t : Time) (l : List (Fin 64)) {tr : Trans} {s : State} (htrans : s.hth.trans = some tr)
include htrans

theorem exec_transitionComplete_of_done (h : tr.stepTo = .sleep ∨ (tr.stepTo = .standby ∧ tr.leaving ≠ .sleep) ∨
    (tr.stepTo = .ready ∧ s.hth.boot = .on ∧ tr.leaving ≠ .standby)) :
    exec (.transitionComplete t l) s = .next (stepDone tr (s.at t)) := by
  have htrans' : (s.at t).hth.trans = some tr := htrans
  show execTransitionComplete t l s = _
  unfold execTransitionComplete
  simp only [htrans']
  obtain hto | ⟨hto, hfrom⟩ | ⟨hto, hboot, hfrom⟩ := h
  · rw [hto]
  · rw [hto]
    exact if_neg hfrom
  · rw [hto]
    exact (if_neg (not_not_intro hboot)).trans (if_neg hfrom)

theorem exec_transitionComplete_of_quench (hto : tr.stepTo = .quench) :
    exec (.transitionComplete t l) s = .next (quenchDone tr (s.at t)) := by
  have htrans' : (s.at t).hth.trans = some tr := htrans
  show execTransitionComplete t l s = _
  unfold execTransitionComplete
  simp only [htrans', hto]

end

/-! ## STATE_REQUEST (R499) -/

section
variable {rq : Req} {s : State}

theorem stateRequestBody_of_no_state (h : byteAt rq.payload 0 = 0 ∨ 4 < byteAt rq.payload 0) :
    stateRequestBody rq s = (s, .badParam, []) := by
  obtain h | ⟨k, h⟩ : byteAt rq.payload 0 = 0 ∨ ∃ k, byteAt rq.payload 0 = k + 5 :=
    h.imp_right fun h => ⟨_, (Nat.sub_add_cancel h).symm⟩
  all_goals
    rw [stateRequestBody, h]
    rfl

section
variable (hlo : 1 ≤ byteAt rq.payload 0) (hhi : byteAt rq.payload 0 ≤ 4)
include hlo hhi

theorem stateRequestBody_of_busy (hbusy : s.busy = true) : stateRequestBody rq s = (s, .busy, []) := by
  obtain h | h | h | h : byteAt rq.payload 0 = 1 ∨ byteAt rq.payload 0 = 2 ∨ byteAt rq.payload 0 = 3 ∨
    byteAt rq.payload 0 = 4 := by omega
  all_goals
    rw [stateRequestBody, h]
    exact if_pos hbusy

theorem stateRequestBody_of_quench (hidle : s.busy = false) (hpwr : s.hth.pwr = .quench) :
    stateRequestBody rq s = (s, .thermalInhibit, []) := by
  obtain h | h | h | h : byteAt rq.payload 0 = 1 ∨ byteAt rq.payload 0 = 2 ∨ byteAt rq.payload 0 = 3 ∨
    byteAt rq.payload 0 = 4 := by omega
  all_goals
    rw [stateRequestBody, h]
    exact (if_neg (ne_true_of_eq_false hidle)).trans (if_pos hpwr)

end

section
variable {p : PState} (hcode : byteAt rq.payload 0 = p.code) (hp : p = .sleep ∨ p = .standby ∨ p = .ready)
  (hidle : s.busy = false)
include hcode hp hidle

theorem stateRequestBody_of_reached (hpwr : s.hth.pwr = p) : stateRequestBody rq s = (s, .ok, []) := by
  obtain rfl | rfl | rfl := hp
  all_goals
    rw [stateRequestBody, hcode]
    exact (if_neg (ne_true_of_eq_false hidle)).trans ((if_neg (by rw [hpwr]; decide)).trans (if_pos hpwr.symm))

/-- From STANDBY, READY or LIT a move to another state below LIT is accepted at once. -/
theorem stateRequestBody_of_move (hpwr : s.hth.pwr = .ready ∨ s.hth.pwr = .standby ∨ s.hth.pwr = .lit)
    (hmove : p ≠ s.hth.pwr) :
    stateRequestBody rq s = (startTrans p 0x01 (some (reqKey rq)) s, .pending, []) := by
  have hstates : s.hth.pwr ≠ .quench ∧ s.hth.pwr ≠ .safe ∧ s.hth.pwr ≠ .sleep := by
    obtain h | h | h := hpwr <;> rw [h] <;> decide
  obtain ⟨hcool, hsafe, hsleep⟩ := hstates
  obtain rfl | rfl | rfl := hp
  all_goals
    rw [stateRequestBody, hcode]
    refine (if_neg (ne_true_of_eq_false hidle)).trans ((if_neg hcool).trans ((if_neg hmove).trans ?_))
    simp only [hsafe, hsleep, reduceCtorEq, false_and, if_false]

end

end

/-- Settles O12: the ends of a hop and of a transition, then STATE_REQUEST by what it asks for. -/
theorem transitionsAndStateRequest : Obligations.TransitionsAndStateRequest := by
  refine ⟨fun t l tr s h => exec_transitionComplete_of_done t l h,
    fun t l tr s h => exec_transitionComplete_of_quench t l h, fun tr p st s => transEnds_of_nothing_held p st, ?sleep,
    ?request, ?ready, ?toReady, ?toSleep, fun rq s => stateRequestBody_of_busy, fun rq s => stateRequestBody_of_quench,
    fun rq s => stateRequestBody_of_no_state⟩
  case sleep =>
    intro t l tr s htrans hto htarget hfrom hcmd hheld
    obtain ⟨-, hheld'⟩ := sleepReached_trans_held (passState .sleep (s.at t))
    obtain ⟨e, hends⟩ := transEnds_of_nothing_held .sleep .ok (hheld'.trans hheld) hcmd
    refine ⟨_, exec_transitionComplete_of_done t l htrans (.inl hto), ?_⟩
    rw [stepDone_of_sleep (s := s.at t) htrans hto htarget hfrom, hends]
    exact ⟨rfl, rfl, rfl, rfl⟩
  case request =>
    rintro t rq h s x rfl hserves
    exact congrArg Host.Outcome.next (serve_of_serves stateRequestBody hserves)
  case ready =>
    intro rq s hcode hidle hpwr
    exact stateRequestBody_of_reached (p := .ready) hcode (.inr (.inr rfl)) hidle hpwr
  case toReady =>
    intro rq s hcode hidle hpwr
    have hmove : PState.ready ≠ s.hth.pwr := by rw [hpwr]; decide
    exact stateRequestBody_of_move (p := .ready) hcode (.inr (.inr rfl)) hidle (.inr (.inl hpwr)) hmove
  case toSleep =>
    intro rq s hcode hidle hpwr
    have hmove : PState.sleep ≠ s.hth.pwr := by obtain h | h | h := hpwr <;> rw [h] <;> decide
    exact stateRequestBody_of_move (p := .sleep) hcode (.inl rfl) hidle hpwr hmove

/-! ## The beginning of a transition -/

theorem powerUp_trans (s : State) : (powerUp s).hth.trans = s.hth.trans := by
  rw [powerUp]
  split
  · rfl
  · split <;> rfl

theorem linkTimer_hth (leaving target : PState) (s : State) : (linkTimer leaving target s).hth = s.hth := by
  rw [linkTimer]
  split
  · rfl
  · split <;> rfl

theorem stepBegins_trans (leaving stepTo : PState) (s : State) :
    (stepBegins leaving stepTo s).hth.trans = s.hth.trans := by
  obtain ⟨-, h⟩ | ⟨b, h⟩ := stepBegins_cases leaving stepTo s
  · rw [h, powerUp_trans]
  · exact congrArg (·.1.trans) h

/-- A transition that begins is the running one, from the state held now. -/
theorem startTrans_trans (p : PState) (c : Nat) (k : Option PendKey) (s : State) :
    (startTrans p c k s).hth.trans = some {
      start := s.hth.pwr, target := p, leaving := s.hth.pwr, stepTo := nextState s.hth.pwr p, cause := c,
      cmd := k } := by
  rw [startTrans, goOn, stepBegins_trans, linkTimer_hth]
  rfl

/-! ## The quench's ramp and its recovery (R392, R395) -/

theorem exec_quenchRampStep_of_ramp (t : Time) {s : State} (hramp : s.thm.quenching = true) (hq : s.thm.q ≠ 0) :
    exec (.quenchRampStep t) s = .next (if s.thm.q - 1 = 0
      then quenchDark { s.at t with thm := { s.thm with q := s.thm.q - 1 } }
      else { s.at t with thm := { s.thm with q := s.thm.q - 1 } }) :=
  if_pos ⟨hramp, hq⟩

section
variable {t d : Time} {s : State} (hcool : s.thm.coolSince = some d)
include hcool

theorem exec_quenchRecovery_of_dwell (hd : d + dwell ≤ t) (hpwr : s.hth.pwr = .quench) (hidle : s.busy = false) :
    exec (.quenchRecovery t) s = .next (startTrans
      (if wb s.hth.wakeConfig 5 && !s.thm.repeated then s.hth.beforeQuench else .standby) 0x12 none
      (forEng (releaseCause · 1) { s.at t with thm := { s.thm with q := 16, slopeStop := false } })) := by
  have hcool' : (s.at t).thm.coolSince = some d := hcool
  have hpwr' : (s.at t).hth.pwr = .quench := hpwr
  have hidle' : (s.at t).busy = false := hidle
  have hdone : dwellDone (s.at t) (s.at t).thm.coolSince = true := by
    rw [hcool']
    exact decide_eq_true (Nat.le_trans hd (Nat.le_max_right ..))
  refine (if_pos hdone).trans (congrArg Host.Outcome.next ?_)
  simp only [recover, hpwr', hidle', reduceCtorEq, false_and, if_false, if_true, Bool.false_eq_true]
  rfl

theorem exec_quenchRecovery_of_early (hearly : max s.now t < d + dwell) :
    exec (.quenchRecovery t) s = .next (s.at t) := by
  have hcool' : (s.at t).thm.coolSince = some d := hcool
  refine if_neg ?_
  rw [hcool']
  exact ne_true_of_eq_false (decide_eq_false (Nat.not_le.2 hearly))

end

/-- Settles O13: the steps of the ramp, then the recovery by whether its dwell is complete. -/
theorem quenchRampAndRecovery : Obligations.QuenchRampAndRecovery := by
  refine ⟨?step, ?last, ?resume, ?standby, fun t d s => exec_quenchRecovery_of_early, ?move⟩
  case step =>
    intro t s hramp hq
    rw [exec_quenchRampStep_of_ramp t hramp (by omega), if_neg (by omega)]
  case last =>
    intro t s hramp hq
    rw [exec_quenchRampStep_of_ramp t hramp (by omega), if_pos (by omega), hq]
  case resume =>
    intro t d s hcool hd hpwr hidle honce hback
    rw [exec_quenchRecovery_of_dwell hcool hd hpwr hidle, hback, honce]
    rfl
  case standby =>
    intro t d s hcool hd hpwr hidle hback
    rw [exec_quenchRecovery_of_dwell hcool hd hpwr hidle, hback]
    rfl
  case move =>
    intro c s
    exact ⟨_, startTrans_trans .standby c none s, rfl, rfl, rfl⟩

end Sys2Proof.Machine
end

section
/-! SUPPORT. The Granary: patrol scrub, refresh, errors and training (R362-R375, R521, R522), and FRAME_SYNC_OUT (R333).
First what the background work and the log leave of the Granary's record, then the rows. -/

namespace Sys2Proof.Machine

/-! ## Patrol scrub (R368) and FRAME_SYNC_OUT (R333) -/

theorem scrubTick_of_withheld {s : State} (h : withheld s = true) : scrubTick s = s :=
  if_pos (by rw [h, Bool.or_true])

theorem scrubTick_of_serves {s : State} (hserves : grnServes s = true) (hfree : withheld s = false) {a : Time}
    (hfrom : s.grn.scrubFrom = some a) : scrubTick s = setGrn (fun g => { g with
      scrubFrom := some (a + (s.now - a) / (wfl s.grn.config 16 8 * sec) * (wfl s.grn.config 16 8 * sec)),
      scrubPasses := g.scrubPasses + (s.now - a) / (wfl s.grn.config 16 8 * sec),
      scrubAt := scrubBytes s * ((s.now - a) % (wfl s.grn.config 16 8 * sec)) / (wfl s.grn.config 16 8 * sec),
      scrubBack := [] }) s := by
  rw [scrubTick, if_neg (by rw [hserves, hfree]; decide), hfrom]
  rfl

/-- The last of the multiples of a period after `a` that have begun by `n`. -/
theorem lastPeriod_bounds {a n p : Nat} (ha : a ≤ n) (hp : 0 < p) :
    a + (n - a) / p * p ≤ n ∧ n < a + (n - a) / p * p + p := by
  have hdiv := Nat.div_add_mod' (n - a) p
  have hmod := Nat.mod_lt (n - a) hp
  omega

/-- The pass that runs is the last that began by now, and it has not come beyond its end. -/
theorem scrubTick_pass {s : State} {a : Time} (hserves : grnServes s = true) (hfree : withheld s = false)
    (hfrom : s.grn.scrubFrom = some a) (ha : a ≤ s.now) (hperiod : 0 < wfl s.grn.config 16 8) :
    ∃ b, (scrubTick s).grn.scrubFrom = some b ∧ a ≤ b ∧ b ≤ s.now ∧ s.now < b + wfl s.grn.config 16 8 * sec ∧
      (scrubTick s).grn.scrubAt ≤ scrubBytes s ∧ (scrubTick s).grn.scrubBack = [] ∧
      (scrubTick s).grn.hbm = s.grn.hbm := by
  rw [scrubTick_of_serves hserves hfree hfrom]
  have hp : 0 < wfl s.grn.config 16 8 * sec := Nat.mul_pos hperiod (by decide)
  generalize wfl s.grn.config 16 8 * sec = p at hp
  obtain ⟨hbegan, hruns⟩ := lastPeriod_bounds ha hp
  refine ⟨_, rfl, Nat.le_add_right .., hbegan, hruns, ?_, rfl, rfl⟩
  exact Nat.div_le_of_le_mul (Nat.mul_comm p _ ▸ Nat.mul_le_mul_left _ (Nat.mod_lt _ hp).le)

/-- The plane buffer of an MAE engine is skipped granule by granule (R355). -/
theorem scrubSkips_of_planeBuffer {s : State} {a : Nat} {e : Fin 4} (hmae : s.isMae e = true)
    (hlo : e.val * 0x40000000 ≤ a) (hhi : a < e.val * 0x40000000 + 1061683200) : scrubSkips s a = true := by
  have hmem : (e.val * 0x40000, e.val * 0x40000 + 259200) ∈ scrubSkipped s :=
    List.mem_append_left _ (List.mem_map.2 ⟨e, List.mem_filter.2 ⟨List.mem_finRange e, hmae⟩, rfl⟩)
  refine Bool.or_eq_true_iff.2 (.inl (List.any_eq_true.2 ⟨_, hmem, ?_⟩))
  simp only [Bool.and_eq_true, decide_eq_true_eq]
  omega

theorem syncFrame_of_on {s : State} (hen : wb s.tng.config 26 = true) (hsleep : s.hth.pwr ≠ .sleep)
    (hoff : s.hth.pwr ≠ .off) : syncFrame s = setTng (fun x => { x with syncOut := some s.now }) s := by
  simp [syncFrame, hen, hsleep, hoff]

/-- Settles O50: the pass of the scrub by its division with remainder, then the pulse of FRAME_SYNC_OUT. -/
theorem scrubAndFrameSync : Obligations.ScrubAndFrameSync := by
  refine ⟨fun s => scrubTick_of_withheld, fun a s => scrubTick_pass, fun a e s => scrubSkips_of_planeBuffer, ?rises,
    ?falls, ?low⟩
  case rises =>
    intro s hen hsleep hoff
    have hwide : 0 < 10 * us := by decide
    rw [syncFrame_of_on hen hsleep hoff]
    exact ⟨rfl, by simp [syncHigh, hen, hsleep, hoff, hwide]⟩
  case falls =>
    intro a s hrise hlate
    simp [syncHigh, hrise, Nat.not_lt.2 hlate]
  case low =>
    intro s hpwr
    rw [syncHigh]
    split
    · obtain h | h := hpwr <;> simp [h]
    · rfl

/-! ## What background work and the log leave alone -/

/-- The parts of the state that background work does not touch: the Hearth, and the Granary but for patrol scrub and the
rotation of its slots. -/
def State.served (s : State) : Hth × Grn :=
  (s.hth, { s.grn with scrubFrom := none, scrubPasses := 0, scrubAt := 0, scrubBack := [], rotBg := 0 })

theorem scrubTick_served (s : State) : (scrubTick s).served = s.served := by
  rw [scrubTick]
  split <;> rfl

theorem portSlot_served (p : Nat) (s : State) : (portSlot p s).served = s.served := by
  rw [portSlot]
  split <;> rfl

theorem starveTick_served (s : State) : (starveTick s).served = s.served :=
  foldl_proj State.served _ (fun _ _ => portSlot_served ..) _ _

/-- What REFRESH_INTERVAL brings up to date first (logs 73, 74). -/
theorem ticks_served (t : Time) (s : State) : (starveTick (scrubTick (s.at t))).served = s.served :=
  (starveTick_served _).trans (scrubTick_served _)

section
variable {s x : State} (h : x.served = s.served)
include h

theorem pc_of_served : x.grn.pc = s.grn.pc := congrArg (·.2.pc) h
theorem hbm_of_served : x.grn.hbm = s.grn.hbm := congrArg (·.2.hbm) h
theorem pcWorks_of_served (c : Fin 64) : pcWorks x c = pcWorks s c :=
  congrArg (fun p : Hth × Grn => p.1.boot == .on && !p.2.selfRefresh &&
    (decide (c.val < 32) || p.2.stacksUsed == 3) && !p.2.pc[c].failed) h
theorem anyPanic_of_served : anyPanic x = anyPanic s :=
  congrArg (fun p : Hth × Grn => (List.finRange 4).any fun e => p.2.urg[e] == .panic) h

end

/-- The Granary but for its error log. -/
def Grn.unlogged (g : Grn) : Grn := { g with log := [], logOver := false }

theorem logPush_unlogged (a ty p : Nat) (c : Fin 64) (y : Nat) (s : State) :
    (logPush a ty p c y s).grn.unlogged = s.grn.unlogged := by
  rw [logPush]
  split
  · rfl
  · cases s.grn.logOver <;> rfl

theorem pc_of_unlogged {g x : Grn} (h : x.unlogged = g.unlogged) : x.pc = g.pc := congrArg (·.pc) h

/-! ## Refreshes are owed up to eight (R362, R363) -/

/-- No pseudo-channel's refreshes owed rise. -/
def OwedFalls (s x : State) : Prop := ∀ c : Fin 64, x.grn.pc[c].owed ≤ s.grn.pc[c].owed

theorem OwedFalls.of_pc {s x : State} (h : x.grn.pc = s.grn.pc) : OwedFalls s x := fun c => by rw [h]

theorem OwedFalls.trans {s x y : State} (h : OwedFalls s x) (k : OwedFalls x y) : OwedFalls s y :=
  fun c => Nat.le_trans (k c) (h c)

theorem OwedFalls.setPc {c : Fin 64} {f : Pc → Pc} (s : State) (hf : ∀ p, (f p).owed ≤ p.owed) :
    OwedFalls s (setPc c f s) := by
  intro d
  show (updWith s.grn.pc c f)[d].owed ≤ _
  by_cases h : c = d
  · subst h
    rw [updWith_self]
    exact hf _
  · rw [updWith_other _ _ _ _ h]

theorem OwedFalls.logPush (a ty p : Nat) (c : Fin 64) (y : Nat) (s : State) : OwedFalls s (logPush a ty p c y s) :=
  .of_pc (pc_of_unlogged (logPush_unlogged ..))

theorem OwedFalls.refl (s : State) : OwedFalls s s := .of_pc rfl

/-! Entry to SAFE leaves the pseudo-channels alone. -/

theorem cmdDone_grn (k : PendKey) (st : Status) (s : State) : (cmdDone k st s).grn = s.grn := by
  obtain ⟨_, _, _, h⟩ := cmdDone_eq k st s
  rw [h]

theorem doneAll_grn (p : PendKey → Bool) (st : Status) (s : State) : (doneAll p st s).grn = s.grn :=
  foldl_proj State.grn _ (fun _ _ => cmdDone_grn ..) _ s

theorem dropDeferred_grn (s : State) : (dropDeferred s).grn = s.grn :=
  foldl_proj State.grn _ (fun _ _ => cmdDone_grn ..) _ _

theorem abandonTrans_grn (st : Status) (s : State) : (abandonTrans st s).grn = s.grn := by
  rw [abandonTrans]
  split
  · dsimp only
    split
    · exact cmdDone_grn ..
    · rfl
  · rfl

theorem judgeHolder_grn (s : State) : (judgeHolder s).grn = s.grn := grn_of_base (judgeHolder_base s)

theorem quenchPlls_grn (s : State) : (quenchPlls s).grn = s.grn := by
  rw [quenchPlls]
  split <;> rfl

theorem scanOffAll_grn (s : State) : (forEng scanOff s).grn = s.grn :=
  grn_of_base (forEng_proj State.base _ scanOff_base s)

theorem safeFromStandby_pc (s : State) : (safeFromStandby s).grn.pc = s.grn.pc := by
  rw [safeFromStandby, setHst_grn, setGrn_grn, grn_of_base (allPlls_pllOn_base s)]

/-- What entry to SAFE has done before the PLLs. -/
theorem darkened_grn (f : Thm → Thm) (p : PendKey → Bool) (s : State) : (setThm f (forEng scanOff (allDark
    (doneAll p .wrongState (dropDeferred (abortCommit (abandonTrans .hwFault s))))))).grn = s.grn := by
  rw [setThm_grn, scanOffAll_grn, grn_of_base (allDark_base _), doneAll_grn, dropDeferred_grn,
    grn_of_base (abortCommit_base _), abandonTrans_grn]

theorem enterState_grn (cause : Nat) (p q : PState) (s : State) : (enterState cause p q s).grn = s.grn := rfl

theorem enterSafe_pc (cause : Nat) (s : State) : (enterSafe cause s).grn.pc = s.grn.pc := by
  rw [enterSafe]
  split
  · rfl
  split
  · split
    · rfl
    · rw [judgeHolder_grn, scanOffAll_grn, setHth_grn, abandonTrans_grn]
  · dsimp only
    rw [judgeHolder_grn, grn_of_base (mirrorEnable_base _), enterState_grn, setHth_grn]
    split
    · rw [setGrn_grn, quenchPlls_grn, darkened_grn]
    · split
      · rw [safeFromStandby_pc, darkened_grn]
      · rw [darkened_grn]

/-! What a refresh does to the refreshes owed. -/

theorem OwedFalls.failPc (c : Fin 64) (s : State) : OwedFalls s (failPc c s) := by
  unfold Machine.failPc
  dsimp only
  refine (OwedFalls.setPc (c := c) (f := fun p => { p with
    failed := true, suspect := none, retraining := false, owed := 0, ce := [], ue := [], parity := [] }) s
    fun p => Nat.zero_le _).trans ?_
  generalize Machine.setPc c _ s = s1
  refine (OwedFalls.logPush noAddr 5 noPort c 0 (redirect (c.val / 32) s1)).trans ?_
  split
  · exact .of_pc (enterSafe_pc ..)
  · exact .refl _

theorem OwedFalls.dataCheck (c : Fin 64) (ok : Bool) (s : State) : OwedFalls s (dataCheck c ok s) := by
  unfold Machine.dataCheck
  split
  · exact .refl s
  · split
    · exact .setPc s fun _ => Nat.le_refl _
    · dsimp only
      refine (OwedFalls.logPush noAddr 4 noPort c 0 s).trans ?_
      split
      · exact .setPc _ fun _ => Nat.le_refl _
      · split
        · exact .failPc _ _
        · exact .setPc _ fun _ => Nat.le_refl _

theorem OwedFalls.issueRefresh (c : Fin 64) (ok : Bool) (s : State) : OwedFalls s (issueRefresh c ok s) := by
  unfold Machine.issueRefresh
  dsimp only
  refine (OwedFalls.setPc (c := c) (f := fun p => { p with interval := (s.grn.pc[c].interval + 1) % 256 }) s
    fun _ => Nat.le_refl _).trans ?_
  split
  · exact .dataCheck _ _ _
  · exact .refl _

/-- The ninth refresh owed is counted, logged and raised as forced (R363). -/
theorem OwedFalls.forced (c : Fin 64) (s : State) : OwedFalls s (raise evGrnRefreshForced c.val
    (Machine.logPush noAddr 6 noPort c 0 (setGrn (fun g => { g with forcedCount := satInc 32 g.forcedCount }) s))) :=
  OwedFalls.logPush noAddr 6 noPort c 0 (setGrn (fun g => { g with forcedCount := satInc 32 g.forcedCount }) s)

section
variable (t : Time) {c : Fin 64} (ok : Bool) {s : State}

theorem exec_refreshInterval_of_idle (h : pcWorks s c = false) :
    exec (.refreshInterval t c ok) s = .next (starveTick (scrubTick (s.at t))) :=
  if_pos (by rw [pcWorks_of_served (ticks_served t s), h]; rfl)

section
variable (hworks : pcWorks s c = true)
include hworks

/-- The row of a pseudo-channel that works, by PANIC and by what is owed. -/
theorem exec_refreshInterval_of_works : exec (.refreshInterval t c ok) s =
    if anyPanic s then
      if s.grn.pc[c].owed < 8 then
        .next (setPc c (fun p => { p with owed := p.owed + 1 }) (starveTick (scrubTick (s.at t))))
      else .next (issueRefresh c ok (raise evGrnRefreshForced c.val (logPush noAddr 6 noPort c 0
        (setGrn (fun g => { g with forcedCount := satInc 32 g.forcedCount }) (starveTick (scrubTick (s.at t)))))))
    else if s.grn.pc[c].owed = 0 then .next (issueRefresh c ok (starveTick (scrubTick (s.at t))))
    else .next (issueRefresh c ok (issueRefresh c ok (setPc c (fun p => { p with owed := p.owed - 1 })
      (starveTick (scrubTick (s.at t)))))) := by
  have h := ticks_served t s
  have hpc := congrArg (fun v => v[c].owed) (pc_of_served h)
  show execRefreshInterval t c ok s = _
  unfold execRefreshInterval
  dsimp only at hpc ⊢
  rw [pcWorks_of_served h, hworks, anyPanic_of_served h, hpc]
  rfl

theorem exec_refreshInterval_of_panic (hpanic : anyPanic s = true) (howed : s.grn.pc[c].owed < 8) :
    ∃ x, exec (.refreshInterval t c ok) s = .next x ∧
      x.grn.pc = updWith s.grn.pc c (fun p => { p with owed := p.owed + 1 }) ∧ x.grn.hbm = s.grn.hbm := by
  rw [exec_refreshInterval_of_works t ok hworks, if_pos hpanic, if_pos howed]
  have h := ticks_served t s
  generalize starveTick (scrubTick (s.at t)) = x at h ⊢
  have hpc := congrArg (updWith · c fun p : Pc => { p with owed := p.owed + 1 }) (pc_of_served h)
  exact ⟨_, rfl, hpc, hbm_of_served (x := x) h⟩

end

theorem exec_refreshInterval_owed {x : State} (howed : s.grn.pc[c].owed ≤ 8)
    (hx : exec (.refreshInterval t c ok) s = .next x) : x.grn.pc[c].owed ≤ 8 := by
  have hpc := pc_of_served (ticks_served t s)
  have hfalls : ∀ {y : State}, OwedFalls s y → y.grn.pc[c].owed ≤ 8 := fun h => Nat.le_trans (h c) howed
  cases hworks : pcWorks s c with
  | false =>
    rw [exec_refreshInterval_of_idle t ok hworks] at hx
    cases hx
    exact hfalls (.of_pc hpc)
  | true =>
    rw [exec_refreshInterval_of_works t ok hworks] at hx
    generalize starveTick (scrubTick (s.at t)) = r at hpc hx
    have hticks : OwedFalls s r := .of_pc hpc
    split at hx
    · split at hx
      case isTrue howes =>
        cases hx
        show (updWith r.grn.pc c _)[c].owed ≤ 8
        rw [updWith_self, hpc]
        exact howes
      · cases hx
        exact hfalls ((hticks.trans (.forced _ _)).trans (.issueRefresh _ _ _))
    · split at hx
      · cases hx
        exact hfalls (hticks.trans (.issueRefresh _ _ _))
      · cases hx
        have hone := hticks.trans (.setPc (c := c) (f := fun p => { p with owed := p.owed - 1 }) _
          fun _ => Nat.sub_le ..)
        exact hfalls ((hone.trans (.issueRefresh c ok _)).trans (.issueRefresh _ _ _))

end

theorem issueRefresh_of_early {c : Fin 64} (ok : Bool) {s : State} (h : s.grn.pc[c].interval < 255) :
    issueRefresh c ok s = { s with grn := { s.grn with
      pc := updWith s.grn.pc c fun p => { p with interval := s.grn.pc[c].interval + 1 } } } := by
  rw [issueRefresh]
  dsimp only
  rw [if_neg (by omega), Nat.mod_eq_of_lt (by omega)]
  rfl

/-! ## Errors of the HBM (R365, R367-R369) -/

theorem makeSuspect_grn (c : Fin 64) (s : State) : ∃ v, (makeSuspect c s).grn = { s.grn with pc := v } := by
  rw [makeSuspect]
  split
  · exact ⟨_, rfl⟩
  · exact ⟨_, rfl⟩

theorem logPush_grn (a ty p : Nat) (c : Fin 64) (y : Nat) (s : State) :
    ∃ l o, (logPush a ty p c y s).grn = { s.grn with log := l, logOver := o } := by
  rw [logPush]
  split
  · exact ⟨_, _, rfl⟩
  · cases s.grn.logOver <;> exact ⟨_, _, rfl⟩

/-- A corrected error counts one, logs one and, from another port than patrol scrub's, waits to be written back. -/
theorem eccCorrected_grn (c : Fin 64) (a p y : Nat) (s : State) :
    ∃ v l o, (eccCorrected c a p y s).grn = { s.grn with
      ceCount := satInc 32 s.grn.ceCount, pc := v, log := l, logOver := o,
      scrubBack := if p = 12 then s.grn.scrubBack else (s.grn.scrubBack ++ [a / 64]).dedup } := by
  unfold eccCorrected
  dsimp only
  obtain ⟨l, o, hlog⟩ := logPush_grn (a / 64) 1 p c y (setPc c (fun p => { p with ce := withinSec s s.grn.pc[c].ce })
    (setGrn (fun g => { g with ceCount := satInc 32 g.ceCount }) s))
  generalize hs1 : logPush (a / 64) 1 p c y _ = s1 at hlog ⊢
  have hback : (if p = 12 then s1
      else setGrn (fun g => { g with scrubBack := (g.scrubBack ++ [a / 64]).dedup }) s1).grn = { s.grn with
        ceCount := satInc 32 s.grn.ceCount, log := l, logOver := o
        pc := updWith s.grn.pc c fun p => { p with ce := withinSec s s.grn.pc[c].ce }
        scrubBack := if p = 12 then s.grn.scrubBack else (s.grn.scrubBack ++ [a / 64]).dedup } := by
    split
    · exact hlog
    · rw [setGrn_grn, hlog]
      rfl
  generalize (if p = 12 then s1 else _) = s2 at hback ⊢
  split
  · obtain ⟨v, hv⟩ := makeSuspect_grn c (raise evGrnEccCeRate c.val s2)
    exact ⟨v, l, o, by rw [hv, raise_grn, hback]⟩
  · split
    · obtain ⟨v, hv⟩ := makeSuspect_grn c s2
      exact ⟨v, l, o, by rw [hv, hback]⟩
    · exact ⟨_, l, o, hback⟩

section
variable (t : Time) {c : Fin 64} (a p : Nat) (w b : Bool) (y : Byte) {s : State}

theorem exec_parityError_of_works (hworks : pcWorks s c = true) : exec (.parityError t c a p w false) s =
    .next (raiseIf (!s.grn.parityRaised) evGrnParity c.val { s.at t with
      grn := { s.grn with parityCount := satInc 32 s.grn.parityCount, parityRaised := true } }) := by
  refine if_neg ?_
  show ¬(!pcWorks s c) = true
  rw [hworks]
  decide

theorem exec_parityError_of_idle (hidle : pcWorks s c = false) :
    exec (.parityError t c a p w b) s = .next (s.at t) := by
  refine if_pos ?_
  show (!pcWorks s c) = true
  rw [hidle]
  rfl

theorem exec_eccError_of_skipped (h : pcWorks s c = false ∨ p = 12 ∧ scrubSkips s a = true) :
    exec (.eccError t c a p b y) s = .next (s.at t) := by
  refine if_pos ?_
  show (!pcWorks s c || (p == 12 && scrubSkips s a)) = true
  obtain h | ⟨h, hskips⟩ := h
  · rw [h]
    rfl
  · rw [h, hskips]
    exact Bool.or_true _

theorem exec_eccError_of_works (hworks : pcWorks s c = true) (hreads : p ≠ 12 ∨ scrubSkips s a = false) :
    exec (.eccError t c a p b y) s = if b then .next (eccUncorrectable c a p y.toNat (s.at t))
      else .next (eccCorrected c a p y.toNat (s.at t)) := by
  refine if_neg ?_
  show ¬(!pcWorks s c || (p == 12 && scrubSkips s a)) = true
  rw [hworks]
  obtain h | h := hreads
  · simp [h]
  · simp [h]

end

/-- Settles O49: a refresh interval by the pseudo-channel's service and PANIC, then the errors. -/
theorem refreshAndErrors : Obligations.RefreshAndErrors := by
  refine ⟨?issued, fun t c b s => exec_refreshInterval_of_panic t b, fun t c b s x => exec_refreshInterval_owed t b,
    fun t c b s => exec_refreshInterval_of_idle t b, fun c b s => issueRefresh_of_early b,
    fun t c a p w s => exec_parityError_of_works t a p w, ?errors, ?corrected,
    fun t c a b y s hskips => exec_eccError_of_skipped t a 12 b y (.inr ⟨rfl, hskips⟩), ?idle⟩
  case issued =>
    intro t c b s hworks hpanic howed
    rw [exec_refreshInterval_of_works t b hworks, hpanic, if_neg Bool.false_ne_true, if_pos howed]
  case errors =>
    intro t c a p y s hworks hreads
    exact ⟨exec_eccError_of_works t a p false y hworks hreads, exec_eccError_of_works t a p true y hworks hreads⟩
  case corrected =>
    intro c a p y s
    obtain ⟨v, l, o, h⟩ := eccCorrected_grn c a p y s
    rw [h]
    refine ⟨rfl, rfl, rfl, fun hp => ?_⟩
    simp [hp]
  case idle =>
    intro t c a p w b y s hidle
    exact ⟨exec_parityError_of_idle t a p w b hidle, exec_eccError_of_skipped t a p b y (.inl hidle)⟩

/-! ## Training (R372-R374, R521, R522) -/

theorem memTrainRun_of_zero {rq : Req} (s : State) (h : leNat rq.payload = 0) :
    memTrainRun rq s = (s, .badParam, []) := by
  rw [memTrainRun, memTrainPre, if_pos h]

theorem memTrainRun_of_mask {rq : Req} (s : State) (h : leNat rq.payload ≠ 0) :
    memTrainRun rq s = ((memTrainRun rq s).1, .pending, []) := by
  rw [memTrainRun, memTrainPre, if_neg h]

/-- A mask of zero is refused with and without clocks. -/
theorem memTrain_of_zero {rq : Req} (s : State) (h : leNat rq.payload = 0) :
    deferrable memTrainPre memTrainRun rq s = (s, .badParam, []) := by
  rw [deferrable, memTrainRun_of_zero s h, memTrainPre, if_pos h]
  exact ite_self _

theorem setPc_retraining (c d : Fin 64) (f : Pc → Pc) (s : State) (h : (f s.grn.pc[c]).retraining = true)
    (hd : s.grn.pc[d].retraining = true ∨ c = d) : (setPc c f s).grn.pc[d].retraining = true := by
  show (updWith s.grn.pc c f)[d].retraining = true
  by_cases hcd : c = d
  · subst hcd
    rw [updWith_self]
    exact h
  · rw [updWith_other _ _ _ _ hcd]
    exact hd.resolve_right hcd

theorem foldl_retrain_retraining (l : List (Fin 64)) (d : Fin 64) (s : State)
    (hd : s.grn.pc[d].retraining = true ∨ d ∈ l) :
    (l.foldl (fun a c => retrain c a) s).grn.pc[d].retraining = true := by
  induction l generalizing s with
  | nil => exact hd.resolve_right List.not_mem_nil
  | cons c l ih =>
    refine ih _ ?_
    obtain h | h := hd
    · exact .inl (setPc_retraining c d _ s rfl (.inl h))
    · obtain rfl | h := List.mem_cons.1 h
      · exact .inl (setPc_retraining d d _ s rfl (.inr rfl))
      · exact .inr h

theorem leNat_ne_zero_of_bit {l : List Byte} {n : Nat} (h : bit (leNat l) n = true) : leNat l ≠ 0 := by
  intro h0
  rw [h0] at h
  simp [bit] at h

theorem memTrainRun_retrains {rq : Req} {c : Fin 64} {s : State} (hbit : bit (leNat rq.payload) c.val = true)
    (huse : pcInUse s c = true) (hsound : s.grn.pc[c].failed = false) :
    (memTrainRun rq s).1.grn.pc[c].retraining = true := by
  rw [memTrainRun, memTrainPre, if_neg (leNat_ne_zero_of_bit hbit)]
  refine foldl_retrain_retraining _ c s (.inr (List.mem_filter.2 ⟨List.mem_finRange c, ?_⟩))
  rw [hbit, huse, hsound]
  rfl

/-- Bytes whose value is left open take from the stream of free values only. -/
theorem freshBytes_state (n : Nat) (s : State) : (freshBytes n s).2 = { s with free := s.free + n } := by
  induction n generalizing s with
  | zero => rfl
  | succ n ih =>
    rw [freshBytes, ih]
    show { s with free := s.free + 1 + n } = _
    rw [Nat.add_assoc, Nat.add_comm 1 n]

theorem memStatusBody_of_kept {rq : Req} (s : State) (hn : byteAt rq.payload 1 ≤ 62)
    (hclear : byteAt rq.payload 2 = 0) (hzero : zeroAt rq.payload 3 1 = true) :
    ∃ p n, memStatusBody rq s = ({ s with free := n }, .ok, p) ∧ p.take 4 = leBytes 4 (grnStatus s) ∧ s.free ≤ n := by
  have hmost : ¬(if portLimit rq.port = 1024 then 62 else 64) < byteAt rq.payload 1 := by
    split <;> omega
  rw [memStatusBody]
  dsimp only
  rw [if_neg (by simp [hmost, hclear, hzero]), freshBytes_state, hclear, if_neg (by decide)]
  refine ⟨_, _, rfl, ?_, Nat.le_add_right ..⟩
  simp only [List.append_assoc]
  exact List.take_left' (leBytes_length ..)

section
variable (t : Time) {c : Fin 64} (b : Bool) (l : List (Nat × Int)) {s : State}

theorem exec_retrainComplete_of_found (h : s.grn.pc[c].retraining = true) :
    exec (.retrainComplete t c true b l) s = .next (trainTick c (trainTaps c l { s.at t with grn := { s.grn with
      pc := updWith s.grn.pc c fun p => { p with retraining := false } } })) := by
  refine if_neg ?_
  show ¬(!s.grn.pc[c].retraining) = true
  rw [h]
  decide

theorem exec_retrainComplete_of_other (a : Bool) (h : s.grn.pc[c].retraining = false) :
    exec (.retrainComplete t c a b l) s = .next (s.at t) := by
  refine if_pos ?_
  show (!s.grn.pc[c].retraining) = true
  rw [h]
  rfl

end

/-- Settles O51: the commands by their bodies, the end of a training by whether one runs. -/
theorem memoryTraining : Obligations.MemoryTraining := by
  refine ⟨?trains, ?refuses, fun t c b l s => exec_retrainComplete_of_found t b l,
    fun t c a b l s => exec_retrainComplete_of_other t b l a, ?status, fun rq c s => memTrainRun_retrains⟩
  case trains =>
    intro t rq s hserves hmask hpwr
    refine congrArg (fun x => Host.Outcome.next (trainSettle x)) (serve_of_answer hserves ?_)
    exact (if_neg hpwr).trans (memTrainRun_of_mask _ hmask)
  case refuses =>
    intro t rq s hserves hmask
    exact congrArg (fun x => Host.Outcome.next (trainSettle x)) (serve_of_answer hserves (memTrain_of_zero _ hmask))
  case status =>
    intro t rq s hserves hn hclear hzero
    obtain ⟨p, n, hbody, hstatus, hfree⟩ := memStatusBody_of_kept (takeReq rq (s.at t)) hn hclear hzero
    exact ⟨p, n, congrArg Host.Outcome.next (serve_of_answer hserves hbody), hstatus, hfree⟩

end Sys2Proof.Machine
end

section
/-! SUPPORT. The Servo: ticks, sample deadlines and traces (R305, R307, R327, R519, R520), and the loop
commands (R308-R318, R328, R518). -/

namespace Sys2Proof.Machine

/-! ## The tick counter (R305) -/

theorem raiseIf_srv (c : Bool) (id d : Nat) (s : State) : (raiseIf c id d s).srv = s.srv := by
  cases c <;> rfl

theorem satFlags_tick (n : Fin 64) (a i o : Bool) (s : State) : (satFlags n a i o s).srv.tick = s.srv.tick := by
  rw [satFlags, raiseIf_srv]
  split <;> rfl

theorem bumpFlag_tick (n : Fin 64) (b : Bool) (s : State) : (bumpFlag n b s).srv.tick = s.srv.tick := by
  cases b <;> rfl

theorem swapBank_tick (n : Fin 64) (s : State) : (swapBank n s).srv.tick = s.srv.tick := by
  rw [swapBank]
  dsimp only
  split
  · rfl
  · rw [bumpFlag_tick, satFlags_tick]
    rfl

theorem tickLoop_tick (i : ServoIn) (n : Fin 64) (s : State) : (tickLoop i n s).srv.tick = s.srv.tick := by
  rw [tickLoop]
  split
  · rfl
  · extract_lets s1 l
    have hswapped : s1.srv.tick = s.srv.tick := by
      dsimp only [s1]
      split
      · split
        · exact swapBank_tick n s
        · rfl
      · rfl
    split
    · exact hswapped
    · exact hswapped

theorem scanTick_srv (i : ServoIn) (e : Fin 4) (s : State) : (scanTick i e s).srv = s.srv := by
  rw [scanTick]
  split <;> rfl

theorem exec_servoTick_of_running (t : Time) (i : ServoIn) {s : State} (h : s.srv.running = true) :
    ∃ x, exec (.servoTick t i) s = .next x ∧ x.srv.tick = s.srv.tick + 1 := by
  have hscan : (forEng (scanTick i) (s.at t)).srv = s.srv := forEng_proj State.srv _ (scanTick_srv i) _
  have hloops := foldl_proj (fun a : State => a.srv.tick) _ (fun a n => tickLoop_tick i n a) (List.finRange 64)
    (forEng (scanTick i) (s.at t))
  have hruns : ¬(!(s.at t).srv.running) = true := by rw [State_at_srv, h]; decide
  refine ⟨_, if_neg hruns, ?_⟩
  show ((List.finRange 64).foldl (fun a n => tickLoop i n a) (forEng (scanTick i) (s.at t))).srv.tick + 1 = _
  exact congrArg (· + 1) (hloops.trans (congrArg Srv.tick hscan))

/-! ## Sample deadlines (R305, R307) -/

section
variable (t : Time) {n : Fin 64} {s : State}

theorem exec_loopSampleDeadline_of_none (d : Bool) (h : s.srv.loops[n].samples = []) :
    exec (.loopSampleDeadline t n d) s = .next (s.at t) := by
  have h' : (s.at t).srv.loops[n].samples = [] := h
  show execLoopSampleDeadline t n d s = _
  unfold execLoopSampleDeadline
  dsimp only
  rw [h']

theorem exec_loopSampleDeadline_of_sample (d : Bool) {x : Sample} {r : List Sample}
    (hsamples : s.srv.loops[n].samples = x :: r) (hruns : s.srv.running = true)
    (hmode : s.srv.loops[n].mode = .auto ∨ s.srv.loops[n].mode = .manual) :
    exec (.loopSampleDeadline t n d) s = .next (traceSample n (if d then
        sampleDone n x (setLoop n (fun l => { l with missRun := 0 })
          (setLoop n (fun l => { l with samples := r }) (s.at t)))
      else sampleMissed n (setLoop n (fun l => { l with samples := r }) (s.at t)))) := by
  have hsamples' : (s.at t).srv.loops[n].samples = x :: r := hsamples
  have htakes : ¬((!(s.at t).srv.running) = true ∨
      (!((s.at t).srv.loops[n].mode == .auto || (s.at t).srv.loops[n].mode == .manual)) = true) := by
    rw [State_at_srv, hruns]
    obtain h | h := hmode <;> rw [h] <;> decide
  show execLoopSampleDeadline t n d s = _
  unfold execLoopSampleDeadline
  dsimp only
  rw [hsamples']
  exact if_neg htakes

end

/-- A miss that neither closes a focus window nor is the sixteenth in a row is flagged and counted. -/
theorem sampleMissed_loops {n : Fin 64} {s : State} (hty : s.srv.loops[n].ty ≠ 4) (hrun : s.srv.loops[n].missRun < 15) :
    (sampleMissed n s).srv.loops = updWith (markFlags n 128 s).srv.loops n fun l => { l with
      miss := true, missed := satInc 16 l.missed, missRun := s.srv.loops[n].missRun + 1 } := by
  have hlast : ¬(s.srv.loops[n].missRun + 1 = 16 ∧ privileged s.srv.loops[n].ty = true) := by omega
  rw [sampleMissed, if_neg hlast, if_neg hty, raiseIf_srv, raiseIf_srv]
  rfl

theorem markFlags_loop_self (n : Fin 64) (m : BitVec 8) (s : State) : ∃ a f,
    (markFlags n m s).srv.loops[n] = { s.srv.loops[n] with flagAt := a, flagNow := f } :=
  ⟨_, _, updWith_self ..⟩

theorem sampleDone_of_no_data {n : Fin 64} {x : Sample} (s : State) (hty : s.srv.loops[n].ty ≠ 6)
    (hdata : x.data = false) : sampleDone n x s = { s with srv := { s.srv with
      loops := updWith s.srv.loops n fun l => { l with nodata := true } } } := by
  rw [sampleDone, if_neg hty, hdata]
  rfl

/-! ## TRACE_ARM and TRACE_READ (R327, R519, R520) -/

theorem traceArmBody_of_first {rq : Req} {b : Fin 8} {n : Fin 64} (s : State) (hb : byteAt rq.payload 0 = b.val)
    (hn : byteAt rq.payload 1 = n.val) (hnode : byteAt rq.payload 2 < 13) (htrigger : byteAt rq.payload 3 = 0)
    (hpre : le16 rq.payload 6 < 16384) (hevent : le16 rq.payload 8 = 0) (hzero : zeroAt rq.payload 10 2 = true)
    (hlevel : le32 rq.payload 12 = 0) : traceArmBody rq s = (setTrace b (fun _ => {
      st := 1, slot := n, node := byteAt rq.payload 2, dec := le16 rq.payload 4 + 1, trigger := 0
      pre := le16 rq.payload 6, event := 0, level := bkI rq.payload 12
      wasLatched := s.evt.latched 0 }) s, .ok, []) := by
  simp only [traceArmBody, hb, hn, hnode.not_ge, htrigger, hpre.not_ge, hevent, hzero, hlevel, b.isLt.not_ge,
    n.isLt.not_ge, Fin.ofNat_val_eq_self]
  exact if_neg (by decide)

section
variable {rq : Req} {b : Fin 8} (s : State) (hb : byteAt rq.payload 0 = b.val) (hz1 : zeroAt rq.payload 1 1 = true)
  (hz6 : zeroAt rq.payload 6 2 = true) (hlo : 1 ≤ le16 rq.payload 4) (hhi : le16 rq.payload 4 ≤ 253)
  (hend : le16 rq.payload 2 + le16 rq.payload 4 ≤ 16384)
include hb hz1 hz6 hlo hhi hend

theorem traceReadBody_of_fields : traceReadBody rq s = if s.srv.traces[b].st ≠ 3 then (s, .busy, []) else
    (s, .ok, leBytes 8 s.srv.traces[b].tick ++ leBytes 2 s.srv.traces[b].trigAt ++ leBytes 2 (le16 rq.payload 4)
      ++ slice (s.srv.traces[b].samples.reverse.flatMap fun v => leBytes 4 (unsext 32 v)) (4 * le16 rq.payload 2)
        (4 * le16 rq.payload 4)) := by
  obtain rfl : Fin.ofNat 8 (byteAt rq.payload 0) = b := by rw [hb, Fin.ofNat_val_eq_self]
  have hlt : byteAt rq.payload 0 < 8 := hb ▸ Fin.isLt _
  have hmost : ¬(if portLimit rq.port = 1024 then 253 else 1021) < le16 rq.payload 4 := by
    split <;> omega
  rw [traceReadBody]
  refine if_neg ?_
  simp only [hz1, hz6, Bool.not_true, Bool.false_eq_true, false_or, hmost]
  omega

end

/-- Settles O39: the tick by its loops, the deadline by the waiting sample, then the bodies of the trace commands. -/
theorem ticksSamplesAndTraces : Obligations.TicksSamplesAndTraces := by
  refine ⟨fun t i s => exec_servoTick_of_running t i, ?stopped,
    fun t n x r s => exec_loopSampleDeadline_of_sample t true,
    fun t n x r s => exec_loopSampleDeadline_of_sample t false, ?missed,
    fun t n d s => exec_loopSampleDeadline_of_none t d, fun n x s => sampleDone_of_no_data s, ?arm, ?busy, ?read⟩
  case stopped =>
    intro t i s h
    refine if_pos ?_
    rw [State_at_srv, h]
    rfl
  case missed =>
    intro n s hty hrun
    obtain ⟨a, f, hmarked⟩ := markFlags_loop_self n 128 s
    rw [sampleMissed_loops hty hrun, updWith_self, hmarked]
    exact ⟨rfl, rfl, rfl⟩
  case arm =>
    intro t rq b n s hserves hb hn hnode htrigger hpre hevent hzero hlevel
    exact ⟨_, congrArg Host.Outcome.next (serve_of_answer hserves
      (traceArmBody_of_first _ hb hn hnode htrigger hpre hevent hzero hlevel)), rfl, rfl, rfl, rfl, rfl, rfl⟩
  case busy =>
    intro t rq b s hserves hb hz1 hz6 hlo hhi hend hst
    exact congrArg Host.Outcome.next (serve_of_answer hserves
      ((traceReadBody_of_fields _ hb hz1 hz6 hlo hhi hend).trans (if_pos hst)))
  case read =>
    intro t rq b s hserves hb hz1 hz6 hlo hhi hend hst
    refine ⟨_, congrArg Host.Outcome.next (serve_of_answer hserves
      ((traceReadBody_of_fields _ hb hz1 hz6 hlo hhi hend).trans (if_neg (not_not_intro hst)))), ?_⟩
    simp only [List.append_assoc]
    exact List.take_left' (leBytes_length ..)

/-! ## LOOP_CONFIGURE, LOOP_BANK_WRITE and LOOP_BANK_SWAP (R308, R310, R312, R518) -/

/-- A loop after an accepted LOOP_BANK_SWAP. -/
def swapAsked (l : Loop) : Loop :=
  if l.mode = .off then { l with live := other l.live, swapAt := none } else { l with swapAt := some 0 }

section
variable {rq : Req} {n : Fin 64} {s : State} (hn : byteAt rq.payload 0 = n.val)
include hn

theorem loopConfigureBody_of_valid {c : BitVec 64} {v : Vector Loop 64} (hzero : zeroAt rq.payload 1 3 = true)
    (hc : leNat (slice rq.payload 4 8) = c.toNat) (hok : cfgOk c = true) (hoff : s.srv.loops[n].mode = .off)
    (hv : (updWith s.srv.loops n fun l => { zeroLoop l with cfg := c }) = v) (halloc : allocationOk v n = true)
    (hlife : s.otp.lifecycle ≠ 3) (hload : (Frac.ofNat 1000).lt (srvLoad v) = false) :
    loopConfigureBody rq s = (setSrv (fun x => { x with loops := v }) s, .ok, leBytes 2 (srvLoadWord v)) := by
  obtain rfl : Fin.ofNat 64 (byteAt rq.payload 0) = n := by rw [hn, Fin.ofNat_val_eq_self]
  have hlt : byteAt rq.payload 0 < 64 := hn ▸ Fin.isLt _
  rw [loopConfigureBody, hc, BitVec.ofNat_toNat, BitVec.setWidth_eq]
  dsimp only
  rw [hv, if_neg (by rw [hzero, hok]; simpa using hlt), if_neg (not_not_intro hoff), halloc, if_neg (by decide),
    if_neg (fun h => hlife h.1), hload]
  rfl

theorem loopBankWriteBody_of_valid (hzero : zeroAt rq.payload 1 3 = true) (hty : s.srv.loops[n].ty ≠ 0)
    (hcolour : s.srv.loops[n].ty ≠ 6) (hok : bankFieldsOk s s.srv.loops[n] (slice rq.payload 4 112) = true)
    (hfree : armedLoop s n = false) (hlife : s.otp.lifecycle ≠ 3) :
    loopBankWriteBody rq s = (setLoop n (fun l => { l with
      banks := upd l.banks (other l.live) (some (slice rq.payload 4 112)) }) s, .ok, []) := by
  obtain rfl : Fin.ofNat 64 (byteAt rq.payload 0) = n := by rw [hn, Fin.ofNat_val_eq_self]
  have hlt : byteAt rq.payload 0 < 64 := hn ▸ Fin.isLt _
  rw [loopBankWriteBody, if_neg hty, if_neg hcolour, hok, if_neg (by rw [hzero]; simpa using hlt), hfree,
    if_neg (by decide), if_neg (fun h => hlife h.1)]

theorem loopBankSwapBody_of_filled (hzero : zeroAt rq.payload 1 3 = true) (hpwr : s.hth.pwr ≠ .standby) {b : Bank}
    (hbank : s.srv.loops[n].banks[other s.srv.loops[n].live] = some b) (hfree : armedLoop s n = false) :
    loopBankSwapBody rq s = (setLoop n (fun _ => swapAsked s.srv.loops[n]) s, .ok, []) := by
  obtain rfl : Fin.ofNat 64 (byteAt rq.payload 0) = n := by rw [hn, Fin.ofNat_val_eq_self]
  have hlt : byteAt rq.payload 0 < 64 := hn ▸ Fin.isLt _
  have hpre : loopSwapPre rq s = none := if_neg (by rw [hzero]; simpa using hlt)
  rw [loopBankSwapBody, hpre]
  dsimp only
  rw [deferrable, if_neg hpwr, loopSwapRun, hbank, Option.isNone_some, if_neg Bool.false_ne_true, hfree,
    if_neg (by decide), swapAsked]
  split <;> rfl

/-! ## LOOP_MODE (R314, R518) -/

theorem loopModeBody_of_bankless (hmode : byteAt rq.payload 1 = 1 ∨ byteAt rq.payload 1 = 2)
    (hmv : byteAt rq.payload 2 = 0) (hzero : zeroAt rq.payload 3 1 = true) (hman : le32 rq.payload 4 = 0)
    (hbank : s.srv.loops[n].banks[s.srv.loops[n].live] = none) : loopModeBody rq s = (s, .wrongState, []) := by
  obtain rfl : Fin.ofNat 64 (byteAt rq.payload 0) = n := by rw [hn, Fin.ofNat_val_eq_self]
  have hlt : byteAt rq.payload 0 < 64 := hn ▸ Fin.isLt _
  rw [loopModeBody, if_neg (by rw [hzero, hmv, hman]; obtain h | h := hmode <;> rw [h] <;> simpa using hlt), hbank]
  obtain h | h := hmode <;> rw [h] <;> rfl

theorem loopModeBody_of_off (hmode : byteAt rq.payload 1 = 0) (hmv : byteAt rq.payload 2 = 0)
    (hzero : zeroAt rq.payload 3 1 = true) (hman : le32 rq.payload 4 = 0) (hstopped : s.srv.running = false) :
    loopModeBody rq s = (setLoop n (fun l => { l with
      mode := .off, held := .off, man := s.srv.loops[n].uOut }) s, .ok, []) := by
  obtain rfl : Fin.ofNat 64 (byteAt rq.payload 0) = n := by rw [hn, Fin.ofNat_val_eq_self]
  have hlt : byteAt rq.payload 0 < 64 := hn ▸ Fin.isLt _
  rw [loopModeBody, if_neg (by rw [hzero, hmv, hman, hmode]; simpa using hlt), hmode, hmv, if_neg (by simp), hstopped]
  rfl

end

/-! ## The flags of a loop (R6, R328) -/

theorem loopFlagWrite_of_reserved (n : Fin 64) {v : Word} (s : State) (h : 256 ≤ v.toNat) :
    loopFlagWrite n v s = (.badParam, s) :=
  if_pos h

/-- A flag stays unless its bit is written 1 and hardware does not set it in the same cycle. -/
def flagStays (now : Time) (v : Word) (l : Loop) (i : Nat) : Bool :=
  !wb v i || (l.flagAt == some now && l.flagNow.toNat.testBit i)

theorem loopFlagWrite_of_flags (n : Fin 64) {v : Word} (s : State) (h : v.toNat < 256) :
    loopFlagWrite n v s = (.ok, setLoop n (fun l => { l with
      miss := l.miss && flagStays s.now v l 7, satArith := l.satArith && flagStays s.now v l 6
      satI := l.satI && flagStays s.now v l 5, satOut := l.satOut && flagStays s.now v l 4
      bump := l.bump && flagStays s.now v l 3, fe := l.fe && flagStays s.now v l 2
      plaus := l.plaus && flagStays s.now v l 1, gLimit := l.gLimit && flagStays s.now v l 0 }) s) :=
  if_neg h.not_ge

theorem wb_eq_getLsbD (v : Word) (i : Nat) : wb v i = v.getLsbD i :=
  (Nat.testBit_eq_decide_div_mod_eq ..).symm

theorem flagStays_of_quiet {now : Time} (v : Word) {l : Loop} (i : Nat) (h : l.flagAt ≠ some now) :
    flagStays now v l i = !v.getLsbD i := by
  have hquiet : (l.flagAt == some now) = false := beq_eq_false_iff_ne.2 h
  rw [flagStays, hquiet, Bool.false_and, Bool.or_false, wb_eq_getLsbD]

theorem flagStays_of_set {now : Time} (v : Word) {l : Loop} {i : Nat} (h : l.flagAt = some now)
    (hi : l.flagNow.getLsbD i = true) : flagStays now v l i = true := by
  have hset : l.flagNow.toNat.testBit i = true := hi
  simp [flagStays, h, hset]

theorem exec_srvLoopFlagClear_of_rowOpen (t : Time) (n : Fin 64) (v : Word) {s : State} (hopen : rowOpen s = true) :
    exec (.srvLoopFlagClear t n v) s =
      .next { (loopFlagWrite n v (s.at t)).2 with last := (loopFlagWrite n v (s.at t)).1 } :=
  regAnswer_of_rowOpen _ (rowOpen_at s t ▸ hopen)

/-- Settles O40: the bodies of the commands by their checks, then the write of the flags. -/
theorem loopCommands : Obligations.LoopCommands := by
  refine ⟨?configure, ?write, ?swap, ?off, ?bankless, ?flags, ?sameCycle, ?reserved⟩
  case configure =>
    intro t rq n c s hserves hn hzero hc hok hoff halloc hlife hload
    exact congrArg Host.Outcome.next (serve_of_answer hserves
      (loopConfigureBody_of_valid hn hzero hc hok hoff rfl halloc hlife hload))
  case write =>
    intro t rq n s hserves hn hzero hty hcolour hok hfree hlife
    exact congrArg Host.Outcome.next (serve_of_answer hserves
      (loopBankWriteBody_of_valid hn hzero hty hcolour hok hfree hlife))
  case swap =>
    intro t rq n b s hserves hn hzero hpwr hbank hfree
    refine ⟨swapAsked s.srv.loops[n], congrArg Host.Outcome.next (serve_of_answer hserves
      (loopBankSwapBody_of_filled (s := takeReq rq (s.at t)) hn hzero hpwr hbank hfree)), ?_, ?_⟩
    · intro hoff
      rw [swapAsked, if_pos hoff]
      exact ⟨rfl, rfl⟩
    · intro hruns
      rw [swapAsked, if_neg hruns]
      exact ⟨rfl, rfl⟩
  case off =>
    intro t rq n s hserves hn hmode hmv hzero hman hstopped
    exact congrArg Host.Outcome.next (serve_of_answer hserves
      (loopModeBody_of_off hn hmode hmv hzero hman hstopped))
  case bankless =>
    intro t rq n s hserves hn hmode hmv hzero hman hbank
    exact congrArg Host.Outcome.next (serve_of_answer hserves
      (loopModeBody_of_bankless hn hmode hmv hzero hman hbank))
  case flags =>
    intro t n v s hopen hv hquiet
    have hquiet' : s.srv.loops[n].flagAt ≠ some (s.at t).now := hquiet
    rw [exec_srvLoopFlagClear_of_rowOpen t n v hopen, loopFlagWrite_of_flags n _ hv]
    refine ⟨_, rfl, ?_, ?_, rfl, rfl, rfl⟩
    · exact congrArg (s.srv.loops[n].miss && ·) (flagStays_of_quiet v 7 hquiet')
    · exact congrArg (s.srv.loops[n].plaus && ·) (flagStays_of_quiet v 1 hquiet')
  case sameCycle =>
    intro t n v s hopen hv hset hbit
    have hset' : s.srv.loops[n].flagAt = some (s.at t).now := hset
    rw [exec_srvLoopFlagClear_of_rowOpen t n v hopen, loopFlagWrite_of_flags n _ hv]
    refine ⟨_, rfl, rfl, ?_⟩
    show (updWith s.srv.loops n _)[n].miss = _
    rw [updWith_self]
    dsimp only
    rw [flagStays_of_set v hset' hbit, Bool.and_true]
  case reserved =>
    intro t n v s hopen hv
    rw [exec_srvLoopFlagClear_of_rowOpen t n v hopen, loopFlagWrite_of_reserved n _ hv]

end Sys2Proof.Machine
end

section
/-! SUPPORT. Temperature and process health (R382-R401, R523): what a declared quench leaves of the thermal record, then
the rows of the sensors, the levels and THERMAL_POLICY. -/

namespace Sys2Proof.Machine

/-! ## The thermal record through a quench (R388, R392, R395) -/

theorem raiseIf_thm (c : Bool) (id d : Nat) (s : State) : (raiseIf c id d s).thm = s.thm := by
  cases c <;> rfl

theorem judgeHolder_thm (s : State) : (judgeHolder s).thm = s.thm := by
  obtain ⟨_, _, _, _, _, h⟩ := judgeHolder_eq s
  rw [h]

theorem engineDark_thm (e : Fin 4) (s : State) : (engineDark e s).thm = s.thm := by
  simp only [engineDark, dropSteps, engChans, setTmp_thm, setScn_thm, setSwt_thm, setThrE_thm, setFrg_thm, setFrgE_thm]

theorem allDark_thm (s : State) : (allDark s).thm = s.thm := forEng_proj State.thm _ engineDark_thm s

theorem darkCause_thm (e : Fin 4) (b : Nat) (s : State) : (darkCause e b s).thm = s.thm := by
  rw [darkCause, judgeHolder_thm, engineDark_thm, setFrgE_thm]

theorem zeroOut_thm (n : Fin 64) (s : State) : (zeroOut n s).thm = s.thm := by
  rw [zeroOut]
  split <;> rfl

theorem scanLoopsHold_thm (e : Fin 4) (s : State) : (scanLoopsHold e s).thm = s.thm := by
  refine foldl_proj State.thm _ (fun a n => ?_) _ s
  dsimp only
  split
  · exact zeroOut_thm n a
  · rfl

theorem scanOff_thm (e : Fin 4) (s : State) : (scanOff e s).thm = s.thm := by
  rw [scanOff, releaseCause, setFrgE_thm, setScn_thm, exciteStop, scanLoopsHold_thm, setScn_thm]

theorem scanOffAll_thm (s : State) : (forEng scanOff s).thm = s.thm := forEng_proj State.thm _ scanOff_thm s

theorem linkOff_thm (e : Fin 4) (s : State) : (linkOff e s).thm = s.thm := by
  rw [linkOff, releaseCause, setFrgE_thm, setSwt_thm]

theorem servoStop_thm (s : State) : (servoStop s).thm = s.thm := by
  rw [servoStop]
  split
  · rfl
  · exact foldl_proj State.thm _ (fun a n => zeroOut_thm n a) _ s

theorem cmdDone_thm (k : PendKey) (st : Status) (s : State) : (cmdDone k st s).thm = s.thm := by
  obtain ⟨_, _, _, h⟩ := cmdDone_eq k st s
  rw [h]

theorem abandonTrans_thm (st : Status) (s : State) : (abandonTrans st s).thm = s.thm := by
  rw [abandonTrans]
  split
  · dsimp only
    split
    · exact cmdDone_thm ..
    · rfl
  · rfl

theorem dropDeferred_thm (s : State) : (dropDeferred s).thm = s.thm :=
  foldl_proj State.thm _ (fun _ _ => cmdDone_thm ..) _ _

theorem abortCommit_thm (s : State) : (abortCommit s).thm = s.thm := by
  rw [abortCommit]
  split <;> rfl

theorem quenchPlls_thm (s : State) : (quenchPlls s).thm = s.thm := by
  rw [quenchPlls]
  split <;> rfl

/-- What the sensors have found: the level and the readings of the die. -/
def State.sensed (s : State) : Nat × Vector Int 40 := (s.thm.level, s.thm.die)

theorem sensed_of_thm {s x : State} (h : x.thm = s.thm) : x.sensed = s.sensed :=
  congrArg (fun y : Thm => (y.level, y.die)) h

theorem raiseIf_sensed (c : Bool) (id d : Nat) (s : State) : (raiseIf c id d s).sensed = s.sensed :=
  sensed_of_thm (raiseIf_thm ..)

theorem quenchDark_sensed (s : State) : (quenchDark s).sensed = s.sensed := by
  have hstop : (quenchDark s).sensed = (setThm (fun x => { x with q := 0 }) (allDark s)).sensed :=
    sensed_of_thm (by rw [quenchDark, judgeHolder_thm, servoStop_thm, scanOffAll_thm])
  exact hstop.trans (sensed_of_thm (x := allDark s) (allDark_thm s))

theorem quenchInSafe_sensed (s : State) : (quenchInSafe s).sensed = s.sensed := by
  have hstop : (if s.hth.trans.isSome = true then
      servoStop (forEng linkOff (forEng scanOff (abandonTrans .thermalInhibit s))) else s).thm = s.thm := by
    split
    · rw [servoStop_thm, forEng_proj State.thm _ linkOff_thm, scanOffAll_thm, abandonTrans_thm]
    · rfl
  rw [quenchInSafe, sensed_of_thm (quenchPlls_thm _)]
  generalize (if s.hth.trans.isSome = true then _ else s) = s1 at hstop ⊢
  exact (sensed_of_thm hstop : s1.sensed = s.sensed)

/-- A declared quench leaves what the sensors have found. -/
theorem declareQuench_sensed (b : Bool) (c : Nat) (s : State) : (declareQuench b c s).sensed = s.sensed := by
  rw [declareQuench]
  split
  · rfl
  split
  · rw [raiseIf_sensed, raiseIf_sensed]
    rfl
  split
  · split
    · exact quenchDark_sensed _
    · rfl
  extract_lets times third s1 s2 s3 s4 s5 s6
  have hs3 : s3.sensed = s.sensed :=
    (sensed_of_thm (abortCommit_thm s2)).trans ((raiseIf_sensed ..).trans (raiseIf_sensed ..))
  have hs6 : s6.sensed = s.sensed := by
    refine (sensed_of_thm (judgeHolder_thm _)).trans (Eq.trans (b := s4.sensed) rfl (Eq.trans ?_ hs3))
    exact sensed_of_thm ((dropDeferred_thm _).trans (abandonTrans_thm ..))
  split
  · exact (quenchInSafe_sensed s3).trans hs3
  · split
    · exact (quenchDark_sensed s6).trans hs6
    · exact hs6

/-! ## TRIP and the readings of the die (R383-R388) -/

theorem forEng_darkCause_sensed (b : Nat) (s : State) : (forEng (fun e a => darkCause e b a) s).sensed = s.sensed :=
  sensed_of_thm (forEng_proj State.thm _ (fun e a => darkCause_thm e b a) s)

theorem setLevel_sensed (n : Nat) (s : State) : (setLevel n s).sensed = (n, s.thm.die) := by
  rw [setLevel, raiseIf_sensed, raiseIf_sensed, raiseIf_sensed]
  rfl

/-- A TRIP stands at level TRIP and keeps the readings. -/
theorem hardwareTrip_sensed (i : Nat) (s : State) : (hardwareTrip i s).sensed = (4, s.thm.die) := by
  rw [hardwareTrip]
  split
  next h => exact congrArg (·, s.thm.die) h
  next =>
    rw [declareQuench_sensed, forEng_darkCause_sensed]
    exact setLevel_sensed 4 s

theorem slopeCheck_die (s : State) : (slopeCheck s).thm.die = s.thm.die := by
  rw [slopeCheck]
  split
  · split
    · exact congrArg Prod.snd (declareQuench_sensed true 0x10 s)
    · rfl
  · split
    · exact congrArg Prod.snd ((declareQuench_sensed ..).trans (setLevel_sensed 3 s))
    · rfl

theorem dieRange_die (s : State) : (dieRange s).thm.die = s.thm.die := by
  refine foldl_proj (fun a : State => a.thm.die) _ (fun a i => ?_) _ s
  split <;> rfl

section
variable (t : Time) {s : State} (hruns : sensorsRun s = true)
include hruns

theorem exec_dieSensorReading_die (v : Vector Int 40) :
    ∃ x, exec (.dieSensorReading t v) s = .next x ∧ x.thm.die = v := by
  have hon : ¬(!sensorsRun (s.at t)) = true := by
    show ¬(!sensorsRun s) = true
    rw [hruns]
    decide
  have hdie := dieRange_die (setThm (fun x => { x with die := v }) (s.at t))
  show ∃ x, execDieSensorReading t v s = .next x ∧ _
  unfold execDieSensorReading
  dsimp only
  rw [if_neg hon]
  split
  · exact ⟨_, rfl, (slopeCheck_die _).trans hdie⟩
  · exact ⟨_, rfl, (congrArg Prod.snd (hardwareTrip_sensed ..)).trans hdie⟩

/-- A sample of a die sensor, with the run of samples that it ends or lengthens. -/
theorem exec_dieSensorSample_of_run (i : Fin 40) (v : Int) {n : Nat}
    (hn : (if dieWorks s i && decide (2240 ≤ v) then s.thm.tripRun[i] + 1 else 0) = n) :
    exec (.dieSensorSample t i v) s = .next (if 2 ≤ n
      then hardwareTrip i.val { s.at t with thm := { s.thm with tripRun := upd s.thm.tripRun i n } }
      else { s.at t with thm := { s.thm with tripRun := upd s.thm.tripRun i n } }) := by
  subst hn
  refine if_neg ?_
  show ¬(!sensorsRun s) = true
  rw [hruns]
  decide

end

theorem dwellDone_of_le {s : State} {d : Time} (h : d + dwell ≤ s.now) : dwellDone s (some d) = true :=
  decide_eq_true h

theorem le_now_at (t : Time) (s : State) : t ≤ (s.at t).now := Nat.le_max_right ..

theorem exec_sensorSuspectExpiry_of_due {t d : Time} {i : Fin 40} {s : State} (hsus : s.thm.suspect[i] = some d)
    (hdue : d + dwell ≤ t) : exec (.sensorSuspectExpiry t i) s = .next (dieFail i (s.at t)) := by
  refine if_pos ?_
  show dwellDone (s.at t) s.thm.suspect[i] = true
  rw [hsus]
  exact dwellDone_of_le (Nat.le_trans hdue (le_now_at t s))

theorem dieFail_failed (i : Fin 40) (s : State) :
    dieFailed (dieFail i s) i = true ∧ (dieFail i s).thm.suspect[i] = none :=
  ⟨getLsbD_or_bit s.thm.dieFailed i.isLt, upd_self ..⟩

/-! ## Levels and throttling (R387, R389, R391) -/

theorem raiseIf_eq (c : Bool) (id d : Nat) {s x : State} (h : ∃ e, x = { s with evt := e }) :
    ∃ e, raiseIf c id d x = { s with evt := e } := by
  obtain ⟨e, rfl⟩ := h
  cases c <;> exact ⟨_, rfl⟩

theorem setLevel_eq (n : Nat) (s : State) :
    ∃ e, setLevel n s = { s with thm := { s.thm with level := n }, evt := e } :=
  raiseIf_eq (s := setThm (fun x => { x with level := n }) s) _ _ _
    (raiseIf_eq _ _ _ (raiseIf_eq _ _ _ ⟨s.evt, rfl⟩))

section
variable (t : Time) {s : State} (hruns : sensorsRun s = true)
include hruns

theorem exec_levelDwellExpiry_of_running : exec (.levelDwellExpiry t) s =
    if s.thm.level < levelUp (s.at t) then
      .next (if levelUp (s.at t) = 3 then declareQuench (tpredBelow (setLevel (levelUp (s.at t)) (s.at t)) 20) 0x10
        (setLevel (levelUp (s.at t)) (s.at t)) else setLevel (levelUp (s.at t)) (s.at t))
    else .next (if levelDown (s.at t) s.thm.level < s.thm.level then setLevel (levelDown (s.at t) s.thm.level) (s.at t)
      else s.at t) := by
  refine if_neg ?_
  show ¬(!sensorsRun s) = true
  rw [hruns]
  decide

end

theorem exec_throttleHoldExpiry_of_due {t d : Time} {s : State} (hdue : s.thm.holdDue = some d) (hd : d ≤ t) :
    exec (.throttleHoldExpiry t) s = .next (dieDwells { s.at t with thm := { s.thm with holdDue := none } }) := by
  have hdue' : (s.at t).thm.holdDue = some d := hdue
  show execThrottleHoldExpiry t s = _
  unfold execThrottleHoldExpiry
  dsimp only
  rw [hdue']
  exact if_pos (Nat.le_trans hd (le_now_at t s))

/-- The throttle factor after a step. -/
def throttleNext (s : State) : Nat :=
  if 2 ≤ s.thm.level then
    (if s.thm.throttle ≤ wfl s.thm.policy 24 8 then s.thm.throttle else max (wfl s.thm.policy 24 8)
      (s.thm.throttle - 8))
  else min 256 (s.thm.throttle + 8)

theorem throttleNext_le {s : State} (h : s.thm.throttle ≤ 256) : throttleNext s ≤ 256 := by
  have hlo : wfl s.thm.policy 24 8 < 2 ^ 8 := Nat.mod_lt _ (by decide)
  rw [throttleNext]
  split
  · split
    · exact h
    · omega
  · exact Nat.min_le_left ..

theorem throttleNext_of_hot {s : State} (hlevel : 2 ≤ s.thm.level) (h : wfl s.thm.policy 24 8 + 8 ≤ s.thm.throttle) :
    throttleNext s = s.thm.throttle - 8 := by
  rw [throttleNext, if_pos hlevel, if_neg (by omega)]
  omega

/-! ## Stack sensors, NTCs and process monitors (R383, R386, R390, R400) -/

section
variable (t : Time) {s : State} (hruns : sensorsRun s = true)
include hruns

section
variable {k : Fin 2} (hsound : s.thm.stackFailed.getLsbD k.val = false)
include hsound

/-- The rows of a stack sensor stop at a sensor that has failed. -/
theorem stackSensor_runs : ¬(!sensorsRun (s.at t) || (s.at t).thm.stackFailed.toNat.testBit k.val) = true := by
  show ¬(!sensorsRun s || s.thm.stackFailed.getLsbD k.val) = true
  rw [hruns, hsound]
  decide

theorem exec_stackSensorReading_of_sound (v : Int) :
    ∃ x, exec (.stackSensorReading t k v) s = .next x ∧ x.thm.stack = upd s.thm.stack k v ∧
      x.thm.stackAt = upd s.thm.stackAt k (s.at t).now ∧ x.thm.stackLevel = upd s.thm.stackLevel k
        (max s.thm.stackLevel[k] (if 1680 < v then 2 else if 1360 < v then 1 else 0)) :=
  ⟨_, if_neg (stackSensor_runs t hruns hsound), rfl, rfl, rfl⟩

theorem exec_stackSensorTimeout_of_silent (hsilent : s.thm.stackAt[k] + 10 * ms ≤ (s.at t).now) :
    ∃ x, exec (.stackSensorTimeout t k) s = .next x ∧ x.thm.stackFailed =
      s.thm.stackFailed ||| BitVec.ofNat 2 (2 ^ k.val) ∧ x.thm.stackLevel = upd s.thm.stackLevel k 2 := by
  refine ⟨_, if_neg ?_, rfl, rfl⟩
  rw [Bool.or_eq_true, decide_eq_true_eq]
  exact not_or.2 ⟨stackSensor_runs t hruns hsound, Nat.not_lt.2 hsilent⟩

theorem exec_stackLevelDwellExpiry_of_due {d : Time} (hbelow : s.thm.stackBelow[k].1 = some d)
    (hdue : d + dwell ≤ t) :
    ∃ x, exec (.stackLevelDwellExpiry t k) s = .next x ∧ x.thm.stackLevel = upd s.thm.stackLevel k 0 := by
  have hdone : dwellDone (s.at t) (s.at t).thm.stackBelow[k].1 = true := by
    show dwellDone (s.at t) s.thm.stackBelow[k].1 = true
    rw [hbelow]
    exact dwellDone_of_le (Nat.le_trans hdue (le_now_at t s))
  refine ⟨_, if_neg (stackSensor_runs t hruns hsound), ?_⟩
  exact congrArg (upd s.thm.stackLevel k ·) (if_pos hdone)

end

theorem exec_ntcReading_of_range {m : Fin 8} {v : Int} (hsound : s.thm.ntcFailed.getLsbD m.val = false)
    (hlo : -960 ≤ v) (hhi : v ≤ 2560) : exec (.ntcReading t m v) s = .next { s.at t with thm := { s.thm with
      ntcHist := upd s.thm.ntcHist m ((v :: s.thm.ntcHist[m]).take 10)
      ntc := upd s.thm.ntc m (rdivI (sumI ((v :: s.thm.ntcHist[m]).take 10))
        ((v :: s.thm.ntcHist[m]).take 10).length) } } := by
  have hworks : ¬(!sensorsRun (s.at t) || (s.at t).thm.ntcFailed.toNat.testBit m.val) = true := by
    show ¬(!sensorsRun s || s.thm.ntcFailed.getLsbD m.val) = true
    rw [hruns, hsound]
    decide
  exact (if_neg hworks).trans (if_neg (by omega))

theorem exec_processMonitorMeasure_of_said {v : Vector Nat 8}
    (hsaid : s.thm.aged = true ∨ ∀ m : Fin 8, v[m] ≤ 4423) :
    exec (.processMonitorMeasure t v) s = .next { s.at t with thm := { s.thm with process := v } } := by
  have hon : ¬(!sensorsRun (s.at t)) = true := by
    show ¬(!sensorsRun s) = true
    rw [hruns]
    decide
  show execProcessMonitorMeasure t v s = _
  unfold execProcessMonitorMeasure
  dsimp only
  rw [if_neg hon]
  split
  next m hfind =>
    have hslow : 4423 < v[m] := by simpa using List.find?_some hfind
    exact if_pos (hsaid.resolve_right fun h => (h m).not_gt hslow)
  next => rfl

end

/-! ## THERMAL_POLICY (R401, R523) -/

theorem thermalPolicyBody_of_ok {rq : Req} (s : State) (h : policyOk (toW (le32 rq.payload 0)) = true) :
    thermalPolicyBody rq s = (setThm (fun x => { x with policy := toW (le32 rq.payload 0) }) s, .ok, []) :=
  if_pos h

theorem thermalPolicyBody_of_bad {rq : Req} (s : State) (h : policyOk (toW (le32 rq.payload 0)) = false) :
    thermalPolicyBody rq s = (s, .badParam, []) :=
  if_neg (by rw [h]; decide)

/-- Settles O52: the die sensors by the run of samples, the levels by their dwells, then the other sensors and the
command. -/
theorem sensorsAndThermalPolicy : Obligations.SensorsAndThermalPolicy := by
  refine ⟨?one, ?below, ?trip, fun t v s hruns => exec_dieSensorReading_die t hruns v,
    fun t d i s => exec_sensorSuspectExpiry_of_due, fun i s => dieFail_failed i s, ?up, ?down,
    fun n s => setLevel_eq n s, fun t d s => exec_throttleHoldExpiry_of_due, ?throttle, ?stack, ?silent, ?falls,
    fun t m v s hruns => exec_ntcReading_of_range t hruns,
    fun t v s hruns => exec_processMonitorMeasure_of_said t hruns, ?policy, ?refused⟩
  case one =>
    intro t i v s hruns hworks hhot hrun
    rw [exec_dieSensorSample_of_run t hruns i v (n := 1) (by simp [hworks, hhot, hrun])]
    rfl
  case below =>
    intro t i v s hruns hcool
    rw [exec_dieSensorSample_of_run t hruns i v (n := 0) (by simp [Int.not_le.2 hcool])]
    rfl
  case trip =>
    intro t i v s hruns hworks hhot hrun
    refine ⟨_, exec_dieSensorSample_of_run t hruns i v (n := s.thm.tripRun[i] + 1) (by simp [hworks, hhot]), ?_⟩
    rw [if_pos (by omega)]
    exact congrArg Prod.fst (hardwareTrip_sensed ..)
  case up =>
    intro t s hruns hup hquench
    rw [exec_levelDwellExpiry_of_running t hruns, if_pos hup, if_neg hquench]
  case down =>
    intro t s hruns hup hdown
    rw [exec_levelDwellExpiry_of_running t hruns, if_neg hup.not_gt, if_pos hdown]
  case throttle =>
    intro t s hfast hle
    exact ⟨throttleNext s, if_pos hfast, throttleNext_le hle, throttleNext_of_hot, fun hcool => if_neg hcool.not_ge⟩
  case stack =>
    intro t k v s hruns hsound
    obtain ⟨x, hx, hstack, hat, hlevel⟩ := exec_stackSensorReading_of_sound t hruns hsound v
    refine ⟨x, hx, ?_⟩
    rw [hstack, hat, hlevel, upd_self, upd_self, upd_self]
    refine ⟨rfl, rfl, Nat.le_max_left .., fun h => ?_, fun h => ?_⟩
    · rw [if_pos h]
      exact Nat.le_max_right ..
    · split
      · omega
      · exact Nat.le_max_right ..
  case silent =>
    intro t k s hruns hsound hsilent
    obtain ⟨x, hx, hfailed, hlevel⟩ := exec_stackSensorTimeout_of_silent t hruns hsound hsilent
    refine ⟨x, hx, ?_⟩
    rw [hfailed, hlevel, upd_self]
    exact ⟨getLsbD_or_bit _ k.isLt, rfl⟩
  case falls =>
    intro t d k s hruns hsound hbelow hdue
    obtain ⟨x, hx, hlevel⟩ := exec_stackLevelDwellExpiry_of_due t hruns hsound hbelow hdue
    exact ⟨x, hx, by rw [hlevel, upd_self]⟩
  case policy =>
    intro t rq s hserves hok
    exact congrArg Host.Outcome.next (serve_of_answer hserves (thermalPolicyBody_of_ok _ hok))
  case refused =>
    intro t rq s hserves hbad
    exact congrArg Host.Outcome.next (serve_of_answer hserves (thermalPolicyBody_of_bad _ hbad))

end Sys2Proof.Machine
end

section
/-! SUPPORT. Self-test and repair (R418-R433, R484-R486, R526, R527): the march's slices and passes, starvation,
BIST_RUN with its ends, BIST_RESULT and the repair record. -/

namespace Sys2Proof.Machine

/-! ## The march (R421-R424) -/

theorem slotTaken_starved (a : Nat) (s : State) : (slotTaken a s).bst.starved.contains a = false := by
  show (s.bst.starved.filter (· != a)).contains a = false
  simp

theorem exec_marchSliceStart_of_idle (t : Time) {i n : Nat} {s : State} (hi : slicesOf i ≠ 0)
    (hasked : (wb s.bst.config 0 || s.bst.asked.contains i) = true) (hstate : marchState (s.at t) i = true)
    (hruns : instRuns (s.at t) i = true) (hfree : s.bst.slice = none) (hidle : 16 ≤ n) :
    exec (.marchSliceStart t i n true) s = .next (slotTaken (0x100 + i) (setBst (fun b => { b with
      slice := some i
      march := if (passOf s i).isSome then b.march else b.march ++ [{ inst := i, began := (s.at t).now }] })
      (s.at t))) := by
  have hleast : ¬n < if s.bst.starved.contains (0x100 + i) = true then 4 else 16 := by
    split <;> omega
  refine if_neg ?_
  show ¬(slicesOf i = 0 || !((wb s.bst.config 0 || s.bst.asked.contains i) && marchState (s.at t) i &&
    instRuns (s.at t) i) || s.bst.slice.isSome || (isFifo i && !true) ||
    decide (n < if s.bst.starved.contains (0x100 + i) = true then 4 else 16)) = true
  rw [hasked, hstate, hruns, hfree, decide_eq_false hi, decide_eq_false hleast, Bool.not_true, Bool.and_false]
  decide

theorem exec_marchSliceStart_of_busy (t : Time) (i n : Nat) (b : Bool) {s : State} (h : s.bst.slice.isSome = true) :
    exec (.marchSliceStart t i n b) s = .next (s.at t) := by
  refine if_pos ?_
  simp [h]

/-- A pass that a start begins or goes on with is under way. -/
theorem passOf_of_begun {s x : State} {i : Nat} {now : Time} (h : x.bst.march =
    if (passOf s i).isSome then s.bst.march else s.bst.march ++ [{ inst := i, began := now }]) :
    (passOf x i).isSome = true := by
  rw [passOf, h]
  split
  next hpass => exact hpass
  next => simp

theorem exec_marchSliceComplete_of_more (t : Time) {i : Nat} (v : Nat) {m : March} {s : State}
    (hpass : passOf s i = some m) (hslice : s.bst.slice = some i) (hmore : m.done + 1 < slicesOf i) :
    exec (.marchSliceComplete t i v v none) s = .next { s.at t with bst := { s.bst with
      slice := none
      march := s.bst.march.map fun x => if x.inst = i then { m with done := m.done + 1 } else x } } := by
  have hpass' : passOf (s.at t) i = some m := hpass
  have hslice' : ¬(s.at t).bst.slice ≠ some i := not_not_intro hslice
  show execMarchSliceComplete t i v v none s = _
  unfold execMarchSliceComplete
  dsimp only
  rw [hpass']
  dsimp only
  rw [if_neg hslice', if_neg hmore.not_ge, bne_self_eq_false, Bool.or_false]
  rfl

theorem sliceAbandon_slice (s : State) : (sliceAbandon s).bst.slice = none := by
  rw [sliceAbandon]
  split
  next h => exact h
  next => rfl

theorem exec_passLimitExpiry_of_due {t : Time} {i : Nat} {m : March} {s : State} (hpass : passOf s i = some m)
    (hslice : s.bst.slice = none) (hdue : m.began + wfl s.bst.config 16 8 * sec ≤ t) :
    exec (.passLimitExpiry t i) s = .next (passEnds m false (s.at t)) := by
  have hpass' : passOf (s.at t) i = some m := hpass
  have hslice' : ¬(s.at t).bst.slice = some i := by
    show ¬s.bst.slice = some i
    rw [hslice]
    exact Option.some_ne_none i ∘ Eq.symm
  have hdue' : ¬(s.at t).now < m.began + wfl (s.at t).bst.config 16 8 * sec :=
    Nat.not_lt.2 (Nat.le_trans hdue (le_now_at t s))
  show execPassLimitExpiry t i s = _
  unfold execPassLimitExpiry
  dsimp only
  rw [hpass']
  dsimp only
  rw [if_neg hdue', if_neg hslice']

/-- The end of a pass takes it from the march and leaves the slice in progress. -/
theorem passEnds_march_slice (m : March) (w : Bool) (s : State) :
    (passEnds m w s).bst.march = s.bst.march.filter (fun x => x.inst != m.inst) ∧
    (passEnds m w s).bst.slice = s.bst.slice := by
  rw [passEnds]
  split
  · exact ⟨rfl, rfl⟩
  · split <;> exact ⟨rfl, rfl⟩

theorem passOf_passEnds (m : March) (w : Bool) (s : State) : passOf (passEnds m w s) m.inst = none := by
  rw [passOf, (passEnds_march_slice m w s).1]
  simp

/-! ## Starvation (R484-R486) -/

theorem starveMax_port {a : Nat} (hlo : 12 ≤ a) (hhi : a < 16) : starveMax a = some (50 * ms) :=
  if_pos ⟨hlo, hhi⟩

theorem starveMax_march {a : Nat} (hslices : slicesOf (a - 0x100) ≠ 0) (ha : 0x100 ≤ a) :
    starveMax a = some (100 * ms) := by
  rw [starveMax, if_neg (by omega), if_pos ⟨ha, hslices⟩]

/-- Another activity's slot leaves a starved one waiting. -/
theorem portSlot_starved {p a : Nat} (s : State) (h : a ≠ p) :
    (portSlot p s).bst.starved.contains a = s.bst.starved.contains a := by
  rw [portSlot]
  split
  · show (s.bst.starved.filter (· != p)).contains a = _
    rw [Bool.eq_iff_iff]
    simp [h]
  · rfl

/-- The ports of the Granary take no slot of the march or of a Temper quantity. -/
theorem portSlots_starved {a : Nat} (s : State) (h : 0x100 ≤ a) :
    (portSlots s).bst.starved.contains a = s.bst.starved.contains a := by
  rw [portSlots, List.foldl_map]
  exact foldl_proj (fun x : State => x.bst.starved.contains a) _
    (fun x k => portSlot_starved x (by omega)) _ s

theorem exec_starvationExpiry_of_none (t : Time) {a : Nat} {s : State} (h : starveMax a = none) :
    exec (.starvationExpiry t a) s = .next (starveTick (s.at t)) := by
  show execStarvationExpiry t a s = _
  unfold execStarvationExpiry
  dsimp only
  rw [h]

theorem exec_starvationExpiry_of_some (t : Time) {a m : Nat} {s : State} (h : starveMax a = some m) :
    exec (.starvationExpiry t a) s = if (look (starveTick (s.at t)).bst.starving a).getD 0 < m ∨
        (starveTick (s.at t)).bst.starved.contains a = true then .next (starveTick (s.at t))
      else .next (portSlots (setBst (fun b => { b with starved := b.starved ++ [a] }) (starveTick (s.at t)))) := by
  show execStarvationExpiry t a s = _
  unfold execStarvationExpiry
  dsimp only
  rw [h]

theorem exec_starvationExpiry_waits (t : Time) {a m : Nat} {s : State} (h : starveMax a = some m) (ha : 0x100 ≤ a)
    (hlong : m ≤ (look (starveTick (s.at t)).bst.starving a).getD 0) :
    ∃ x, exec (.starvationExpiry t a) s = .next x ∧ x.bst.starved.contains a = true := by
  rw [exec_starvationExpiry_of_some t h]
  generalize starveTick (s.at t) = y at hlong ⊢
  split
  next hstays => exact ⟨y, rfl, hstays.resolve_left hlong.not_gt⟩
  next =>
    refine ⟨_, rfl, (portSlots_starved _ ha).trans ?_⟩
    show (y.bst.starved ++ [a]).contains a = true
    simp

/-! ## BIST_RUN and its ends (R418, R432, R526) -/

theorem bit_zero_left (i : Nat) : bit 0 i = false := by
  simp [bit]

section
variable {rq : Req} (s : State)

theorem bistRunBody_of_undefined (h : byteAt rq.payload 0 = 0 ∨ 6 < byteAt rq.payload 0) :
    bistRunBody rq s = (s, .badParam, []) :=
  if_pos (h.imp_right .inl)

theorem bistRunBody_of_destructive (hlo : 2 ≤ byteAt rq.payload 0) (hhi : byteAt rq.payload 0 ≤ 4)
    (hzero : zeroAt rq.payload 1 3 = true) (hmask : leNat (slice rq.payload 4 8) = 0) : bistRunBody rq s =
      (if byteAt rq.payload 0 = 4 then setGrn (fun g => { g with spoilt := some s.free })
          (setBst (fun b => { b with run := some (byteAt rq.payload 0, reqKey rq) }) s).fresh.2
        else setBst (fun b => { b with run := some (byteAt rq.payload 0, reqKey rq) }) s, .pending, []) := by
  have hnamed : (List.range 64).filter (fun i => bit 0 i) = [] := by simp [bit_zero_left]
  have hok : ¬(byteAt rq.payload 0 = 0 ∨ 6 < byteAt rq.payload 0 ∨ (!true) = true ∨ (byteAt rq.payload 0 ≠ 1 ∧ 0 ≠ 0) ∨
      ([] : List Nat).any (fun i => slicesOf i == 0) = true) := by
    simp only [Bool.not_true, Bool.false_eq_true, List.any_nil, or_false, ne_eq, not_true_eq_false, and_false]
    omega
  rw [bistRunBody, hmask]
  dsimp only
  rw [hzero, hnamed, if_neg hok, if_neg (by omega), if_neg (by omega)]

end

theorem foldl_raise_bst_hth_flash (l : List Nat) (id : Nat) (s : State) :
    ((l.foldl (fun a i => raise id i a) s).bst, (l.foldl (fun a i => raise id i a) s).hth,
      (l.foldl (fun a i => raise id i a) s).flash) = (s.bst, s.hth, s.flash) :=
  foldl_proj (fun x : State => (x.bst, x.hth, x.flash)) (fun a i => raise id i a) (fun _ _ => rfl) l s

/-- The record's write, with its read-back, leaves the kind that runs and the Hearth's record. -/
theorem repairWrite_run_hth (ok : Bool) (s : State) :
    ((repairWrite ok s).bst.run, (repairWrite ok s).hth) = (s.bst.run, s.hth) := by
  cases ok with
  | false => rfl
  | true => exact congrArg (fun p : Bst × Hth × Flash => (p.1.run, p.2.1)) (foldl_raise_bst_hth_flash ..)

/-- A destructive kind that ends is over, with the reset 10 ms away. -/
theorem destructiveEnds_run_resetDue (k : Nat) (key : PendKey) (ok : Bool) (f g : List (Nat × Nat × Nat × Nat))
    (s : State) : (destructiveEnds k key ok f g s).bst.run = none ∧
      (destructiveEnds k key ok f g s).hth.resetDue = some (s.now + 10 * ms) := by
  have hdone : ∀ (st : Status) (x : State), (cmdDone key st x).bst.run = x.bst.run ∧
      (cmdDone key st x).hth.resetDue = x.hth.resetDue := fun st x => by
    obtain ⟨_, _, _, h⟩ := cmdDone_eq key st x
    rw [h]
    exact ⟨rfl, rfl⟩
  rw [destructiveEnds]
  split
  · obtain ⟨hrun, hdue⟩ := hdone .thermalInhibit (setHth (fun h => { h with resetDue := some (s.now + 10 * ms) })
      (setBst (fun b => { b with run := none }) s))
    exact ⟨hrun, hdue⟩
  · dsimp only
    rw [(hdone ..).1, (hdone ..).2]
    have hwrite := fun x => repairWrite_run_hth ok x
    refine ⟨(congrArg Prod.fst (hwrite _)).trans rfl, ?_⟩
    exact (congrArg (fun p : Option (Nat × PendKey) × Hth => p.2.resetDue) (hwrite _)).trans rfl

theorem fuseRepair_of_ok (key : PendKey) (s : State) : (fuseRepair key true s).hth = s.hth ∧
    (fuseRepair key true s).otp.fusedRepairs = s.otp.fusedRepairs ++ s.bst.applied ∧
    (fuseRepair key true s).bst.applied = [] := by
  rw [fuseRepair, if_neg (by decide)]
  dsimp only
  obtain ⟨_, _, _, h⟩ := cmdDone_eq key .ok _
  rw [h]
  exact ⟨rfl, rfl, rfl⟩

section
variable (t : Time) {k : Nat} {key : PendKey} (ok : Bool) (f g : List (Nat × Nat × Nat × Nat)) {s : State}
  (hrun : s.bst.run = some (k, key))
include hrun

theorem exec_bistRunComplete_of_run : exec (.bistRunComplete t ok f g) s =
    if k = 5 then .next (fuseRepair key ok (s.at t)) else if k = 6 then .next (hbmPpr key g (s.at t))
    else .next (destructiveEnds k key ok f g (s.at t)) := by
  have hrun' : (s.at t).bst.run = some (k, key) := hrun
  show execBistRunComplete t ok f g s = _
  unfold execBistRunComplete
  dsimp only
  rw [hrun']

end

/-! ## BIST_RESULT and the repair record (R430, R527) -/

theorem resultBytes_length (s : State) (i : Nat) : (resultBytes s i).length = 16 := leBytes_length ..

theorem flatten_map_length {α β : Type} (f : α → List β) {n : Nat} (l : List α) (h : ∀ a, (f a).length = n) :
    (l.map f).flatten.length = n * l.length := by
  induction l with
  | nil => rfl
  | cons a l ih =>
    rw [List.map_cons, List.flatten_cons, List.length_append, h, ih, List.length_cons, Nat.mul_succ, Nat.add_comm]

theorem bistResultBody_of_count {rq : Req} (s : State) (hlo : 1 ≤ byteAt rq.payload 1) (hhi : byteAt rq.payload 1 ≤ 64)
    (hzero : zeroAt rq.payload 2 2 = true) :
    ∃ p, bistResultBody rq s = (s, .ok, p) ∧ p.length ≤ 16 * byteAt rq.payload 1 := by
  refine ⟨_, if_neg ?_, ?_⟩
  · simp only [hzero, Bool.not_true, Bool.false_eq_true, or_false]
    omega
  · rw [flatten_map_length _ _ (resultBytes_length s)]
    exact Nat.mul_le_mul_left _ (List.length_take_le ..)

theorem exec_repairRecordWrite_of_due (t : Time) {d : Time} {s : State} (hdue : s.bst.repairDue = some d)
    (hfails : s.bst.writeFails < 3) (hstill : s.hth.trans = none) (hfree : writeRefused (s.at t) = none) (ok : Bool) :
    exec (.repairRecordWrite t ok) s = .next (repairWrite ok (s.at t)) := by
  have hruns : ¬((s.at t).bst.repairDue.isNone = true ∨ 3 ≤ (s.at t).bst.writeFails ∨
      (s.at t).hth.trans.isSome = true) := by
    show ¬(s.bst.repairDue.isNone = true ∨ 3 ≤ s.bst.writeFails ∨ s.hth.trans.isSome = true)
    rw [hdue, hstill]
    simpa using hfails
  show execRepairRecordWrite t ok s = _
  unfold execRepairRecordWrite
  dsimp only
  rw [if_neg hruns, hfree]

theorem repairWrite_of_match (s : State) : (repairWrite true s).bst.newest = some (repairTarget s) ∧
    (repairWrite true s).bst.writeFails = 0 ∧
    (repairWrite true s).flash.repair[repairTarget s] = some (repairImage s) := by
  rw [repairWrite, if_pos rfl]
  dsimp only
  generalize hx : setBst _ _ = x
  have h := foldl_raise_bst_hth_flash (newlyPending s) evBstRepairPending x
  subst hx
  refine ⟨congrArg (fun p : Bst × Hth × Flash => p.1.newest) h,
    congrArg (fun p : Bst × Hth × Flash => p.1.writeFails) h,
    (congrArg (fun p : Bst × Hth × Flash => p.2.2.repair[repairTarget s]) h).trans (upd_self ..)⟩

theorem repairWrite_of_mismatch (s : State) : (repairWrite false s).bst.writeFails = s.bst.writeFails + 1 ∧
    (repairWrite false s).bst.newest = s.bst.newest ∧ (repairWrite false s).flash.repair[repairTarget s] = none :=
  ⟨rfl, rfl, upd_self ..⟩

/-- Settles O54: the march, starvation, then BIST_RUN with its ends and the repair record. -/
theorem selfTestAndRepair : Obligations.SelfTestAndRepair := by
  refine ⟨?start, fun t i n b s => exec_marchSliceStart_of_busy t i n b,
    fun t i v m s => exec_marchSliceComplete_of_more t v, ?abort, fun t i m s => exec_passLimitExpiry_of_due,
    fun t a m s hmax ha hlong _ => exec_starvationExpiry_waits t hmax ha hlong, ?early,
    fun t a s => exec_starvationExpiry_of_none t, fun a => ⟨starveMax_port, starveMax_march⟩,
    fun m w s => ⟨passOf_passEnds m w s, (passEnds_march_slice m w s).2⟩, ?runs, ?hbmFull, ?undefined, ?destructive,
    ?fused, ?result,
    fun t d s hdue hfails hstill hfree => exec_repairRecordWrite_of_due t hdue hfails hstill hfree true,
    repairWrite_of_match, repairWrite_of_mismatch⟩
  case start =>
    intro t i n s hi hasked hstate hruns hfree hidle
    exact ⟨_, exec_marchSliceStart_of_idle t hi hasked hstate hruns hfree hidle, rfl,
      passOf_of_begun (s := s) (now := (s.at t).now) rfl, slotTaken_starved ..⟩
  case abort =>
    intro t i s hslice
    exact ⟨if_pos hslice, sliceAbandon_slice _⟩
  case early =>
    intro t a m s hmax hshort
    rw [exec_starvationExpiry_of_some t hmax, if_pos (.inl hshort)]
  case runs =>
    intro t rq s hserves hlo hhi hzero hmask
    have hbody := bistRunBody_of_destructive (takeReq rq (s.at t)) hlo (by omega) hzero hmask
    rw [if_neg (by omega)] at hbody
    exact congrArg Host.Outcome.next (serve_of_answer hserves hbody)
  case hbmFull =>
    intro t rq s hserves hkind hzero hmask
    have hbody := bistRunBody_of_destructive (takeReq rq (s.at t)) (by omega) (by omega) hzero hmask
    rw [if_pos hkind, hkind] at hbody
    exact congrArg Host.Outcome.next (serve_of_answer hserves hbody)
  case undefined =>
    intro t rq s hserves hkind
    exact congrArg Host.Outcome.next (serve_of_answer hserves (bistRunBody_of_undefined _ hkind))
  case destructive =>
    intro t k key b f g s hrun h5 h6
    obtain ⟨hover, hdue⟩ := destructiveEnds_run_resetDue k key b f g (s.at t)
    exact ⟨_, (exec_bistRunComplete_of_run t b f g hrun).trans ((if_neg h5).trans (if_neg h6)), hdue, hover⟩
  case fused =>
    intro t key f g s hrun
    obtain ⟨hhth, hfused, happlied⟩ := fuseRepair_of_ok key (s.at t)
    exact ⟨_, (exec_bistRunComplete_of_run t true f g hrun).trans (if_pos rfl), congrArg Hth.resetDue hhth, hfused,
      happlied⟩
  case result =>
    intro t rq s hserves hlo hhi hzero
    obtain ⟨p, hbody, hp⟩ := bistResultBody_of_count (takeReq rq (s.at t)) hlo hhi hzero
    exact ⟨p, congrArg Host.Outcome.next (serve_of_answer hserves hbody), hp⟩

end Sys2Proof.Machine
end

section
/-! SUPPORT. Brugo Link: the ports, delays and lost partners (R439-R447, R454-R456), and the barrier on the manager
and on a worker (R446, R448, R449). -/

namespace Sys2Proof.Machine

/-! ## The loss of the manager (R442, R455) -/

theorem capEvents_brg (s : State) : (capEvents s).brg = s.brg := by
  rw [capEvents]
  split <;> rfl

theorem loseRef_brg (a : Aligner) (s : State) : (loseRef a s).brg = s.brg := by
  cases a <;> rfl

theorem managerLost_brg {s : State} (hrole : s.hth.role = 2) :
    (managerLost s).brg = { s.brg with mgrLost := true } := by
  rw [managerLost]
  split
  next h =>
    have hlost : s.brg.mgrLost = true := h.resolve_left (not_not_intro hrole)
    rw [← hlost]
  next =>
    dsimp only
    rw [capEvents_brg]
    split
    · exact loseRef_brg ..
    · rfl

/-! ## Ports (R439, R440) -/

theorem exec_brugoPortUp_of_ready (t : Time) {p : Fin 2} {s : State}
    (hst : s.brg.ports[p].st = .training ∨ s.brg.ports[p].st = .down) (hpll : s.tng.pll[(2 : Fin 4)].locked = true) :
    exec (.brugoPortUp t p) s =
      .next (portsJudge (sendMsg .enumSelf (setPort p (fun x => { x with st := .up }) (s.at t)))) :=
  if_pos ⟨hst, hpll⟩

theorem portDown_of_not_up {p : Fin 2} {s : State} (h : s.brg.ports[p].st ≠ .up) : portDown p s = s :=
  if_pos h

/-- A port that goes down is trained again while the PLL of the serial links is locked. -/
theorem portDown_ports {p : Fin 2} {s : State} (h : s.brg.ports[p].st = .up) :
    (portDown p s).brg.ports = updWith s.brg.ports p fun x => { x with
      st := if s.tng.pll[(2 : Fin 4)].locked then .training else .down
      hops := none, asked := none, unacked := [] } := by
  rw [portDown, if_neg (not_not_intro h)]
  extract_lets next s1 s2
  obtain ⟨a, o, hjudge⟩ := portsJudge_brg s1
  have hs2 : s2.brg.ports = s1.brg.ports := by
    show (portsJudge s1).brg.ports = _
    rw [hjudge]
  split
  next hlost =>
    rw [managerLost_brg hlost.1]
    exact hs2
  next =>
    split
    · exact hs2
    · exact hs2

section
variable (t : Time) {p : Fin 2} {s : State}

section
variable {n k : Nat} (hup : s.brg.ports[p].st = .up) (hn : n < 256) (hk : look s.brg.ports[p].unacked n = some k)
include hup hn hk

/-- A reliable flit of an UP port that was not acknowledged, by how often it was sent. -/
theorem exec_flitResendTimeout_of_up : exec (.flitResendTimeout t p n) s =
    if 8 ≤ k then .next (portDown p (s.at t))
    else .next (setPort p (fun x => { x with unacked := put x.unacked n (k + 1) }) (s.at t)) := by
  have hsent : (look (s.at t).brg.ports[p].unacked n).getD 1 = k := by
    show (look s.brg.ports[p].unacked n).getD 1 = k
    rw [hk]
    rfl
  show execFlitResendTimeout t p n s = _
  unfold execFlitResendTimeout
  dsimp only
  rw [Nat.mod_eq_of_lt hn, hsent]
  exact if_neg (not_not_intro hup)

end

/-! ## Delay measurement (R444) -/

theorem exec_delayReqReceive_of_up (a : Time) (hup : s.brg.ports[p].st = .up) :
    exec (.delayReqReceive t p a) s = .next (sendMsg (.delayResp (s.at t).now (s.at t).now) (s.at t)) :=
  congrArg Host.Outcome.next (if_pos hup)

theorem exec_delayRespReceive_of_asked {a : Time} (b c : Time) (h : s.brg.ports[p].asked = some a) :
    exec (.delayRespReceive t p b c) s = .next (setPort p (fun x => { x with
      asked := none, delays := ((((s.at t).now - a) - (c - b)) / 2 :: x.delays).take 16 }) (s.at t)) := by
  have h' : (s.at t).brg.ports[p].asked = some a := h
  show execDelayRespReceive t p b c s = _
  unfold execDelayRespReceive
  dsimp only
  rw [h']

theorem exec_delayRespReceive_of_unasked (b c : Time) (h : s.brg.ports[p].asked = none) :
    exec (.delayRespReceive t p b c) s = .next (s.at t) := by
  have h' : (s.at t).brg.ports[p].asked = none := h
  show execDelayRespReceive t p b c s = _
  unfold execDelayRespReceive
  dsimp only
  rw [h']

end

/-- What a port does at the timer of delay measurement. -/
def askDelay (p : Fin 2) (s : State) : State :=
  if s.brg.ports[p].st = .up then sendMsg (.delayReq s.now) (setPort p (fun x => { x with asked := some s.now }) s)
  else s

theorem exec_delayMeasureTimer (t : Time) (s : State) :
    exec (.delayMeasureTimer t) s = .next (askDelay 1 (askDelay 0 (s.at t))) := rfl

theorem askDelay_now (p : Fin 2) (s : State) : (askDelay p s).now = s.now := by
  rw [askDelay]
  split <;> rfl

theorem askDelay_other {p q : Fin 2} (s : State) (h : p ≠ q) : (askDelay p s).brg.ports[q] = s.brg.ports[q] := by
  rw [askDelay]
  split
  · exact updWith_other _ _ _ _ h
  · rfl

theorem askDelay_asked (p : Fin 2) (s : State) : (askDelay p s).brg.ports[p].asked =
    if s.brg.ports[p].st = .up then some s.now else s.brg.ports[p].asked := by
  rw [askDelay]
  split
  · show (updWith s.brg.ports p _)[p].asked = _
    rw [updWith_self]
  · rfl

theorem askDelay_both (p : Fin 2) (s : State) : (askDelay 1 (askDelay 0 s)).brg.ports[p].asked =
    if s.brg.ports[p].st = .up then some s.now else s.brg.ports[p].asked := by
  match p with
  | 0 => rw [askDelay_other _ (by decide), askDelay_asked]
  | 1 => rw [askDelay_asked, askDelay_other _ (by decide), askDelay_now]

/-! ## Lost partners (R442, R447, R454, R456) -/

theorem dropMember_workers {n : Nat} {w : Worker} {s : State} (hw : w ∈ s.brg.workers) (hn : w.number = n)
    (hmember : w.member = true) : (dropMember n s).brg.workers =
      s.brg.workers.map fun w => if w.number = n then { w with member := false } else w := by
  have hany : (s.brg.workers.any fun w => w.number == n && w.member) = true :=
    List.any_eq_true.2 ⟨w, hw, by rw [hn, hmember, beq_self_eq_true]; rfl⟩
  rw [dropMember, if_pos hany]
  rfl

section
variable (t : Time) {s : State}

theorem exec_memberStatusTimeout_of_late {d : Fin 8} {w : Worker} (hrole : s.hth.role = 1) (hw : w ∈ s.brg.workers)
    (hn : w.number = d.val) (hlate : w.lastStatus + 2 * s.tng.framePeriod ≤ t) :
    exec (.memberStatusTimeout t d) s = .next (dropMember d.val (s.at t)) := by
  have hnow := decide_eq_true (Nat.le_trans hlate (le_now_at t s))
  have hany : (s.brg.workers.any fun w => w.number == d.val &&
      decide (w.lastStatus + 2 * s.tng.framePeriod ≤ (s.at t).now)) = true :=
    List.any_eq_true.2 ⟨w, hw, by rw [hn, hnow, beq_self_eq_true]; rfl⟩
  exact congrArg Host.Outcome.next (if_pos ⟨hrole, hany⟩)

theorem exec_managerLoss_of_unmarked (hrole : s.hth.role = 2) (hnumber : s.brg.numbered = true)
    (hmark : s.brg.mark = none) : exec (.managerLoss t) s = .next (managerLost (s.at t)) := by
  have hmark' : (s.at t).brg.mark = none := hmark
  show execManagerLoss t s = _
  unfold execManagerLoss
  dsimp only
  rw [hmark']
  exact congrArg Host.Outcome.next (if_pos ⟨hrole, hnumber, rfl⟩)

theorem exec_refclkMismatchCount_of_eight (hrole : s.hth.role = 2) (hbad : 8 ≤ s.brg.mismatch)
    (hrefuse : s.brg.refuse = false) : exec (.refclkMismatchCount t) s = .next (managerLost
      (raise evBrgRefclkMismatch 0 (setBrg (fun b => { b with refuse := true }) (s.at t)))) :=
  if_pos ⟨hrole, hbad, by show (!s.brg.refuse) = true; rw [hrefuse]; rfl⟩

theorem exec_mirrorMissingCount_of_three (hrole : s.hth.role = 2) (hmiss : 3 ≤ s.brg.mirrorMiss) :
    exec (.mirrorMissingCount t) s = .next (workerStale true (s.at t)) :=
  congrArg Host.Outcome.next (if_pos ⟨hrole, hmiss⟩)

end

theorem fallback_of_stale {s : State} (h : s.anv.ownerStale = true) : fallback s ≠ 0 := by
  rw [fallback, h]
  split
  · decide
  · split
    · decide
    · rw [if_pos rfl]
      decide

/-- A worker that takes its owner for stale hands the telltales to the matrix (R145). -/
theorem workerStale_anv {s : State} (h : s.anv.ownerStale = false) :
    (workerStale true s).anv.ownerStale = true ∧ (workerStale true s).anv.holderMatrix = true := by
  have hstale : (raiseIf true evAnvOwnerStale 0 (setAnv (fun a => { a with ownerStale := true }) s)).anv.ownerStale =
      true := by
    rw [raiseIf_anv]
    rfl
  rw [workerStale, if_neg (by rw [h]; decide), judgeHolder_anv_of_fallback (fallback_of_stale hstale)]
  exact ⟨hstale, rfl⟩

/-- The mirror that a manager sends. -/
def mirrorOf (s : State) : Mirror :=
  { frame := s.brg.frame + 1, states := s.anv.states.toList.map (·.toNat), blink := s.blink,
    ownerStale := s.anv.ownerStale }

theorem exec_anvilMirrorSend_of_due (t : Time) {s : State} (hrole : s.hth.role = 1) (hmembers : hasMembers s = true)
    (hdue : s.tng.frameAt + s.tng.framePeriod ≤ t + 250 * us) (hnew : s.brg.mirrorSent ≠ s.brg.frame + 1) :
    exec (.anvilMirrorSend t) s = .next (sendMsg (.mirror (mirrorOf (s.at t))) (setBrg (fun b => { b with
      mirror := some (mirrorOf (s.at t)), mirrorSent := s.brg.frame + 1 }) (s.at t))) := by
  have hnow : s.tng.frameAt + s.tng.framePeriod ≤ (s.at t).now + 250 * us :=
    Nat.le_trans hdue (Nat.add_le_add_right (le_now_at t s) _)
  refine if_pos ⟨hrole, hmembers, ?_⟩
  rw [Bool.and_eq_true]
  exact ⟨decide_eq_true hnow, bne_iff_ne.2 hnew⟩

/-- Settles O55: the ports, the delays, then each partner that falls silent. -/
theorem portsDelaysAndLostPartners : Obligations.PortsDelaysAndLostPartners := by
  refine ⟨?up, fun t p s => ⟨rfl, rfl⟩, ?down, fun p s => portDown_of_not_up, ?again, ?eighth,
    fun t a p s => exec_delayReqReceive_of_up t a, fun t a b c p s => exec_delayRespReceive_of_asked t b c,
    fun t b c p s => exec_delayRespReceive_of_unasked t b c, ?asks, ?member, ?manager, ?mismatch, ?mirror, ?sends⟩
  case up =>
    intro t p s hst hpll
    refine ⟨_, exec_brugoPortUp_of_ready t hst hpll, ?_⟩
    obtain ⟨a, o, hjudge⟩ := portsJudge_brg (sendMsg .enumSelf (setPort p (fun x => { x with st := .up }) (s.at t)))
    rw [hjudge]
    exact ⟨congrArg BrgPort.st (updWith_self ..), rfl⟩
  case down =>
    intro p s hup
    rw [portDown_ports hup, updWith_self]
  case again =>
    intro t p n k s hup hn hk hfew
    rw [exec_flitResendTimeout_of_up t hup hn hk, if_neg hfew.not_ge]
    rfl
  case eighth =>
    intro t p n k s hup hn hk hmany
    rw [exec_flitResendTimeout_of_up t hup hn hk, if_pos hmany]
  case asks =>
    intro t s
    exact ⟨_, exec_delayMeasureTimer t s, fun p => askDelay_both p (s.at t)⟩
  case member =>
    intro t d w s hrole hw hn hmember hlate
    refine ⟨_, exec_memberStatusTimeout_of_late t hrole hw hn hlate, fun v hv hd => ?_⟩
    rw [dropMember_workers (s := s.at t) hw hn hmember] at hv
    obtain ⟨u, -, rfl⟩ := List.mem_map.1 hv
    split at hd
    next h => rw [if_pos h]
    next h => exact absurd hd h
  case manager =>
    intro t s hrole hnumber hmark _
    refine ⟨_, exec_managerLoss_of_unmarked t hrole hnumber hmark, ?_⟩
    rw [managerLost_brg (s := s.at t) hrole]
  case mismatch =>
    intro t s hrole hbad hrefuse
    refine ⟨_, exec_refclkMismatchCount_of_eight t hrole hbad hrefuse, ?_⟩
    rw [managerLost_brg (s := raise evBrgRefclkMismatch 0 (setBrg (fun b => { b with refuse := true }) (s.at t))) hrole]
    exact ⟨rfl, rfl⟩
  case mirror =>
    intro t s hrole hmiss hfresh
    exact ⟨_, exec_mirrorMissingCount_of_three t hrole hmiss, workerStale_anv (s := s.at t) hfresh⟩
  case sends =>
    intro t s hrole hmembers hdue hnew
    exact ⟨mirrorOf (s.at t), exec_anvilMirrorSend_of_due t hrole hmembers hdue hnew, rfl, rfl, rfl⟩

/-! ## The barrier on the manager (R446, R448, R449) -/

theorem barrierCause_some (n r d : Nat) {x : Barrier} {s : State} (h : s.brg.barrier = some x) :
    ∃ c, (barrierCause n r d s).brg.barrier = some { x with cause := some c } := by
  rw [barrierCause, setBrg_brg, h]
  dsimp only [Option.map_some]
  cases x.cause with
  | none => exact ⟨_, rfl⟩
  | some c =>
    dsimp only
    split <;> exact ⟨_, rfl⟩

theorem barrierCancels_barrier (x : Barrier) {y : Barrier} {s : State} (h : s.brg.barrier = some y) :
    (barrierCancels x s).brg.barrier = some { y with decided := some false } := by
  have hcancel : (barrierCancels x s).brg.barrier = s.brg.barrier.map fun y => { y with decided := some false } := by
    rw [barrierCancels]
    split <;> rfl
  rw [hcancel, h]
  rfl

/-- A barrier with a cause ends in CANCEL. -/
theorem barrierDecide_of_cause {x : Barrier} {s : State} (h : s.brg.barrier = some x) (hopen : x.decided = none)
    {c : Nat × Nat × Nat} (hcause : x.cause = some c) :
    (barrierDecide s).brg.barrier = some { x with decided := some false } := by
  rw [barrierDecide, h]
  dsimp only
  rw [if_neg (by rw [hopen]; decide), if_neg (by rw [hcause]; simp)]
  exact barrierCancels_barrier x h

/-- A barrier of a commit without a cause ends in APPLY. -/
theorem barrierDecide_of_no_cause {x : Barrier} {s : State} (h : s.brg.barrier = some x) (hopen : x.decided = none)
    (hcause : x.cause = none) (hramp : x.ramp = none) :
    (barrierDecide s).brg.barrier = some { x with decided := some true } := by
  rw [barrierDecide, h]
  dsimp only
  rw [if_neg (by rw [hopen]; decide), if_pos (by rw [hcause]; rfl)]
  split
  next r hr => exact absurd (hr.symm.trans hramp) (Option.some_ne_none r)
  next =>
    show (s.brg.barrier.map fun y => { y with decided := some true }) = _
    rw [h]
    rfl

section
variable {n : Nat} {x : Barrier} {s : State} (h : s.brg.barrier = some x)
include h

section
variable (hopen : x.decided = none) (hnamed : x.named = [n]) (hvotes : x.votes = [])
include hopen hnamed hvotes

/-- The vote of the one worker that a barrier names is the last, and the barrier is decided. -/
theorem voteTake_of_only (yes : Bool) (el rs : Nat) : ∃ s1 : State,
    s1.brg.barrier = some { x with votes := [(n, yes, el, rs)] } ∧
    voteTake n x.number yes el rs s = barrierDecide (if yes then s1
      else if rs = 0x55 then barrierCause n 0x55 0 s1
      else barrierCause n 0x50 (el % 256 + rs % 256 * 256) s1) := by
  refine ⟨setBrg (fun b => { b with barrier := some { x with votes := [(n, yes, el, rs)] } }) s, rfl, ?_⟩
  rw [voteTake, h]
  dsimp only
  rw [if_neg (by simp [hopen, hnamed, hvotes]), if_pos (by simp [hnamed]), hvotes]
  rfl

theorem voteTake_yes (el rs : Nat) (hcause : x.cause = none) (hramp : x.ramp = none) :
    ∃ y, (voteTake n x.number true el rs s).brg.barrier = some y ∧ y.decided = some true := by
  obtain ⟨s1, hs1, hvote⟩ := voteTake_of_only h hopen hnamed hvotes true el rs
  rw [hvote]
  exact ⟨_, barrierDecide_of_no_cause hs1 hopen hcause hramp, rfl⟩

theorem voteTake_no (el rs : Nat) :
    ∃ y, (voteTake n x.number false el rs s).brg.barrier = some y ∧ y.decided = some false := by
  obtain ⟨s1, hs1, hvote⟩ := voteTake_of_only h hopen hnamed hvotes false el rs
  rw [hvote, if_neg Bool.false_ne_true]
  split
  · obtain ⟨c, hc⟩ := barrierCause_some n 0x55 0 hs1
    exact ⟨_, barrierDecide_of_cause hc hopen rfl, rfl⟩
  · obtain ⟨c, hc⟩ := barrierCause_some n 0x50 (el % 256 + rs % 256 * 256) hs1
    exact ⟨_, barrierDecide_of_cause hc hopen rfl, rfl⟩

/-- At the decision deadline a missing vote is a cause of its own (R449). -/
theorem exec_barrierDecisionDeadline_of_missing {t : Time} (hdue : x.applyTime ≤ t + 1200 * us) :
    exec (.barrierDecisionDeadline t) s = .next (barrierDecide (barrierCause n 0x51 0 (s.at t))) := by
  have h' : (s.at t).brg.barrier = some x := h
  have hnow : ¬(s.at t).now + 1200 * us < x.applyTime :=
    Nat.not_lt.2 (Nat.le_trans hdue (Nat.add_le_add_right (le_now_at t s) _))
  show execBarrierDecisionDeadline t s = _
  unfold execBarrierDecisionDeadline
  dsimp only
  rw [h']
  dsimp only
  rw [if_neg (not_or.2 ⟨by rw [hopen]; decide, hnow⟩), hnamed, hvotes]
  rfl

end

/-- At the second deadline the one worker that has not acknowledged, or is no member now, cancels the barrier. -/
theorem exec_barrierAckDeadline_of_missing {t : Time} (hdecided : x.decided = some true) (hnamed : x.named = [n])
    (hacks : x.acks = []) (hdue : x.applyTime ≤ t + 600 * us) : ∃ r, exec (.barrierAckDeadline t) s =
      .next (barrierCancels x (barrierCause n r 0 (s.at t))) := by
  have h' : (s.at t).brg.barrier = some x := h
  have hnow : ¬(s.at t).now + 600 * us < x.applyTime :=
    Nat.not_lt.2 (Nat.le_trans hdue (Nat.add_le_add_right (le_now_at t s) _))
  show ∃ r, execBarrierAckDeadline t s = _
  unfold execBarrierAckDeadline
  dsimp only
  rw [h']
  dsimp only
  rw [if_neg (not_or.2 ⟨not_not_intro hdecided, hnow⟩), hnamed, hacks]
  cases hmember : memberNow (s.at t) n with
  | false =>
    refine ⟨0x53, ?_⟩
    simp [hmember]
  | true =>
    refine ⟨0x52, ?_⟩
    simp [hmember]

theorem ackTake_of_first (hnamed : x.named.contains n = true) (hacks : x.acks = []) :
    ∃ y, (ackTake n x.number s).brg.barrier = some y ∧ y.acks = [n] := by
  refine ⟨{ x with acks := [n] }, ?_, rfl⟩
  rw [ackTake, setBrg_brg, h]
  dsimp only [Option.map_some]
  rw [if_pos ⟨rfl, hnamed, by rw [hacks]; rfl⟩, hacks]
  rfl

end

/-! ## The barrier on a worker (R448) -/

theorem gamutValidated_brg (b : GamutBank) (e : Fin 4) (s : State) : (gamutValidated b e s).brg = s.brg := setClw_brg ..

theorem sheafValidated_brg (d : Word) (flagged : Bool) (e : Fin 4) (s : State) :
    (sheafValidated d flagged e s).brg = s.brg := by
  rw [sheafValidated]
  split <;> rfl

theorem commitArm_brg (f : Flags) (frames : Nat) (inBarrier : Bool) (s : State) :
    (commitArm f frames inBarrier s).brg = s.brg := by
  rw [commitArm, setCmp_brg, forEng_proj State.brg _ fun e a => sheafValidated_brg ..,
    forEng_proj State.brg _ fun e a => ?_]
  split
  · exact gamutValidated_brg ..
  · rfl

section
variable {n a : Nat} {b : List Byte} {s : State} (hcommit : byteAt b 1 = 0x12)
include hcommit

theorem prepareTake_of_busy (harmed : s.cmp.armed.isSome = true) :
    prepareTake n a b s = sendMsg (.vote n false (0x80 + s.brg.devnum) 0x55) s := by
  rw [prepareTake]
  dsimp only
  rw [if_pos hcommit, if_pos harmed]

theorem prepareTake_of_valid (harmed : s.cmp.armed = none)
    (hvalid : commitReject (commitFlags (slice b 6 (le16 b 4))) s = none) :
    prepareTake n a b s = sendMsg (.vote n true 0 0) (setBrg (fun x => { x with
      mine := some { number := n, apply := a } })
      (commitArm (commitFlags (slice b 6 (le16 b 4))) (a - s.brg.frame) true s)) := by
  rw [prepareTake]
  dsimp only
  rw [if_pos hcommit, harmed, hvalid]
  rfl

end

section
variable {n : Nat} {m : MyBarrier} {s : State} (h : s.brg.mine = some m)
include h

theorem applyTake_of_first (hn : m.number = n) (happlied : m.applied = false) (hramp : m.ramp = none) :
    applyTake n s = { s with brg := { s.brg with
      sent := .ack n :: s.brg.sent, mine := some { m with applied := true } } } := by
  rw [applyTake, h]
  dsimp only
  rw [if_neg (by simp [hn, happlied]), hramp]
  rfl

theorem cancelTake_of_same (hn : m.number = n) (hramp : m.ramp = none) :
    cancelTake n s = { s with brg := { s.brg with mine := some { m with cancelled := true } } } := by
  rw [cancelTake, h]
  dsimp only
  rw [if_neg (not_not_intro hn), if_neg (by rw [hramp]; simp)]
  rfl

theorem applyTake_of_other (hn : m.number ≠ n) : applyTake n s = s := by
  rw [applyTake, h]
  exact if_pos (.inl hn)

theorem cancelTake_of_other (hn : m.number ≠ n) : cancelTake n s = s := by
  rw [cancelTake, h]
  exact if_pos hn

end

/-- Settles O57: on the manager the votes, the two deadlines and the acknowledgements; on a worker PREPARE, APPLY and
CANCEL. -/
theorem barrierOnBothSides : Obligations.BarrierOnBothSides := by
  refine ⟨?vote, ?ack, ?yes, ?no, ?decision, ?second, fun n x s h => ackTake_of_first h, ?prepare, ?ends,
    fun n a b s => prepareTake_of_busy, ?valid, fun n m s h => applyTake_of_first h,
    fun n m s h => cancelTake_of_same h, fun n m s h hn => ⟨applyTake_of_other h hn, cancelTake_of_other h hn⟩⟩
  case vote =>
    intro t f n el rs y s hheard
    exact congrArg Host.Outcome.next (receive_of_role (s := s.at t) false _ _ hheard)
  case ack =>
    intro t f n s hheard
    exact congrArg Host.Outcome.next (receive_of_role (s := s.at t) false _ _ hheard)
  case yes =>
    intro n el rs x s h hopen hcause hnamed hvotes hramp
    exact voteTake_yes h hopen hnamed hvotes el rs hcause hramp
  case no =>
    intro n el rs x s h hopen _ hnamed hvotes
    exact voteTake_no h hopen hnamed hvotes el rs
  case decision =>
    intro t n x s h hopen hnamed hvotes hdue
    obtain ⟨c, hc⟩ := barrierCause_some (s := s.at t) n 0x51 0 h
    exact ⟨_, _, exec_barrierDecisionDeadline_of_missing h hopen hnamed hvotes hdue,
      barrierDecide_of_cause hc hopen rfl, rfl⟩
  case second =>
    intro t n x s h hdecided hnamed hacks hdue
    obtain ⟨r, hr⟩ := exec_barrierAckDeadline_of_missing h hdecided hnamed hacks hdue
    obtain ⟨c, hc⟩ := barrierCause_some (s := s.at t) n r 0 h
    exact ⟨_, _, hr, barrierCancels_barrier x hc, rfl⟩
  case prepare =>
    intro t f n a b s hheard
    exact congrArg Host.Outcome.next (receive_of_role (s := s.at t) false _ _ hheard)
  case ends =>
    intro t f n s hheard
    exact ⟨congrArg Host.Outcome.next (receive_of_role (s := s.at t) false _ _ hheard),
      congrArg Host.Outcome.next (receive_of_role (s := s.at t) false _ _ hheard)⟩
  case valid =>
    intro n a b s hcommit harmed hvalid
    obtain ⟨z, hz, -⟩ := commitArm_cmp (commitFlags (slice b 6 (le16 b 4))) (a - s.brg.frame) true s
    have hbrg := commitArm_brg (commitFlags (slice b 6 (le16 b 4))) (a - s.brg.frame) true s
    rw [prepareTake_of_valid hcommit harmed hvalid]
    generalize commitArm (commitFlags (slice b 6 (le16 b 4))) (a - s.brg.frame) true s = y at hz hbrg ⊢
    have hsent : y.brg.sent = s.brg.sent := by rw [hbrg]
    have hphase : y.cmp.phase = .barrier := by rw [hz, if_pos rfl]
    have hlive : y.cmp.live = s.cmp.live := by rw [hz]
    exact ⟨congrArg (BrgMsg.vote n true 0 0 :: ·) hsent, hphase, hlive⟩

end Sys2Proof.Machine
end

section
/-! SUPPORT. Identity and life cycle (R462, R467-R470, R497): what IDENTIFY, ATTEST_CHALLENGE, LIFECYCLE_ADVANCE and
LIMITED_SETTING_WRITE answer. -/

namespace Sys2Proof.Machine

/-! ## IDENTIFY and ATTEST_CHALLENGE (R462, R497) -/

theorem padSlice_length (l : List Byte) (i n : Nat) : (padSlice l i n).length = n := by
  have hle : (slice l i n).length ≤ n := List.length_take_le ..
  rw [padSlice, List.length_append, List.length_replicate]
  exact Nat.add_sub_of_le hle

section
variable {rq : Req} (s : State)

theorem identifyBody_of_first (h : byteAt rq.payload 0 = 0) :
    ∃ p, identifyBody rq s = (s, .ok, p) ∧ p.take 16 = s.otp.uidBytes := by
  rw [identifyBody, h]
  refine ⟨_, rfl, ?_⟩
  simp only [List.append_assoc]
  exact List.take_left' (leBytes_length ..)

theorem identifyBody_of_certificate (h : byteAt rq.payload 0 = 1 ∨ byteAt rq.payload 0 = 2) :
    ∃ p, identifyBody rq s = (s, .ok, p) ∧ p.length = 512 := by
  rw [identifyBody]
  obtain h | h := h
  · rw [h]
    exact ⟨_, rfl, padSlice_length ..⟩
  · rw [h]
    exact ⟨_, rfl, padSlice_length ..⟩

theorem identifyBody_of_no_page (h : 3 ≤ byteAt rq.payload 0) : identifyBody rq s = (s, .badParam, []) := by
  obtain ⟨k, hk⟩ : ∃ k, byteAt rq.payload 0 = k + 3 := ⟨_, (Nat.sub_add_cancel h).symm⟩
  rw [identifyBody, hk]
  rfl

/-- The reply of an attestation: the signed bytes and a signature of 64. -/
theorem attestChallengeBody_signature : ∃ g, attestChallengeBody rq s =
    ({ s with free := s.free + 1 }, .ok, attestBytes rq.payload s ++ g) ∧ g.length = 64 := by
  rw [attestChallengeBody, List.append_assoc]
  refine ⟨_, rfl, ?_⟩
  rw [List.length_append, padSlice_length, padSlice_length]

/-! ## LIFECYCLE_ADVANCE (R467) -/

theorem lifecycleAdvanceBody_of_outside (h : lcAllowed s.otp.lifecycle (byteAt rq.payload 0) = false) :
    lifecycleAdvanceBody rq s = (s, .badParam, []) := by
  refine if_pos ?_
  simp only [h, Bool.not_false, or_true]

theorem lifecycleAdvanceBody_of_granted
    (hform : (byteAt rq.payload 1 = 0 ∧ rq.payload.length = 68) ∨ (byteAt rq.payload 1 = 1 ∧ rq.payload.length = 12))
    (hzero : zeroAt rq.payload 2 2 = true) (hallowed : lcAllowed s.otp.lifecycle (byteAt rq.payload 0) = true)
    (hauth : lcAuthorised s (byteAt rq.payload 0) rq.payload = true)
    (hcond : lcCondition s (byteAt rq.payload 0) = true)
    (howner : byteAt rq.payload 0 = 3 → s.otp.owner.isSome = true) (hfree : writeRefused s = none) :
    lifecycleAdvanceBody rq s = (setSec (fun x => { x with
      otpJob := some (.lifecycle (reqKey rq) (byteAt rq.payload 0)) }) s, .pending, []) := by
  have hfields : ¬((byteAt rq.payload 1 = 0 ∧ rq.payload.length ≠ 68) ∨
      (byteAt rq.payload 1 = 1 ∧ rq.payload.length ≠ 12) ∨ 2 ≤ byteAt rq.payload 1 ∨
      (!zeroAt rq.payload 2 2) = true ∨ (!lcAllowed s.otp.lifecycle (byteAt rq.payload 0)) = true) := by
    simp only [hzero, hallowed, Bool.not_true, Bool.false_eq_true, or_false]
    omega
  have howned : ¬(byteAt rq.payload 0 = 3 ∧ s.otp.owner = none) := by
    rintro ⟨h3, hnone⟩
    have hsome := howner h3
    rw [hnone] at hsome
    exact absurd hsome (by decide)
  rw [lifecycleAdvanceBody, if_neg hfields, hauth, if_neg (by decide), if_neg howned, hcond, if_neg (by decide), hfree]

/-! ## LIMITED_SETTING_WRITE (R469, R470) -/

theorem limitedSettingWriteBody_of_lifecycle (h2 : s.otp.lifecycle ≠ 2) (h3 : s.otp.lifecycle ≠ 3) :
    limitedSettingWriteBody rq s = (s, .deniedLifecycle, []) :=
  if_pos ⟨h2, h3⟩

/-- A market profile written without an owner takes the next slot of two. -/
theorem limitedSettingWriteBody_of_market (hlc : s.otp.lifecycle = 2) (howner : s.otp.owner = none)
    (hcode : byteAt rq.payload 0 = 4) (hindex : byteAt rq.payload 1 = 0) (hzero : zeroAt rq.payload 2 2 = true)
    (hleft : s.otp.market.length < 2) (hmac : slice rq.payload (rq.payload.length - 8) 8 = List.replicate 8 0)
    (hvalue : zeroAt (slice rq.payload 4 (rq.payload.length - 12)) 6 2 = true) (hfree : writeRefused s = none) :
    limitedSettingWriteBody rq s = ({ s with
      otp := { s.otp with market := s.otp.market ++
        [{ value := slice rq.payload 4 (rq.payload.length - 12), crcOk := false }] }
      sec := { s.sec with otpJob := some (.setting (reqKey rq) 4 0 (slice rq.payload 4 (rq.payload.length - 12))) } },
      .pending, []) := by
  have hslots : ¬(settingSlots s.otp 4 (Fin.ofNat 4 0)).2 ≤ (settingSlots s.otp 4 (Fin.ofNat 4 0)).1.length :=
    Nat.not_le.2 hleft
  have hok : settingOk 4 (slice rq.payload 4 (rq.payload.length - 12)) = true := hvalue
  rw [limitedSettingWriteBody]
  dsimp only
  rw [if_neg (by rw [hlc]; decide), hcode, hindex, hzero, if_neg (by decide), if_neg hslots, howner, hmac, hlc,
    if_neg (by simp), hok, if_neg (by decide), hfree]
  rfl

end

/-- A request that the power state admits and the life cycle may refuse is refused by admission or by its body. -/
theorem serve_of_lifecycle {op : Nat} {body : Req → State → Ans} {rq : Req} {s : State} (hop : rq.opcode = op)
    (hboot : s.hth.boot ≠ .hold) (hqueued : s.hst.requests.contains rq = true) (hgranted : grantedNow s = some rq)
    (hlocal : rqForward rq = false) (haccepts : s.accepts rq = true)
    (hbody : body rq (takeReq rq s) = (takeReq rq s, .deniedLifecycle, [])) :
    serve op body rq s = finishReply rq .deniedLifecycle [] (takeReq rq s) := by
  cases hlc : lcOk rq s.otp.lifecycle with
  | true =>
    have hadmits : admission s rq = none := by simp [admission, haccepts, hlc]
    exact serve_of_answer ((serves_iff ..).2 ⟨hop, hboot, hqueued, hgranted, hadmits, hlocal⟩) hbody
  | false =>
    have hrefuses : admission s rq = some .deniedLifecycle := by simp [admission, haccepts, hlc]
    rw [serve, if_neg (by simp [hop, hboot])]
    simp only [hqueued, if_true, hgranted, execute, admission_takeReq, hrefuses]

/-- Settles O58: each command by its body. -/
theorem identityAndLifecycle : Obligations.IdentityAndLifecycle := by
  refine ⟨?first, ?certificate, ?noPage, ?attest, ?outside, ?granted, ?lifecycle, ?market⟩
  case first =>
    intro t rq s hserves hpage
    obtain ⟨p, hbody, hp⟩ := identifyBody_of_first (takeReq rq (s.at t)) hpage
    exact ⟨p, congrArg Host.Outcome.next (serve_of_answer hserves hbody), hp⟩
  case certificate =>
    intro t rq s hserves hpage
    obtain ⟨p, hbody, hp⟩ := identifyBody_of_certificate (takeReq rq (s.at t)) hpage
    exact ⟨p, congrArg Host.Outcome.next (serve_of_answer hserves hbody), hp⟩
  case noPage =>
    intro t rq s hserves hpage
    exact congrArg Host.Outcome.next (serve_of_answer hserves (identifyBody_of_no_page _ hpage))
  case attest =>
    intro t rq s hserves
    obtain ⟨g, hbody, hg⟩ := attestChallengeBody_signature (rq := rq) (takeReq rq (s.at t))
    exact ⟨g, congrArg Host.Outcome.next (serve_of_answer hserves hbody), hg⟩
  case outside =>
    intro t rq s hserves hno
    exact congrArg Host.Outcome.next (serve_of_answer hserves (lifecycleAdvanceBody_of_outside _ hno))
  case granted =>
    intro t rq s hserves hform hzero hallowed hauth hcond howner hfree
    exact congrArg Host.Outcome.next (serve_of_answer hserves
      (lifecycleAdvanceBody_of_granted _ hform hzero hallowed hauth hcond howner hfree))
  case lifecycle =>
    intro t rq s hop hboot hqueued hgranted hlocal haccepts h2 h3
    exact congrArg Host.Outcome.next (serve_of_lifecycle (s := s.at t) hop hboot hqueued hgranted hlocal haccepts
      (limitedSettingWriteBody_of_lifecycle _ h2 h3))
  case market =>
    intro t rq s hserves hlc howner hcode hindex hzero hleft hmac hvalue hfree
    exact congrArg Host.Outcome.next (serve_of_answer hserves
      (limitedSettingWriteBody_of_market _ hlc howner hcode hindex hzero hleft hmac hvalue hfree))

end Sys2Proof.Machine
end

section
/-! SUPPORT. Writes of OTP and of the boot flash (R436, R467-R475, R528, R532-R534): how they begin and what their
completion leaves. -/

namespace Sys2Proof.Machine

/-! ## OTP_WRITE_COMPLETE (R467, R468, R470) -/

section
variable (t : Time) {s : State}

theorem exec_otpWriteComplete_of_none (b : Bool) (h : s.sec.otpJob = none) :
    exec (.otpWriteComplete t b) s = .next (s.at t) := by
  have h' : (s.at t).sec.otpJob = none := h
  show execOtpWriteComplete t b s = _
  unfold execOtpWriteComplete
  dsimp only
  rw [h']

theorem exec_otpWriteComplete_of_lifecycle {k : PendKey} {n : Nat} (b : Bool)
    (h : s.sec.otpJob = some (.lifecycle k n)) : exec (.otpWriteComplete t b) s =
      .next (lifecycleWritten k n b (setSec (fun x => { x with otpJob := none }) (s.at t))) := by
  have h' : (s.at t).sec.otpJob = some (.lifecycle k n) := h
  show execOtpWriteComplete t b s = _
  unfold execOtpWriteComplete
  dsimp only
  rw [h']

theorem exec_otpWriteComplete_of_setting {k : PendKey} {code index : Nat} {v : List Byte} (b : Bool)
    (h : s.sec.otpJob = some (.setting k code index v)) : exec (.otpWriteComplete t b) s =
      .next (settingWritten k code (Fin.ofNat 4 index) v b (setSec (fun x => { x with otpJob := none }) (s.at t))) := by
  have h' : (s.at t).sec.otpJob = some (.setting k code index v) := h
  show execOtpWriteComplete t b s = _
  unfold execOtpWriteComplete
  dsimp only
  rw [h']

end

/-- A state word that reads back right is all ones, and the reset is 10 ms away. -/
theorem lifecycleWritten_of_match (k : PendKey) (n : Nat) (s : State) :
    (lifecycleWritten k n true s).otp.lcWords = upd s.otp.lcWords (Fin.ofNat 5 (n - 1)) 0xFFFFFFFF ∧
    (lifecycleWritten k n true s).hth.resetDue = some (s.now + 10 * ms) ∧
    (lifecycleWritten k n true s).sec = s.sec := by
  rw [lifecycleWritten, if_pos rfl]
  dsimp only
  obtain ⟨_, _, _, h⟩ := cmdDone_eq k .ok _
  rw [h]
  exact ⟨rfl, rfl, rfl⟩

/-- A market profile that reads back right is valid in the slot it took. -/
theorem settingWritten_of_match (k : PendKey) (v : List Byte) (s : State) :
    (settingWritten k 4 0 v true s).otp = { s.otp with
      market := s.otp.market.dropLast ++ [{ value := v, crcOk := true }] } ∧
    (settingWritten k 4 0 v true s).hth = s.hth ∧ (settingWritten k 4 0 v true s).sec = s.sec := by
  rw [settingWritten, if_pos rfl]
  dsimp only
  obtain ⟨_, _, _, h⟩ := cmdDone_eq k .ok _
  rw [h]
  exact ⟨rfl, rfl, rfl⟩

theorem settingWritten_of_mismatch (k : PendKey) (code : Nat) (e : Fin 4) (v : List Byte) (s : State) :
    (settingWritten k code e v false s).otp = s.otp ∧ (settingWritten k code e v false s).sec = s.sec := by
  rw [settingWritten, if_neg Bool.false_ne_true]
  obtain ⟨_, _, _, h⟩ := cmdDone_eq k .hwFault (raise evSecOtpFail (e.val * 256 + code) s)
  rw [h]
  exact ⟨rfl, rfl⟩

/-! ## FIRMWARE_LOAD and LINK_TOPOLOGY (R436, R528, R532, R533) -/

section
variable {rq : Req} (s : State)

theorem firmwareLoadBody_of_no_image
    (h : byteAt rq.payload 0 = 0 ∨ (3 < byteAt rq.payload 0 ∧ byteAt rq.payload 0 ≠ 0x10)) :
    firmwareLoadBody rq s = (s, .badParam, []) := by
  have hnone : (byteAt rq.payload 0 == 1 || byteAt rq.payload 0 == 2 || byteAt rq.payload 0 == 3 ||
      byteAt rq.payload 0 == 0x10) = false := by
    simp only [Bool.or_eq_false_iff, beq_eq_false_iff_ne]
    omega
  refine if_pos ?_
  rw [hnone]
  rfl

/-- The first segment of a main image, with others to follow. -/
theorem firmwareLoadBody_of_first (himage : byteAt rq.payload 0 = 2) (hflags : byteAt rq.payload 1 = 1)
    (hzero : zeroAt rq.payload 2 2 = true) (hofs : le32 rq.payload 4 = 0) (hmax : le32 rq.payload 8 ≤ imageMax 2)
    (hfits : (rq.payload.drop 12).length ≤ le32 rq.payload 8) (hfree : writeRefused s = none) :
    firmwareLoadBody rq s = (slotInvalid 2 (setSec (fun x => { x with
      loads := upd x.loads (loadIx 2) none
      flashJob := some (.segment (reqKey rq)
        { image := 2, bytes := rq.payload.drop 12, total := le32 rq.payload 8 } false) }) s), .pending, []) := by
  have hbits : bit 1 0 = true ∧ bit 1 1 = false ∧ bit 1 2 = false := by decide
  obtain ⟨hfirst, hlast, hwarp⟩ := hbits
  have hform : ¬(false = true ∨ 0 ≠ ([] : List Byte).length ∨ le32 rq.payload 8 ≠ le32 rq.payload 8 ∨
      imageMax 2 < le32 rq.payload 8 ∨ le32 rq.payload 8 < 0 + (rq.payload.drop 12).length ∨
      (false = true ∧ 0 + (rq.payload.drop 12).length ≠ le32 rq.payload 8)) := by
    simp only [Bool.false_eq_true, List.length_nil, ne_eq, not_true_eq_false, false_or, false_and, or_false]
    omega
  rw [firmwareLoadBody, himage, hflags, hzero, if_neg (by decide), if_neg (by decide), imageSegment]
  dsimp only
  simp only [hflags, hfirst, hlast, hwarp, hofs, if_true]
  rw [himage, if_neg hform, hfree]
  rfl

theorem linkTopologyBody_of_bad_role (h : 4 ≤ byteAt rq.payload 0) : linkTopologyBody rq s = (s, .badParam, []) :=
  if_pos (.inl h)

theorem linkTopologyBody_of_fields (hrole : byteAt rq.payload 0 < 4) (hexpected : byteAt rq.payload 1 < 8)
    (hports : byteAt rq.payload 2 < 4) (hzero : zeroAt rq.payload 3 1 = true) (hfree : writeRefused s = none) :
    linkTopologyBody rq s = (setSec (fun x => { x with flashJob := some (.topology (reqKey rq)
      (toW (byteAt rq.payload 0 * 2 ^ 30 + byteAt rq.payload 1 * 2 ^ 27 + byteAt rq.payload 2))) }) s,
      .pending, []) := by
  have hfields : ¬(4 ≤ byteAt rq.payload 0 ∨ 8 ≤ byteAt rq.payload 1 ∨ 4 ≤ byteAt rq.payload 2 ∨
      (!zeroAt rq.payload 3 1) = true) := by
    simp only [hzero, Bool.not_true, Bool.false_eq_true, or_false]
    omega
  rw [linkTopologyBody]
  dsimp only
  rw [if_neg hfields, hfree]

end

/-- The fields of the word that LINK_TOPOLOGY stores. -/
theorem topologyWord_fields {a b c : Nat} (ha : a < 4) (hb : b < 8) (hc : c < 4) :
    wfl (toW (a * 2 ^ 30 + b * 2 ^ 27 + c)) 30 2 = a ∧ wfl (toW (a * 2 ^ 30 + b * 2 ^ 27 + c)) 27 3 = b ∧
    wfl (toW (a * 2 ^ 30 + b * 2 ^ 27 + c)) 0 2 = c := by
  have hword : (toW (a * 2 ^ 30 + b * 2 ^ 27 + c)).toNat = a * 2 ^ 30 + b * 2 ^ 27 + c := by
    rw [toW, BitVec.toNat_ofNat]
    omega
  simp only [wfl, fld, hword]
  omega

/-! ## BOOT_FLASH_WRITE_COMPLETE (R474, R475, R533, R534) -/

section
variable (t : Time) (ok : Bool) (v : Verify) (a : Option AnvSet) {s : State}

theorem exec_bootFlashWriteComplete_of_none (h : s.sec.flashJob = none) :
    exec (.bootFlashWriteComplete t ok v a) s = .next (s.at t) := by
  have h' : (s.at t).sec.flashJob = none := h
  show execBootFlashWriteComplete t ok v a s = _
  unfold execBootFlashWriteComplete
  dsimp only
  rw [h']

theorem exec_bootFlashWriteComplete_of_segment {k : PendKey} {l : Load} {last : Bool}
    (h : s.sec.flashJob = some (.segment k l last)) : exec (.bootFlashWriteComplete t ok v a) s =
      .next (segmentWritten k l last ok v a (setSec (fun x => { x with flashJob := none }) (s.at t))) := by
  have h' : (s.at t).sec.flashJob = some (.segment k l last) := h
  show execBootFlashWriteComplete t ok v a s = _
  unfold execBootFlashWriteComplete
  dsimp only
  rw [h']

theorem exec_bootFlashWriteComplete_of_topology {k : PendKey} {w : Word} (h : s.sec.flashJob = some (.topology k w)) :
    exec (.bootFlashWriteComplete t true v a) s = .next (cmdDone k .ok { s.at t with
      sec := { s.sec with flashJob := none }, flash := { s.flash with brgConfig := topologyBits w } }) := by
  have h' : (s.at t).sec.flashJob = some (.topology k w) := h
  show execBootFlashWriteComplete t true v a s = _
  unfold execBootFlashWriteComplete
  dsimp only
  rw [h']
  rfl

end

theorem imageVerifies_main (s : State) (v : Verify) (a : Option AnvSet) :
    imageVerifies s 2 v a = (v.sigOk && decide (s.otp.svnMinMain ≤ v.svn)) :=
  if_neg (by decide)

section
variable (k : PendKey) (l : Load) (last : Bool) (v : Verify) (a : Option AnvSet) (s : State)

theorem segmentWritten_of_mismatch : (segmentWritten k l last false v a s).flash = s.flash ∧
    (segmentWritten k l last false v a s).sec = s.sec := by
  rw [segmentWritten, if_pos (by decide)]
  obtain ⟨_, _, _, h⟩ := cmdDone_eq k .hwFault s
  rw [h]
  exact ⟨rfl, rfl⟩

section
variable {l} (himage : l.image = 2)
include himage

/-- A main image that verifies stands in the slot that is not active, and is pending. -/
theorem segmentWritten_of_verified (hsig : v.sigOk = true) (hsvn : s.otp.svnMinMain ≤ v.svn) :
    (segmentWritten k l true true v a s).flash = { s.flash with
      main := upd s.flash.main (other s.flash.mainActive)
        (some { bytes := l.bytes, svn := v.svn, version := v.version })
      mainPending := true } ∧
    (segmentWritten k l true true v a s).sec.flashJob = s.sec.flashJob := by
  have hverifies : imageVerifies s l.image v a = true := by
    rw [himage, imageVerifies_main, hsig]
    exact decide_eq_true hsvn
  rw [segmentWritten, if_neg (by decide), if_neg (by decide), if_pos hverifies]
  obtain ⟨_, _, _, h⟩ := cmdDone_eq k .ok _
  rw [h, imagePending, himage]
  exact ⟨rfl, rfl⟩

/-- A main image that fails leaves its slot invalid and nothing pending. -/
theorem segmentWritten_of_rejected (hbad : v.sigOk = false ∨ v.svn < s.otp.svnMinMain) :
    (segmentWritten k l true true v a s).flash = { s.flash with
      main := upd s.flash.main (other s.flash.mainActive) none } ∧
    (segmentWritten k l true true v a s).sec.flashJob = s.sec.flashJob := by
  have hfails : ¬imageVerifies s l.image v a = true := by
    rw [himage, imageVerifies_main, Bool.and_eq_true, decide_eq_true_eq]
    rintro ⟨hsig, hsvn⟩
    obtain h | h := hbad
    · exact Bool.false_ne_true (h.symm.trans hsig)
    · exact absurd hsvn (Nat.not_le.2 h)
  rw [segmentWritten, if_neg (by decide), if_neg (by decide), if_neg hfails, himage]
  obtain ⟨_, _, _, h⟩ := cmdDone_eq k .badParam _
  rw [h]
  exact ⟨rfl, rfl⟩

end

end

/-- Settles O59: OTP, the commands that begin a write of the boot flash, then its completion. -/
theorem writesBeginAndComplete : Obligations.WritesBeginAndComplete := by
  refine ⟨fun t b s => exec_otpWriteComplete_of_none t b, ?word, ?setting, ?failed, ?noImage, ?first, ?topology,
    ?badRole, fun t b v a s => exec_bootFlashWriteComplete_of_none t b v a, ?verified, ?rejected, ?stored, ?mismatch⟩
  case word =>
    intro t k n s hjob _ _
    obtain ⟨hwords, hdue, hsec⟩ := lifecycleWritten_of_match k n (setSec (fun x => { x with otpJob := none }) (s.at t))
    refine ⟨_, exec_otpWriteComplete_of_lifecycle t true hjob, ?_, fun i hi => ?_, hdue, congrArg Sec.otpJob hsec⟩
    · rw [hwords, upd_self]
    · rw [hwords, upd_other _ _ _ _ hi.symm]
      rfl
  case setting =>
    intro t k v l o s hjob hslots
    obtain ⟨hotp, hhth, hsec⟩ := settingWritten_of_match k v (setSec (fun x => { x with otpJob := none }) (s.at t))
    refine ⟨_, exec_otpWriteComplete_of_setting t true hjob, ?_, (congrArg Otp.lcWords hotp).trans rfl,
      congrArg Hth.resetDue hhth, congrArg Sec.otpJob hsec⟩
    refine (congrArg Otp.market hotp).trans ?_
    show s.otp.market.dropLast ++ _ = _
    rw [hslots, List.dropLast_concat]
  case failed =>
    intro t k v s hjob
    obtain ⟨hotp, hsec⟩ := settingWritten_of_mismatch k 4 0 v (setSec (fun x => { x with otpJob := none }) (s.at t))
    exact ⟨_, exec_otpWriteComplete_of_setting t false hjob, hotp, congrArg Sec.otpJob hsec⟩
  case noImage =>
    intro t rq s hserves himage
    exact congrArg Host.Outcome.next (serve_of_answer hserves (firmwareLoadBody_of_no_image _ himage))
  case first =>
    intro t rq s hserves himage hflags hzero hofs hmax hfits hfree
    refine ⟨_, congrArg Host.Outcome.next (serve_of_answer hserves
      (firmwareLoadBody_of_first _ himage hflags hzero hofs hmax hfits hfree)), ?_, ?_, rfl, rfl⟩
    · exact upd_self ..
    · exact upd_other _ _ _ _ (other_ne _)
  case topology =>
    intro t rq s hserves hrole hexpected hports hzero hfree
    obtain ⟨h30, h27, h0⟩ := topologyWord_fields hrole hexpected hports
    exact ⟨_, congrArg Host.Outcome.next (serve_of_answer hserves
      (linkTopologyBody_of_fields _ hrole hexpected hports hzero hfree)), h30, h27, h0⟩
  case badRole =>
    intro t rq s hserves hrole
    exact congrArg Host.Outcome.next (serve_of_answer hserves (linkTopologyBody_of_bad_role _ hrole))
  case verified =>
    intro t k l v a s hjob himage hsig hsvn
    obtain ⟨hflash, hsec⟩ := segmentWritten_of_verified k v a (setSec (fun x => { x with flashJob := none }) (s.at t))
      himage hsig hsvn
    refine ⟨_, exec_bootFlashWriteComplete_of_segment t true v a hjob, ?_⟩
    rw [hflash, hsec]
    exact ⟨rfl, upd_self .., rfl, rfl⟩
  case rejected =>
    intro t k l v a s hjob himage hbad
    obtain ⟨hflash, hsec⟩ := segmentWritten_of_rejected k v a (setSec (fun x => { x with flashJob := none }) (s.at t))
      himage hbad
    refine ⟨_, exec_bootFlashWriteComplete_of_segment t true v a hjob, ?_⟩
    rw [hflash, hsec]
    exact ⟨rfl, upd_self .., rfl⟩
  case stored =>
    intro t k w v a s hjob
    refine ⟨_, exec_bootFlashWriteComplete_of_topology t v a hjob, ?_⟩
    obtain ⟨_, _, _, h⟩ := cmdDone_eq k .ok { s.at t with
      sec := { s.sec with flashJob := none }, flash := { s.flash with brgConfig := topologyBits w } }
    rw [h]
    exact ⟨rfl, rfl, rfl⟩
  case mismatch =>
    intro t k l b v a s hjob
    obtain ⟨hflash, hsec⟩ := segmentWritten_of_mismatch k l b v a
      (setSec (fun x => { x with flashJob := none }) (s.at t))
    exact ⟨_, exec_bootFlashWriteComplete_of_segment t false v a hjob, hflash, congrArg Sec.flashJob hsec⟩

end Sys2Proof.Machine
end
